-- ==== Sys2Proof/Word.lean ====
section
/-! DEFINITION. The words the part moves: bytes, 32-bit words and 64-bit values. -/

namespace Sys2Proof

/-- One byte. -/
abbrev Byte := BitVec 8

/-- A 16-bit field, such as a generation or a status. -/
abbrev Half := BitVec 16

/-- A 32-bit word: a register, a lane or a stored word (R9, R68). -/
abbrev Word := BitVec 32

/-- A 64-bit value: an address, an identifier or a long counter. -/
abbrev DWord := BitVec 64

end Sys2Proof
end

