-- ==== Sys2Proof/Wire.lean ====
section
/-! DEFINITION. What crosses the pins of the device: flits and their trailers (R237 to R239), SYNC messages (R243), BCP packets
(R276), boot flash contents (R428) and the other values that commands carry. -/

namespace Sys2Proof.Machine

/-- A word read or to be written: its data bits and whether it carries the poison marker. -/
structure PWord where
  bits : Word
  poison : Bool
deriving DecidableEq, Repr

/-- A flit: header (R238), payload words with their poison. -/
structure Flit where
  ftype : Nat
  vc : Nat
  last : Bool
  dst : Nat
  src : Nat
  addr : Nat
  tid : Nat
  aux : Nat
  words : List PWord
deriving DecidableEq, Repr

/-- The trailer of a flit as it comes in (R237), with the bytes that the FEC corrected (R240). -/
structure Trailer where
  seq : Nat
  ack : Nat
  cvc : Nat
  cred : Nat
  fixed : Nat
deriving DecidableEq, Repr

/-- A SYNC message as it arrives (R243): the port (0 to 7) or Ethernet dimension (8 for d4, 9 for d5) it comes over, the trailer of its
first flit, and its payload words. `bcast` holds the dimension of a broadcast (R255). -/
structure SyncMsg where
  via : Fin 10
  tr : Trailer
  dst : Nat
  src : Nat
  bcast : Option (Fin 6)
  words : List Word
deriving DecidableEq, Repr

/-- A BCP packet (R276): its header, its payload after decryption, whether its tag verified (R282), and its source address and port.
`opcode` and `LEN` follow from the command and the payload. -/
structure BcpPkt where
  magic : Nat
  version : Nat
  flags : Nat
  session : Nat
  seq : Nat
  total : Nat
  offset : Nat
  pktCtr : Nat
  tagOk : Bool
  from_ : Nat
  payload : List Byte
deriving DecidableEq, Repr

/-- A firmware slot of the boot flash: whether its manifest verifies under R393, its SVN and `COMMIT_SVN`, and the SHA-384 of its
manifest. -/
structure FwSlot where
  ok : Bool
  svn : Nat
  commitSvn : Bool
  digest : Nat
deriving DecidableEq, Repr

/-- The boot flash as the part reads it (R428): the header's validity, the two firmware slots, whether the board configuration record
verifies under R393, its signer, its body and the SHA-384 of its manifest, and the endorsement manifest. -/
structure Flash where
  headerOk : Bool
  slotA : FwSlot
  slotB : FwSlot
  boardOk : Bool
  boardSigner : Nat
  board : List Byte
  boardDigest : Nat
  endorsement : List Byte
deriving DecidableEq, Repr

/-- The pins sampled when RESET_N rises (R415, R416), and the regulators that do not answer on PMBus (R419). -/
structure Pins where
  head : Bool
  index : Fin 64
  bootSrc : Fin 4
  testMode : Bool
  deafRails : List (Fin 8)
deriving DecidableEq, Repr

/-- What the sensors and regulators give at a window end (R346 to R351, R356): the mean budgeted power over the window in W, the
measured package power in W, the output current of each rail in mA by rail code, the rails whose regulator does not answer, the
energy of each partition in µJ in the order of R356, and the CORE energy of each core. -/
structure Window where
  mean : Nat
  measured : Nat
  railMa : List Nat
  deafRails : List (Fin 8)
  energy : List Nat
  coreEnergy : List Nat
deriving DecidableEq, Repr

end Sys2Proof.Machine
end

