-- ==== Sys2Proof/Syntax.lean ====
section
/-! DEFINITION. The commands of the block: one constructor per row of the table of operations and events. -/

namespace Sys2Proof

open Sys2Proof.Machine (PWord Flit Trailer SyncMsg BcpPkt Flash Pins Window)

/-- What the environment does to a pass as it runs: row slots for which a feeder had no row ready, row slots held by the interlock
of R42, cycles that it waited for a GMM piece or its staging, and a parity error of R61 (the Lamb, and whether it is a row register). -/
structure PassEvents where
  feeder : Nat
  held : Nat
  gmmWait : Nat
  parity : Option (Fin 8 × Bool)
deriving DecidableEq, Repr

/-- Who makes a register access (R30). -/
inductive Agent where
  | gander (n : Fin 4)
  | thread (core : Fin 48) (t : Fin 16)
  | tap
deriving DecidableEq, Repr

/-- Why a device declares its head lost (R289). -/
inductive HeadLoss where
  | silent | unreachable | mgmtLost
deriving DecidableEq, Repr

/-- The NAKs that a RoCEv2 requester receives (R323). -/
inductive NakKind where
  | sequence | rnr | access | operational
deriving DecidableEq, Repr

/-- The commands. -/
inductive Instr where
  | mac (core : Fin 48) (unit : Fin 8) (thread : Fin 16) (ev : PassEvents)
  | l2sq (core : Fin 48) (unit : Fin 8) (thread : Fin 16) (ev : PassEvents)
  | l1 (core : Fin 48) (unit : Fin 8) (thread : Fin 16) (ev : PassEvents)
  | maxplus (core : Fin 48) (unit : Fin 8) (thread : Fin 16) (ev : PassEvents)
  | minplus (core : Fin 48) (unit : Fin 8) (thread : Fin 16) (ev : PassEvents)
  | hamming (core : Fin 48) (unit : Fin 8) (thread : Fin 16) (ev : PassEvents)
  | gtcount (core : Fin 48) (unit : Fin 8) (thread : Fin 16) (ev : PassEvents)
  | passComplete (core : Fin 48) (unit : Fin 8)
  | conv (core : Fin 48) (unit : Fin 8) (thread : Fin 16)
  | convComplete (core : Fin 48) (unit : Fin 8)
  | stream (core : Fin 48) (unit : Fin 8) (thread : Fin 16)
  | segmentAcknowledged (core : Fin 48) (ctx : Fin 64) (tag : Fin 256) (status : Nat)
  | streamTimeout (core : Fin 48) (ctx : Fin 64)
  | faultLimit (core : Fin 48) (ctx : Fin 64)
  | copy (core : Fin 48) (unit : Fin 8) (thread : Fin 16)
  | put32 (core : Fin 48) (unit : Fin 8) (thread : Fin 16)
  | add32 (core : Fin 48) (unit : Fin 8) (thread : Fin 16)
  | muleComplete (core : Fin 48) (slot : Fin 16) (status : Nat)
  | threadLoad (core : Fin 48) (thread : Fin 16) (addr bytes : Nat) (tagParity : Bool)
  | threadStore (core : Fin 48) (thread : Fin 16) (addr : Nat) (data : List Byte)
  | chain (core : Fin 48) (unit : Fin 8) (thread : Fin 16) (parity : Option (Fin 4))
  | chainComplete (core : Fin 48) (stall : Nat)
  | ld (core : Fin 48)
  | ldv (core : Fin 48)
  | ldp (core : Fin 48)
  | st (core : Fin 48)
  | ldq (core : Fin 48)
  | stq (core : Fin 48)
  | add (core : Fin 48)
  | sub (core : Fin 48)
  | mul (core : Fin 48)
  | fma (core : Fin 48)
  | max (core : Fin 48)
  | min (core : Fin 48)
  | neg (core : Fin 48)
  | abs (core : Fin 48)
  | sel (core : Fin 48)
  | cgt (core : Fin 48)
  | cge (core : Fin 48)
  | ceq (core : Fin 48)
  | permRotateHalf (core : Fin 48)
  | permPairSwap (core : Fin 48)
  | exp (core : Fin 48)
  | exp2 (core : Fin 48)
  | log2 (core : Fin 48)
  | rsqrt (core : Fin 48)
  | rcp (core : Fin 48)
  | rsum (core : Fin 48)
  | rmax (core : Fin 48)
  | rmin (core : Fin 48)
  | rssq (core : Fin 48)
  | osm (core : Fin 48)
  | topkLargest (core : Fin 48)
  | topkSmallest (core : Fin 48)
  | selcnt (core : Fin 48)
  | stg (core : Fin 48)
  | end_ (core : Fin 48)
  | phaseWait (core : Fin 48) (unit : Fin 8) (thread : Fin 16)
  | creditWait (core : Fin 48) (unit : Fin 8) (thread : Fin 16)
  | signal (core : Fin 48) (unit : Fin 8) (thread : Fin 16)
  | waitTimeout
  | longWaitLend (core : Fin 48)
  | gmm (core : Fin 48) (unit : Fin 8) (thread : Fin 16)
  | mrs (core : Fin 48) (unit : Fin 8) (thread : Fin 16)
  | dispenseRequest (core : Fin 48) (unit : Fin 8) (waited : Nat)
  | commandStart (cls : Fin 4)
  | chunkStart (cls : Fin 4) (prompts : Nat)
  | maxHold (gseq : Nat)
  | contextFreeze (slot : Fin 4)
  | pageFault (core : Fin 48) (ctx : Fin 64)
  | pageFetchComplete (page : Nat) (data : List PWord)
  | strResume (by_ : Agent) (core : Fin 48) (ctx : Fin 64)
  | leaveRequest (core : Fin 48)
  | leaveGrant
  | evaluationWindow (w : Window)
  | railSettled
  | shiftPeriod
  | tjSample (tj : List Nat)
  | droop (core : Fin 48)
  | marginTrim (margins : List Int)
  | recalibration (uncore measured estimated : Nat)
  | pwrCalWrite (by_ : Agent) (value : Word)
  | idleEntry
  | dozeDelay
  | patrolScrub (addr words : Nat)
  | errorDrain (island : Fin 71)
  | selftestComplete (core : Fin 48) (ok : Bool)
  | coreCmdSelftest (by_ : Agent) (core : Fin 48)
  | cbufInvAll (by_ : Agent) (core : Fin 48)
  | henDbgForceRelease (by_ : Agent) (core : Fin 48) (bar : Fin 32) (value : Fin 256)
  | henDbgSetArrivals (by_ : Agent) (core : Fin 48) (bar : Fin 32) (value : Fin 256)
  | henDbgSetConsumed (by_ : Agent) (core : Fin 48) (bar : Fin 32) (value : Fin 256)
  | henDbgBreak (by_ : Agent) (core : Fin 48) (bar : Fin 32) (value : Fin 256)
  | hengDbgForceRelease (by_ : Agent) (bar : Fin 64)
  | hengDbgBreak (by_ : Agent) (bar : Fin 64)
  | lnkCmdRetrain (by_ : Agent) (port : Fin 8)
  | lnkCmdDisable (by_ : Agent) (port : Fin 8)
  | lnkCmdEnable (by_ : Agent) (port : Fin 8)
  | registerWrite (by_ : Agent) (addr : Nat) (width : Nat) (value : Word)
  | idle (port : Fin 8) (tr : Trailer)
  | write (port : Fin 8) (f : Flit) (tr : Trailer)
  | read (port : Fin 8) (f : Flit) (tr : Trailer)
  | rdata (port : Fin 8) (f : Flit) (tr : Trailer)
  | ack (port : Fin 8) (f : Flit) (tr : Trailer)
  | mule (port : Fin 8) (f : Flit) (tr : Trailer)
  | reduce (port : Fin 8) (f : Flit) (tr : Trailer)
  | pieceEnd (port : Fin 8) (f : Flit) (tr : Trailer)
  | flitDiscard (port : Fin 8) (raw : List Byte)
  | linkFlitInvalid (port : Fin 8) (f : Flit) (tr : Trailer)
  | replayTimer (port : Fin 8)
  | nak (port : Fin 8) (expected : Nat)
  | id (port : Fin 8) (device : Fin 64) (peerPort : Fin 8) (lifecycle : Fin 4) (w3 colt : Bool)
  | train (port : Fin 8) (state : Nat) (coefs : List Word)
  | coltReq (port : Fin 8)
  | coltAck (port : Fin 8)
  | handover (port failed : Fin 8) (lastSeq : Nat)
  | laneLockLoss (port : Fin 8) (lane : Fin 6)
  | trainTmo (port : Fin 8)
  | edgeDown (dim : Fin 4)
  | datagramReceive (dim : Fin 2) (version seq ack : Nat) (flits : List Flit) (credits : List (Fin 4 × Nat))
  | datagramRetransmit (dim : Fin 2)
  | command (m : SyncMsg) (proofOk : Bool)
  | heartbeat (m : SyncMsg)
  | heartbeatPeriod
  | headLost (cause : HeadLoss)
  | arrive (m : SyncMsg)
  | grantReq (m : SyncMsg)
  | grant (m : SyncMsg)
  | abort (m : SyncMsg)
  | collectiveTimeout (opid : Nat)
  | abortRecord (opid : Nat)
  | freeze (m : SyncMsg)
  | thaw (m : SyncMsg)
  | stepReq (m : SyncMsg)
  | reexec (m : SyncMsg)
  | commandRestart (m : SyncMsg)
  | accuse (m : SyncMsg)
  | done (m : SyncMsg)
  | firstToken (m : SyncMsg)
  | routeDigest (m : SyncMsg)
  | keyWrap (m : SyncMsg) (tagOk : Bool)
  | shiftReport (m : SyncMsg)
  | shiftSet (m : SyncMsg)
  | doze (m : SyncMsg)
  | wake (m : SyncMsg)
  | deep (m : SyncMsg)
  | call (m : SyncMsg)
  | callPeriod
  | join (m : SyncMsg) (keyOk : Bool)
  | formTmo
  | formed (m : SyncMsg)
  | memberLeft (m : SyncMsg)
  | attest (p : BcpPkt)
  | sessionOpen (p : BcpPkt) (sigOk : Bool)
  | exchangeExpiry (digest : Nat)
  | sessionClose (p : BcpPkt)
  | debugUnlock (p : BcpPkt) (proofOk : Bool)
  | challengeExpiry (session : Nat)
  | groupState (p : BcpPkt)
  | commandStatus (p : BcpPkt)
  | readReg (p : BcpPkt)
  | writeReg (p : BcpPkt)
  | memRead (p : BcpPkt)
  | memWrite (p : BcpPkt)
  | telemetry (p : BcpPkt)
  | errorRead (p : BcpPkt)
  | errorAck (p : BcpPkt)
  | setConfig (p : BcpPkt)
  | imageBegin (p : BcpPkt)
  | imageData (p : BcpPkt)
  | imageCommit (p : BcpPkt)
  | imageActivate (p : BcpPkt)
  | imageUnload (p : BcpPkt)
  | exec (p : BcpPkt)
  | prefill (p : BcpPkt)
  | tokenize (gseq : Nat)
  | score (p : BcpPkt)
  | cancel (p : BcpPkt)
  | kvPageData (p : BcpPkt)
  | kvPageRequest (page : Nat)
  | reassemblyTimeout (session seq : Nat)
  | icmpEcho (v6 : Bool) (to_ from_ : Nat) (data : List Byte)
  | arpRequest (v6 : Bool) (for_ from_ : Nat)
  | pfcPause (prio : Fin 8) (pause : Bool)
  | rep (conn : Fin 64) (priv : List Byte)
  | rej (conn : Fin 64)
  | reqRetry (conn : Fin 64)
  | roceAck (conn : Fin 64) (psn : Nat)
  | roceNak (conn : Fin 64) (psn : Nat) (kind : NakKind)
  | roceAckTimeout (conn : Fin 64)
  | rnrWait (conn : Fin 64)
  | cnp (conn : Fin 64)
  | rateIncrease (conn : Fin 64)
  | ethPortDown
  | powerOnReset
  | deviceReset
  | brownoutReset (rail : Fin 8)
  | pwrgoodFall
  | lowerTreeGenerated (deadBits : Nat)
  | linkTrained (port : Fin 8) (lanes : Fin 64)
  | memoryTrained (failed : List (Fin 80))
  | startUpComplete (coresFailed : List (Fin 48)) (gandersFailed : List (Fin 4))
  | status
  | detail
  | state
  | index
  | temp
  | power
  | uid
  | alertResponse
  | deepEnter (data : Byte) (pecOk : Bool)
  | deepExit (data : Byte) (pecOk : Bool)
  | reset (data : Byte) (pecOk : Bool) (pins : Pins) (flash : Flash)
  | idcode
  | samplePreload (bits : List Bool)
  | extest (bits : List Bool)
  | clamp
  | highz
  | regAccess (addr : Nat) (data : Word) (write : Bool)
  | dbgPw (len : Nat) (password : List Byte)
  | dbgChal
  | dbgResp (response : List Byte) (proofOk : Bool)
  | otpOwner (slot : Nat) (ecdsa hss : Nat)
  | otpPw (digest : Nat)
  | tapStatus
  | bypass
  | resetNRise (pins : Pins) (flash : Flash)
  | railInRange (rail : Fin 8) (pins : Pins) (flash : Flash)
  | droopRecovery (core : Fin 48) (stretched : Nat)
  | ethPortUp (full : Bool)
  | laneSignalDetect (port : Fin 8)
  | regenPeriodEnd
  | memberFormTmo
  | reservedOpcode (opcode : Nat) (p : BcpPkt)
  | unsupportedFrame
  | commitChecksDone (image : Nat) (sigOk : Bool)
  | refreshIntervalChange (package : Fin 10) (rate : Fin 32)
deriving DecidableEq, Repr

end Sys2Proof
end

