-- ==== Sys2Proof/Config.lean ====
section
/-! DEFINITION. What an implementation fixes and the values the spec leaves open: opaque constants, of which nothing is known. -/

namespace Sys2Proof.Config

/-- The n-th value that the spec leaves open, drawn by the step as it advances `State.freeCtr`. -/
opaque free : Nat → Nat

/-- R129: whether function `f` (0 EXP, 1 EXP2, 2 LOG2, 3 RSQRT, 4 RCP) returns, at operand `x`, the neighbour farther from zero of
the two FP32 values nearest its exact result. The same on every lane, core and device. -/
opaque roundsAway (f : Nat) (x : Word) : Bool

/-- R129 states no value of function `f` (1 EXP2, 2 LOG2) at operand `x` (EXP2 of +∞, LOG2 of −0 and of +∞): a free value, the same on
every lane, core and device. -/
opaque unstatedFn (f : Nat) (x : Word) : Word

/-- The 384 bits of the SHA-384 of a byte list (FIPS 180-4). -/
opaque sha384Bits : List Byte → BitVec 384

/-- SHA-384 of a byte list, as 48 bytes read big-endian. -/
def sha384 (m : List Byte) : Nat := (sha384Bits m).toNat

/-- The 256 bits of the SHA-256 of a byte list (FIPS 180-4). -/
opaque sha256Bits : List Byte → BitVec 256

/-- SHA-256 of a byte list, as 32 bytes read big-endian. -/
def sha256 (m : List Byte) : Nat := (sha256Bits m).toNat

/-- The signature that a device's keys make over a message: key 0 the ECDSA key, key 1 the current HSS leaf (R399 to R404). -/
opaque sign (key leaf : Nat) (msg : List Byte) : List Byte

/-- First page of the paged KV space that Gander 2 binds for command `gseq` (R169, R307): the spec leaves the choice open. -/
opaque kvPage (gseq : Nat) : Nat

/-- The base that Gander firmware fills into a slot of `SOURCE` 2 for service `service` of command `gseq` (R307, R441). -/
opaque serviceBase (service gseq : Nat) : Nat

/-- Word `i` of what Gander firmware leaves at the base of service `service` for command `gseq` (token IDs, queries, candidate rows): the
spec gives no layout (R307). -/
opaque serviceWord (service gseq i : Nat) : Word

/-- Where image `image` lays the KV of a layer, a held head and a position of a prompt, counted in bytes from the command's KV range: the
image decides (R169, R324). -/
opaque kvPlace (image layer head position : Nat) : Nat

/-- How many layers' KV is complete after `runs` program runs of image `image`'s prefill schedule: the image decides (R324). -/
opaque layersDone (image runs : Nat) : Nat

/-- The 64 best logits of device `dev`'s slice for prompt `gseq`, as (logit, token ID) pairs: the place in which a program leaves them is
the image's, and a member's reach the head by no message that the spec lists (R320). -/
opaque topLogits (gseq dev : Nat) : List (Word × Nat)

/-- The ranked candidates of device `dev` for query `query` of SCORE command `gseq`, as (score bits, position) pairs (R330). -/
opaque scoreList (gseq dev query : Nat) : List (Word × Nat)

/-- The natural logarithm of an FP32 share, as FP32 (R320). -/
opaque lnShare : Word → Word

/-- The digest of a layer's selections that this device computes (R33): the digest function is not given. -/
opaque routeDigest (gseq layer : Nat) : Nat

/-- The keys and salts of a session (R406) and their wrapping for a member (R407). -/
opaque sessionKeys (hostNonce devNonce session digest : Nat) : Nat

/-- The words of a KEY_WRAP block for member `dev` (R407). -/
opaque wrapKeys (keys dev : Nat) : List Word

/-- The keys that a KEY_WRAP block unwraps to (R407). -/
opaque unwrapKeys (block : List Word) : Nat

/-- The fused maximum clock of Gander core n above 1.6 GHz, in units of 10 MHz (R355): a part's own. -/
opaque ganderFuse (n : Nat) : Nat

/-- A device's own member key share, signature and endorsement as JOIN carries them (R407, R433). -/
opaque memberShare (dev : Nat) : List Word

end Sys2Proof.Config
end

