-- ==== Sys2Proof/Machine/RegTable.lean ====
section
/-! DEFINITION. The register maps of the part (R32, R64, R120, R147, R172 to R174, R199, R220 to R222, R273, R274, R310, R331,
R332, R362, R363, R388, R413, R439), one row per register: offset, how many instances and their stride, name, reset value and the
bits of each access code of R12. Bits in no mask are RO or reserved. -/

namespace Sys2Proof.Machine

/-- One row of a register map: `count` registers `stride` bytes apart from `off`; a mask per access code of R12;
`x` marks a reset value the map gives as X. -/
structure RegDef where
  off : Nat
  count : Nat
  stride : Nat
  name : String
  reset : BitVec 32
  rw : BitVec 32
  rws : BitVec 32
  rwl : BitVec 32
  w1c : BitVec 32
  wo : BitVec 32
  x : Bool
deriving DecidableEq, Repr

/-- The map of R32. -/
def regsCore : List RegDef :=
 [
  ⟨0x0, 1, 0, "CORE_ID", 0, 0x0, 0x0, 0x0, 0x0, 0x0, false⟩,
  ⟨0x4, 1, 0, "CORE_STATUS", 0x0, 0x0, 0x0, 0x0, 0x81, 0x0, false⟩,
  ⟨0x8, 1, 0, "CORE_CMD", 0x0, 0x0, 0x0, 0x0, 0x0, 0x1, false⟩,
  ⟨0x10, 1, 0, "CORE_CYCLE_LO", 0x0, 0x0, 0x0, 0x0, 0x0, 0x0, false⟩,
  ⟨0x14, 1, 0, "CORE_CYCLE_HI", 0x0, 0x0, 0x0, 0x0, 0x0, 0x0, false⟩,
  ⟨0x18, 1, 0, "CORE_ISSUE_LO", 0x0, 0x0, 0x0, 0x0, 0x0, 0x0, false⟩,
  ⟨0x1C, 1, 0, "CORE_ISSUE_HI", 0x0, 0x0, 0x0, 0x0, 0x0, 0x0, false⟩,
  ⟨0x20, 1, 0, "CORE_TEMP", 0x0, 0x0, 0x0, 0x0, 0x0, 0x0, false⟩,
  ⟨0x24, 1, 0, "CORE_MARGIN", 0x0, 0x0, 0x0, 0x0, 0x0, 0x0, false⟩,
  ⟨0x28, 1, 0, "CORE_STRETCH_LO", 0x0, 0x0, 0x0, 0x0, 0x0, 0x0, false⟩,
  ⟨0x2C, 1, 0, "CORE_STRETCH_HI", 0x0, 0x0, 0x0, 0x0, 0x80000000, 0x0, false⟩]

/-- The map of R64. -/
def regsLamb : List RegDef :=
 [
  ⟨0x0, 1, 0, "LAMB_ID", 0xF4008, 0x0, 0x0, 0x0, 0x0, 0x0, false⟩,
  ⟨0x4, 1, 0, "LAMB_STATUS", 0x0, 0x0, 0x0, 0x0, 0x7, 0x0, false⟩,
  ⟨0x8, 1, 0, "LAMB_GANG", 0x0, 0x0, 0x0, 0x0, 0x0, 0x0, false⟩,
  ⟨0xC, 1, 0, "LAMB_CTRL", 0x1, 0x0, 0x3, 0x0, 0x0, 0x0, false⟩,
  ⟨0x10, 1, 0, "LAMB_FAULT", 0x0, 0x0, 0x0, 0x0, 0x0, 0x0, false⟩,
  ⟨0x20, 1, 0, "LAMB_PASS_LO", 0x0, 0x0, 0x0, 0x0, 0x0, 0x0, false⟩,
  ⟨0x24, 1, 0, "LAMB_PASS_HI", 0x0, 0x0, 0x0, 0x0, 0x80000000, 0x0, false⟩,
  ⟨0x28, 1, 0, "LAMB_ROWS_LO", 0x0, 0x0, 0x0, 0x0, 0x0, 0x0, false⟩,
  ⟨0x2C, 1, 0, "LAMB_ROWS_HI", 0x0, 0x0, 0x0, 0x0, 0x80000000, 0x0, false⟩,
  ⟨0x30, 1, 0, "LAMB_BUBBLE_LO", 0x0, 0x0, 0x0, 0x0, 0x0, 0x0, false⟩,
  ⟨0x34, 1, 0, "LAMB_BUBBLE_HI", 0x0, 0x0, 0x0, 0x0, 0x80000000, 0x0, false⟩,
  ⟨0x38, 1, 0, "LAMB_SKIP_LO", 0x0, 0x0, 0x0, 0x0, 0x0, 0x0, false⟩,
  ⟨0x3C, 1, 0, "LAMB_SKIP_HI", 0x0, 0x0, 0x0, 0x0, 0x80000000, 0x0, false⟩,
  ⟨0x40, 1, 0, "LAMB_FLOOR_LO", 0x0, 0x0, 0x0, 0x0, 0x0, 0x0, false⟩,
  ⟨0x44, 1, 0, "LAMB_FLOOR_HI", 0x0, 0x0, 0x0, 0x0, 0x80000000, 0x0, false⟩,
  ⟨0x48, 1, 0, "LAMB_ILOCK_LO", 0x0, 0x0, 0x0, 0x0, 0x0, 0x0, false⟩,
  ⟨0x4C, 1, 0, "LAMB_ILOCK_HI", 0x0, 0x0, 0x0, 0x0, 0x80000000, 0x0, false⟩]

/-- The map of R120. -/
def regsTsq : List RegDef :=
 [
  ⟨0x0, 1, 0, "TSQ_ID", 0x610, 0x0, 0x0, 0x0, 0x0, 0x0, false⟩,
  ⟨0x4, 1, 0, "TSQ_STATUS", 0x0, 0x0, 0x0, 0x0, 0x11, 0x0, false⟩,
  ⟨0x8, 1, 0, "TSQ_CTRL", 0x1, 0x0, 0x3, 0x0, 0x0, 0x0, false⟩,
  ⟨0xC, 1, 0, "TSQ_PROG", 0x0, 0x0, 0x0, 0x0, 0x0, 0x0, false⟩,
  ⟨0x10, 1, 0, "TSQ_THREAD", 0x0, 0x0, 0x0, 0x0, 0x0, 0x0, false⟩,
  ⟨0x14, 1, 0, "TSQ_TILE", 0x0, 0x0, 0x0, 0x0, 0x0, 0x0, false⟩,
  ⟨0x20, 1, 0, "TSQ_TILES_LO", 0x0, 0x0, 0x0, 0x0, 0x0, 0x0, false⟩,
  ⟨0x24, 1, 0, "TSQ_TILES_HI", 0x0, 0x0, 0x0, 0x0, 0x80000000, 0x0, false⟩,
  ⟨0x28, 1, 0, "TSQ_LENSKIP_LO", 0x0, 0x0, 0x0, 0x0, 0x0, 0x0, false⟩,
  ⟨0x2C, 1, 0, "TSQ_LENSKIP_HI", 0x0, 0x0, 0x0, 0x0, 0x80000000, 0x0, false⟩,
  ⟨0x30, 1, 0, "TSQ_CAUSKIP_LO", 0x0, 0x0, 0x0, 0x0, 0x0, 0x0, false⟩,
  ⟨0x34, 1, 0, "TSQ_CAUSKIP_HI", 0x0, 0x0, 0x0, 0x0, 0x80000000, 0x0, false⟩,
  ⟨0x38, 1, 0, "TSQ_MGROUP_LO", 0x0, 0x0, 0x0, 0x0, 0x0, 0x0, false⟩,
  ⟨0x3C, 1, 0, "TSQ_MGROUP_HI", 0x0, 0x0, 0x0, 0x0, 0x80000000, 0x0, false⟩,
  ⟨0x40, 1, 0, "TSQ_GMMWAIT_LO", 0x0, 0x0, 0x0, 0x0, 0x0, 0x0, false⟩,
  ⟨0x44, 1, 0, "TSQ_GMMWAIT_HI", 0x0, 0x0, 0x0, 0x0, 0x80000000, 0x0, false⟩,
  ⟨0x48, 1, 0, "TSQ_DISPWAIT_LO", 0x0, 0x0, 0x0, 0x0, 0x0, 0x0, false⟩,
  ⟨0x4C, 1, 0, "TSQ_DISPWAIT_HI", 0x0, 0x0, 0x0, 0x0, 0x80000000, 0x0, false⟩]

/-- The map of R147. -/
def regsVec : List RegDef :=
 [
  ⟨0x0, 1, 0, "VEC_ID", 0x484100, 0x0, 0x0, 0x0, 0x0, 0x0, false⟩,
  ⟨0x4, 1, 0, "VEC_STATUS", 0x0, 0x0, 0x0, 0x0, 0xB, 0x0, false⟩,
  ⟨0x8, 1, 0, "VEC_CTRL", 0x1, 0x0, 0x1, 0x0, 0x0, 0x0, false⟩,
  ⟨0xC, 1, 0, "VEC_CHAIN", 0x0, 0x0, 0x0, 0x0, 0x0, 0x0, false⟩,
  ⟨0x10, 1, 0, "VEC_FAULT", 0x0, 0x0, 0x0, 0x0, 0x0, 0x0, false⟩,
  ⟨0x20, 1, 0, "VEC_CHAINS_LO", 0x0, 0x0, 0x0, 0x0, 0x0, 0x0, false⟩,
  ⟨0x24, 1, 0, "VEC_CHAINS_HI", 0x0, 0x0, 0x0, 0x0, 0x80000000, 0x0, false⟩,
  ⟨0x28, 1, 0, "VEC_ROWS_LO", 0x0, 0x0, 0x0, 0x0, 0x0, 0x0, false⟩,
  ⟨0x2C, 1, 0, "VEC_ROWS_HI", 0x0, 0x0, 0x0, 0x0, 0x80000000, 0x0, false⟩,
  ⟨0x30, 1, 0, "VEC_SLOTS_LO", 0x0, 0x0, 0x0, 0x0, 0x0, 0x0, false⟩,
  ⟨0x34, 1, 0, "VEC_SLOTS_HI", 0x0, 0x0, 0x0, 0x0, 0x80000000, 0x0, false⟩,
  ⟨0x38, 1, 0, "VEC_STALL_LO", 0x0, 0x0, 0x0, 0x0, 0x0, 0x0, false⟩,
  ⟨0x3C, 1, 0, "VEC_STALL_HI", 0x0, 0x0, 0x0, 0x0, 0x80000000, 0x0, false⟩,
  ⟨0x40, 1, 0, "VEC_POISON_LO", 0x0, 0x0, 0x0, 0x0, 0x0, 0x0, false⟩,
  ⟨0x44, 1, 0, "VEC_POISON_HI", 0x0, 0x0, 0x0, 0x0, 0x80000000, 0x0, false⟩,
  ⟨0x48, 1, 0, "VEC_RESCALE_LO", 0x0, 0x0, 0x0, 0x0, 0x0, 0x0, false⟩,
  ⟨0x4C, 1, 0, "VEC_RESCALE_HI", 0x0, 0x0, 0x0, 0x0, 0x80000000, 0x0, false⟩]

/-- The map of R172. -/
def regsMem : List RegDef :=
 [
  ⟨0x0, 1, 0, "MEM_ID", 0x025800A0, 0x0, 0x0, 0x0, 0x0, 0x0, false⟩,
  ⟨0x4, 1, 0, "MEM_STATUS", 0x0, 0x0, 0x0, 0x0, 0x3, 0x0, false⟩,
  ⟨0x8, 1, 0, "MEM_CTRL", 0x1803, 0xFF03, 0x0, 0x0, 0x0, 0x0, false⟩,
  ⟨0x10, 1, 0, "MEM_UE_ADDR_LO", 0x0, 0x0, 0x0, 0x0, 0x0, 0x0, false⟩,
  ⟨0x14, 1, 0, "MEM_UE_ADDR_HI", 0x0, 0x0, 0x0, 0x0, 0x0, 0x0, false⟩,
  ⟨0x20, 1, 0, "MEM_CE_LO", 0x0, 0x0, 0x0, 0x0, 0x0, 0x0, false⟩,
  ⟨0x24, 1, 0, "MEM_CE_HI", 0x0, 0x0, 0x0, 0x0, 0x80000000, 0x0, false⟩,
  ⟨0x28, 1, 0, "MEM_UE_LO", 0x0, 0x0, 0x0, 0x0, 0x0, 0x0, false⟩,
  ⟨0x2C, 1, 0, "MEM_UE_HI", 0x0, 0x0, 0x0, 0x0, 0x80000000, 0x0, false⟩,
  ⟨0x30, 1, 0, "MEM_POISON_LO", 0x0, 0x0, 0x0, 0x0, 0x0, 0x0, false⟩,
  ⟨0x34, 1, 0, "MEM_POISON_HI", 0x0, 0x0, 0x0, 0x0, 0x80000000, 0x0, false⟩,
  ⟨0x38, 1, 0, "MEM_LINKECC_LO", 0x0, 0x0, 0x0, 0x0, 0x0, 0x0, false⟩,
  ⟨0x3C, 1, 0, "MEM_LINKECC_HI", 0x0, 0x0, 0x0, 0x0, 0x80000000, 0x0, false⟩]

/-- The map of R173. -/
def regsSsr : List RegDef :=
 [
  ⟨0x0, 1, 0, "SSR_ID", 0x00040000, 0x0, 0x0, 0x0, 0x0, 0x0, false⟩,
  ⟨0x4, 1, 0, "SSR_STATUS", 0x0, 0x0, 0x0, 0x0, 0x3, 0x0, false⟩,
  ⟨0x8, 1, 0, "SSR_CTRL", 0x1803, 0xFF03, 0x0, 0x0, 0x0, 0x0, false⟩,
  ⟨0xC, 1, 0, "SSR_POOL_LIMIT", 0x7FF, 0x0, 0x0, 0x0, 0x0, 0x0, false⟩,
  ⟨0x20, 1, 0, "SSR_CE_LO", 0x0, 0x0, 0x0, 0x0, 0x0, 0x0, false⟩,
  ⟨0x24, 1, 0, "SSR_CE_HI", 0x0, 0x0, 0x0, 0x0, 0x80000000, 0x0, false⟩,
  ⟨0x28, 1, 0, "SSR_UE_LO", 0x0, 0x0, 0x0, 0x0, 0x0, 0x0, false⟩,
  ⟨0x2C, 1, 0, "SSR_UE_HI", 0x0, 0x0, 0x0, 0x0, 0x80000000, 0x0, false⟩,
  ⟨0x80, 16, 4, "SSR_REMAP_i", 0x0, 0x0, 0x0, 0x803FFFFF, 0x0, 0x0, false⟩]

/-- The map of R174. -/
def regsCbuf : List RegDef :=
 [
  ⟨0x0, 1, 0, "CBUF_ID", 0x1100, 0x0, 0x0, 0x0, 0x0, 0x0, false⟩,
  ⟨0x4, 1, 0, "CBUF_STATUS", 0x0, 0x0, 0x0, 0x0, 0x3, 0x0, false⟩,
  ⟨0x8, 1, 0, "CBUF_CTRL", 0x1, 0x0, 0x1, 0x0, 0x0, 0x0, false⟩,
  ⟨0xC, 1, 0, "CBUF_INV", 0x0, 0x0, 0x0, 0x0, 0x0, 0x1, false⟩,
  ⟨0x20, 1, 0, "CBUF_HIT_LO", 0x0, 0x0, 0x0, 0x0, 0x0, 0x0, false⟩,
  ⟨0x24, 1, 0, "CBUF_HIT_HI", 0x0, 0x0, 0x0, 0x0, 0x80000000, 0x0, false⟩,
  ⟨0x28, 1, 0, "CBUF_MISS_LO", 0x0, 0x0, 0x0, 0x0, 0x0, 0x0, false⟩,
  ⟨0x2C, 1, 0, "CBUF_MISS_HI", 0x0, 0x0, 0x0, 0x0, 0x80000000, 0x0, false⟩,
  ⟨0x30, 1, 0, "CBUF_INVAL_LO", 0x0, 0x0, 0x0, 0x0, 0x0, 0x0, false⟩,
  ⟨0x34, 1, 0, "CBUF_INVAL_HI", 0x0, 0x0, 0x0, 0x0, 0x80000000, 0x0, false⟩,
  ⟨0x38, 1, 0, "CBUF_CE_LO", 0x0, 0x0, 0x0, 0x0, 0x0, 0x0, false⟩,
  ⟨0x3C, 1, 0, "CBUF_CE_HI", 0x0, 0x0, 0x0, 0x0, 0x80000000, 0x0, false⟩,
  ⟨0x40, 1, 0, "CBUF_UE_LO", 0x0, 0x0, 0x0, 0x0, 0x0, 0x0, false⟩,
  ⟨0x44, 1, 0, "CBUF_UE_HI", 0x0, 0x0, 0x0, 0x0, 0x80000000, 0x0, false⟩]

/-- The map of R199. -/
def regsStr : List RegDef :=
 [
  ⟨0x0, 1, 0, "STR_ID", 0xA10040, 0x0, 0x0, 0x0, 0x0, 0x0, false⟩,
  ⟨0x4, 1, 0, "STR_STATUS", 0x0, 0x0, 0x0, 0x0, 0xD, 0x0, false⟩,
  ⟨0x8, 1, 0, "STR_CTRL", 0x640A, 0x0, 0x2FFFF, 0x0, 0x0, 0x0, false⟩,
  ⟨0xC, 1, 0, "STR_TAGS", 0x0, 0x0, 0x0, 0x0, 0x0, 0x0, false⟩,
  ⟨0x10, 1, 0, "STR_ACTIVE", 0x0, 0x0, 0x0, 0x0, 0x0, 0x0, false⟩,
  ⟨0x14, 1, 0, "STR_FAULT", 0x0, 0x0, 0x0, 0x0, 0x0, 0x0, false⟩,
  ⟨0x18, 1, 0, "STR_FAULT_PAGE", 0x0, 0x0, 0x0, 0x0, 0x0, 0x0, false⟩,
  ⟨0x1C, 1, 0, "STR_RESUME", 0x0, 0x0, 0x0, 0x0, 0x0, 0x3F, false⟩,
  ⟨0x20, 1, 0, "STR_BYTES_LO", 0x0, 0x0, 0x0, 0x0, 0x0, 0x0, false⟩,
  ⟨0x24, 1, 0, "STR_BYTES_HI", 0x0, 0x0, 0x0, 0x0, 0x80000000, 0x0, false⟩,
  ⟨0x28, 1, 0, "STR_SEGS_LO", 0x0, 0x0, 0x0, 0x0, 0x0, 0x0, false⟩,
  ⟨0x2C, 1, 0, "STR_SEGS_HI", 0x0, 0x0, 0x0, 0x0, 0x80000000, 0x0, false⟩,
  ⟨0x30, 1, 0, "STR_ZSKIP_LO", 0x0, 0x0, 0x0, 0x0, 0x0, 0x0, false⟩,
  ⟨0x34, 1, 0, "STR_ZSKIP_HI", 0x0, 0x0, 0x0, 0x0, 0x80000000, 0x0, false⟩,
  ⟨0x38, 1, 0, "STR_FAULTS_LO", 0x0, 0x0, 0x0, 0x0, 0x0, 0x0, false⟩,
  ⟨0x3C, 1, 0, "STR_FAULTS_HI", 0x0, 0x0, 0x0, 0x0, 0x80000000, 0x0, false⟩,
  ⟨0x40, 1, 0, "STR_HALT_LO", 0x0, 0x0, 0x0, 0x0, 0x0, 0x0, false⟩,
  ⟨0x44, 1, 0, "STR_HALT_HI", 0x0, 0x0, 0x0, 0x0, 0x80000000, 0x0, false⟩,
  ⟨0x48, 1, 0, "STR_MULE_LO", 0x0, 0x0, 0x0, 0x0, 0x0, 0x0, false⟩,
  ⟨0x4C, 1, 0, "STR_MULE_HI", 0x0, 0x0, 0x0, 0x0, 0x80000000, 0x0, false⟩] ++
[
  ⟨0x50, 1, 0, "STR_ISSUEWAIT_LO", 0x0, 0x0, 0x0, 0x0, 0x0, 0x0, false⟩,
  ⟨0x54, 1, 0, "STR_ISSUEWAIT_HI", 0x0, 0x0, 0x0, 0x0, 0x80000000, 0x0, false⟩]

/-- The map of R220. -/
def regsHen : List RegDef :=
 [
  ⟨0x0, 1, 0, "HEN_ID", 0x1020, 0x0, 0x0, 0x0, 0x0, 0x0, false⟩,
  ⟨0x4, 1, 0, "HEN_STATUS", 0x0, 0x0, 0x0, 0x0, 0x23, 0x0, false⟩,
  ⟨0x8, 1, 0, "HEN_CTRL", 0x1022710, 0x0, 0x1FFFFFF, 0x0, 0x0, 0x0, false⟩,
  ⟨0xC, 1, 0, "HEN_DBG", 0x0, 0x0, 0x0, 0x0, 0x0, 0xFFFF, false⟩,
  ⟨0x10, 1, 0, "HEN_OWNER", 0x0, 0x0, 0x0, 0x0, 0x0, 0x0, false⟩,
  ⟨0x14, 1, 0, "HEN_WATCH", 0x0, 0x0, 0x0, 0x0, 0x0, 0x0, false⟩,
  ⟨0x20, 1, 0, "HEN_WAKES_LO", 0x0, 0x0, 0x0, 0x0, 0x0, 0x0, false⟩,
  ⟨0x24, 1, 0, "HEN_WAKES_HI", 0x0, 0x0, 0x0, 0x0, 0x80000000, 0x0, false⟩,
  ⟨0x28, 1, 0, "HEN_TMO_LO", 0x0, 0x0, 0x0, 0x0, 0x0, 0x0, false⟩,
  ⟨0x2C, 1, 0, "HEN_TMO_HI", 0x0, 0x0, 0x0, 0x0, 0x80000000, 0x0, false⟩,
  ⟨0x30, 1, 0, "HEN_LENT_LO", 0x0, 0x0, 0x0, 0x0, 0x0, 0x0, false⟩,
  ⟨0x34, 1, 0, "HEN_LENT_HI", 0x0, 0x0, 0x0, 0x0, 0x80000000, 0x0, false⟩,
  ⟨0x40, 16, 4, "HEN_MBOX_t", 0x0, 0x0, 0x0, 0x0, 0x0, 0x0, false⟩,
  ⟨0x100, 32, 8, "HEN_BAR_b_STATE", 0x0, 0x0, 0x0, 0x0, 0x0, 0x0, false⟩,
  ⟨0x104, 32, 8, "HEN_BAR_b_COUNT", 0x0, 0x0, 0x0, 0x0, 0x0, 0x0, false⟩]

/-- The map of R221. -/
def regsHeng0 : List RegDef :=
 [
  ⟨0x0, 1, 0, "HENG_ID", 0x44040, 0x0, 0x0, 0x0, 0x0, 0x0, false⟩,
  ⟨0x4, 1, 0, "HENG_STATUS", 0x0, 0x0, 0x0, 0x0, 0x23, 0x0, false⟩,
  ⟨0x8, 1, 0, "HENG_CTRL", 0x4E20, 0x0, 0xFFFF, 0x0, 0x0, 0x0, false⟩,
  ⟨0xC, 1, 0, "HENG_DBG", 0x0, 0x0, 0x0, 0x0, 0x0, 0x73F, false⟩,
  ⟨0x10, 4, 4, "HENG_CTX_k", 0x0, 0x0, 0x0, 0x0, 0x0, 0x0, false⟩,
  ⟨0x20, 1, 0, "HENG_REL_LO", 0x0, 0x0, 0x0, 0x0, 0x0, 0x0, false⟩,
  ⟨0x24, 1, 0, "HENG_REL_HI", 0x0, 0x0, 0x0, 0x0, 0x80000000, 0x0, false⟩,
  ⟨0x28, 1, 0, "HENG_TMO_LO", 0x0, 0x0, 0x0, 0x0, 0x0, 0x0, false⟩,
  ⟨0x2C, 1, 0, "HENG_TMO_HI", 0x0, 0x0, 0x0, 0x0, 0x80000000, 0x0, false⟩,
  ⟨0x100, 64, 8, "HENG_GB_g_STATE", 0x0, 0x0, 0x0, 0x0, 0x0, 0x0, false⟩,
  ⟨0x104, 64, 8, "HENG_GB_g_COUNT", 0x0, 0x0, 0x0, 0x0, 0x0, 0x0, false⟩]

/-- The map of R222. -/
def regsHeng1 : List RegDef :=
 [
  ⟨0x0, 64, 16, "DSP_n_COUNT", 0x0, 0x0, 0x0, 0x0, 0x0, 0x0, false⟩,
  ⟨0x4, 64, 16, "DSP_n_NEXT", 0x0, 0x0, 0x0, 0x0, 0x0, 0x0, false⟩,
  ⟨0x8, 64, 16, "DSP_n_STATE", 0x0, 0x0, 0x0, 0x0, 0x0, 0x0, false⟩,
  ⟨0xC, 64, 16, "DSP_n_OWNER", 0x0, 0x0, 0x0, 0x0, 0x0, 0x0, false⟩]

/-- The map of R273. -/
def regsLnk : List RegDef :=
 [
  ⟨0x0, 1, 0, "LNK_ID", 0x00200600, 0x0, 0x0, 0x0, 0x0, 0x0, false⟩,
  ⟨0x4, 1, 0, "LNK_STATUS", 0x0, 0x0, 0x0, 0x0, 0x41, 0x0, false⟩,
  ⟨0x8, 1, 0, "LNK_CTRL", 0xA03, 0x0, 0x0, 0xFF03, 0x0, 0x0, false⟩,
  ⟨0xC, 1, 0, "LNK_VCW", 0x10408010, 0xFFFFFFFF, 0x0, 0x0, 0x0, 0x0, false⟩,
  ⟨0x10, 1, 0, "LNK_CMD", 0x0, 0x0, 0x0, 0x0, 0x0, 0x7, false⟩,
  ⟨0x14, 1, 0, "LNK_PEER", 0x0, 0x0, 0x0, 0x0, 0x0, 0x0, false⟩,
  ⟨0x18, 1, 0, "LNK_LANES", 0x0, 0x0, 0x0, 0x0, 0x0, 0x0, false⟩,
  ⟨0x20, 1, 0, "LNK_TX_LO", 0x0, 0x0, 0x0, 0x0, 0x0, 0x0, false⟩,
  ⟨0x24, 1, 0, "LNK_TX_HI", 0x0, 0x0, 0x0, 0x0, 0x80000000, 0x0, false⟩,
  ⟨0x28, 1, 0, "LNK_RX_LO", 0x0, 0x0, 0x0, 0x0, 0x0, 0x0, false⟩,
  ⟨0x2C, 1, 0, "LNK_RX_HI", 0x0, 0x0, 0x0, 0x0, 0x80000000, 0x0, false⟩,
  ⟨0x30, 1, 0, "LNK_FECFIX_LO", 0x0, 0x0, 0x0, 0x0, 0x0, 0x0, false⟩,
  ⟨0x34, 1, 0, "LNK_FECFIX_HI", 0x0, 0x0, 0x0, 0x0, 0x80000000, 0x0, false⟩,
  ⟨0x38, 1, 0, "LNK_BAD_LO", 0x0, 0x0, 0x0, 0x0, 0x0, 0x0, false⟩,
  ⟨0x3C, 1, 0, "LNK_BAD_HI", 0x0, 0x0, 0x0, 0x0, 0x80000000, 0x0, false⟩,
  ⟨0x40, 1, 0, "LNK_REPLAY_LO", 0x0, 0x0, 0x0, 0x0, 0x0, 0x0, false⟩,
  ⟨0x44, 1, 0, "LNK_REPLAY_HI", 0x0, 0x0, 0x0, 0x0, 0x80000000, 0x0, false⟩,
  ⟨0x48, 1, 0, "LNK_RETRAIN_LO", 0x0, 0x0, 0x0, 0x0, 0x0, 0x0, false⟩,
  ⟨0x4C, 1, 0, "LNK_RETRAIN_HI", 0x0, 0x0, 0x0, 0x0, 0x80000000, 0x0, false⟩,
  ⟨0x50, 1, 0, "LNK_REDSEG_LO", 0x0, 0x0, 0x0, 0x0, 0x0, 0x0, false⟩] ++
[
  ⟨0x54, 1, 0, "LNK_REDSEG_HI", 0x0, 0x0, 0x0, 0x0, 0x80000000, 0x0, false⟩,
  ⟨0x58, 1, 0, "LNK_SLOTWAIT_LO", 0x0, 0x0, 0x0, 0x0, 0x0, 0x0, false⟩,
  ⟨0x5C, 1, 0, "LNK_SLOTWAIT_HI", 0x0, 0x0, 0x0, 0x0, 0x80000000, 0x0, false⟩,
  ⟨0x200, 32, 4, "LNK_SLOT_s", 0x0, 0x0, 0x0, 0x0, 0x0, 0x0, false⟩]

/-- The map of R274. -/
def regsColl : List RegDef :=
 [
  ⟨0x100, 1, 0, "LNK_COLL_CTRL", 0x1000, 0x70000, 0xFFFF, 0x0, 0x0, 0x0, false⟩,
  ⟨0x104, 1, 0, "LNK_ABORT_DEV", 0x0, 0x0, 0x0, 0x0, 0x0, 0x0, false⟩,
  ⟨0x108, 1, 0, "LNK_ABORT_ID_LO", 0x0, 0x0, 0x0, 0x0, 0x0, 0x0, false⟩,
  ⟨0x10C, 1, 0, "LNK_ABORT_ID_HI", 0x0, 0x0, 0x0, 0x0, 0x0, 0x0, false⟩,
  ⟨0x110, 1, 0, "LNK_ABORTS_LO", 0x0, 0x0, 0x0, 0x0, 0x0, 0x0, false⟩,
  ⟨0x114, 1, 0, "LNK_ABORTS_HI", 0x0, 0x0, 0x0, 0x0, 0x80000000, 0x0, false⟩]

/-- The map of R310. -/
def regsEth3 : List RegDef :=
 [
  ⟨0x0, 1, 0, "ETH_BCP_ID", 0x81001, 0x0, 0x0, 0x0, 0x0, 0x0, false⟩,
  ⟨0x4, 1, 0, "ETH_BCP_STATUS", 0x0, 0x0, 0x0, 0x0, 0x1, 0x0, false⟩,
  ⟨0x8, 1, 0, "ETH_BCP_CTRL", 0x3BA5E, 0x0, 0x3FFFF, 0x0, 0x0, 0x0, false⟩,
  ⟨0xC, 1, 0, "ETH_BCP_GSEQ", 0x0, 0x0, 0x0, 0x0, 0x0, 0x0, false⟩,
  ⟨0x20, 1, 0, "ETH_BCP_CMDS_LO", 0x0, 0x0, 0x0, 0x0, 0x0, 0x0, false⟩,
  ⟨0x24, 1, 0, "ETH_BCP_CMDS_HI", 0x0, 0x0, 0x0, 0x0, 0x80000000, 0x0, false⟩,
  ⟨0x28, 1, 0, "ETH_BCP_AUTHFAIL_LO", 0x0, 0x0, 0x0, 0x0, 0x0, 0x0, false⟩,
  ⟨0x2C, 1, 0, "ETH_BCP_AUTHFAIL_HI", 0x0, 0x0, 0x0, 0x0, 0x80000000, 0x0, false⟩,
  ⟨0x30, 1, 0, "ETH_BCP_REPLAY_LO", 0x0, 0x0, 0x0, 0x0, 0x0, 0x0, false⟩,
  ⟨0x34, 1, 0, "ETH_BCP_REPLAY_HI", 0x0, 0x0, 0x0, 0x0, 0x80000000, 0x0, false⟩,
  ⟨0x38, 1, 0, "ETH_BCP_RETRY_LO", 0x0, 0x0, 0x0, 0x0, 0x0, 0x0, false⟩,
  ⟨0x3C, 1, 0, "ETH_BCP_RETRY_HI", 0x0, 0x0, 0x0, 0x0, 0x80000000, 0x0, false⟩,
  ⟨0x40, 1, 0, "ETH_BCP_DROP_LO", 0x0, 0x0, 0x0, 0x0, 0x0, 0x0, false⟩,
  ⟨0x44, 1, 0, "ETH_BCP_DROP_HI", 0x0, 0x0, 0x0, 0x0, 0x80000000, 0x0, false⟩,
  ⟨0x48, 1, 0, "ETH_BCP_DATA_LO", 0x0, 0x0, 0x0, 0x0, 0x0, 0x0, false⟩,
  ⟨0x4C, 1, 0, "ETH_BCP_DATA_HI", 0x0, 0x0, 0x0, 0x0, 0x80000000, 0x0, false⟩]

/-- The map of R331. -/
def regsEth0 : List RegDef :=
 [
  ⟨0x0, 1, 0, "ETH_ID", 0x401008, 0x0, 0x0, 0x0, 0x0, 0x0, false⟩,
  ⟨0x4, 1, 0, "ETH_STATUS", 0x0, 0x0, 0x0, 0x0, 0x11, 0x0, false⟩,
  ⟨0x8, 1, 0, "ETH_CTRL", 0x10002400, 0x0, 0x0, 0x1FFF7FFF, 0x0, 0x0, false⟩,
  ⟨0xC, 1, 0, "ETH_PRIO", 0x18011A, 0x0, 0x0, 0xFF01FF, 0x0, 0x0, false⟩,
  ⟨0x10, 1, 0, "ETH_DSCP", 0x1A1810, 0x0, 0x0, 0x3F3F3F, 0x0, 0x0, false⟩,
  ⟨0x14, 1, 0, "ETH_MAC_LO", 0, 0x0, 0x0, 0xFFFFFFFF, 0x0, 0x0, true⟩,
  ⟨0x18, 1, 0, "ETH_MAC_HI", 0, 0x0, 0x0, 0xFFFF, 0x0, 0x0, true⟩,
  ⟨0x1C, 1, 0, "ETH_NH_MAC_LO", 0, 0x0, 0x0, 0xFFFFFFFF, 0x0, 0x0, true⟩,
  ⟨0x20, 1, 0, "ETH_NH_MAC_HI", 0, 0x0, 0x0, 0xFFFF, 0x0, 0x0, true⟩,
  ⟨0x24, 1, 0, "ETH_IPV4", 0, 0x0, 0x0, 0xFFFFFFFF, 0x0, 0x0, true⟩,
  ⟨0x30, 4, 4, "ETH_IPV6_i", 0, 0x0, 0x0, 0xFFFFFFFF, 0x0, 0x0, true⟩,
  ⟨0x40, 1, 0, "ETH_TXF_LO", 0x0, 0x0, 0x0, 0x0, 0x0, 0x0, false⟩,
  ⟨0x44, 1, 0, "ETH_TXF_HI", 0x0, 0x0, 0x0, 0x0, 0x80000000, 0x0, false⟩,
  ⟨0x48, 1, 0, "ETH_RXF_LO", 0x0, 0x0, 0x0, 0x0, 0x0, 0x0, false⟩,
  ⟨0x4C, 1, 0, "ETH_RXF_HI", 0x0, 0x0, 0x0, 0x0, 0x80000000, 0x0, false⟩,
  ⟨0x50, 1, 0, "ETH_DROP_LO", 0x0, 0x0, 0x0, 0x0, 0x0, 0x0, false⟩,
  ⟨0x54, 1, 0, "ETH_DROP_HI", 0x0, 0x0, 0x0, 0x0, 0x80000000, 0x0, false⟩,
  ⟨0x58, 1, 0, "ETH_PFCRX_LO", 0x0, 0x0, 0x0, 0x0, 0x0, 0x0, false⟩,
  ⟨0x5C, 1, 0, "ETH_PFCRX_HI", 0x0, 0x0, 0x0, 0x0, 0x80000000, 0x0, false⟩,
  ⟨0x60, 1, 0, "ETH_PFCTX_LO", 0x0, 0x0, 0x0, 0x0, 0x0, 0x0, false⟩] ++
[
  ⟨0x64, 1, 0, "ETH_PFCTX_HI", 0x0, 0x0, 0x0, 0x0, 0x80000000, 0x0, false⟩]

/-- The map of R332. -/
def regsEth1 : List RegDef :=
 [
  ⟨0x0, 1, 0, "ETH_RC_STATUS", 0x0, 0x0, 0x0, 0x0, 0x101, 0x0, false⟩,
  ⟨0x4, 1, 0, "ETH_RC_CTRL", 0x547E6, 0x0, 0xFFFFFF, 0x0, 0x0, 0x0, false⟩,
  ⟨0x20, 1, 0, "ETH_RC_WRITES_LO", 0x0, 0x0, 0x0, 0x0, 0x0, 0x0, false⟩,
  ⟨0x24, 1, 0, "ETH_RC_WRITES_HI", 0x0, 0x0, 0x0, 0x0, 0x80000000, 0x0, false⟩,
  ⟨0x28, 1, 0, "ETH_RC_RECORDS_LO", 0x0, 0x0, 0x0, 0x0, 0x0, 0x0, false⟩,
  ⟨0x2C, 1, 0, "ETH_RC_RECORDS_HI", 0x0, 0x0, 0x0, 0x0, 0x80000000, 0x0, false⟩,
  ⟨0x30, 1, 0, "ETH_RC_RETX_LO", 0x0, 0x0, 0x0, 0x0, 0x0, 0x0, false⟩,
  ⟨0x34, 1, 0, "ETH_RC_RETX_HI", 0x0, 0x0, 0x0, 0x0, 0x80000000, 0x0, false⟩,
  ⟨0x38, 1, 0, "ETH_RC_NAK_LO", 0x0, 0x0, 0x0, 0x0, 0x0, 0x0, false⟩,
  ⟨0x3C, 1, 0, "ETH_RC_NAK_HI", 0x0, 0x0, 0x0, 0x0, 0x80000000, 0x0, false⟩,
  ⟨0x40, 1, 0, "ETH_RC_CNP_LO", 0x0, 0x0, 0x0, 0x0, 0x0, 0x0, false⟩,
  ⟨0x44, 1, 0, "ETH_RC_CNP_HI", 0x0, 0x0, 0x0, 0x0, 0x80000000, 0x0, false⟩]

/-- The map of R362. -/
def regsPwr0 : List RegDef :=
 [
  ⟨0x0, 1, 0, "PWR_ID", 0x430930, 0x0, 0x0, 0x0, 0x0, 0x0, false⟩,
  ⟨0x4, 1, 0, "PWR_STATUS", 0x0, 0x0, 0x0, 0x0, 0x1, 0x0, false⟩,
  ⟨0x8, 1, 0, "PWR_CTRL", 0x28640C, 0x0, 0xFFFF0F, 0x0, 0x0, 0x0, false⟩,
  ⟨0xC, 1, 0, "PWR_SUSTAIN", 0x4B0, 0x0, 0x7FF, 0x0, 0x0, 0x0, false⟩,
  ⟨0x10, 1, 0, "PWR_SHARE", 0x4B004B0, 0x0, 0x0, 0x0, 0x0, 0x0, false⟩,
  ⟨0x14, 1, 0, "PWR_UNCORE", 0x122, 0x0, 0x7FF, 0x0, 0x0, 0x0, false⟩,
  ⟨0x18, 1, 0, "PWR_CAL", 0x400, 0x0, 0xFFF, 0x0, 0x0, 0x0, false⟩,
  ⟨0x1C, 1, 0, "PWR_BURST", 0x640064, 0x0, 0xFF, 0x0, 0x0, 0x0, false⟩,
  ⟨0x20, 1, 0, "PWR_LIMIT", 0x578, 0x0, 0x0, 0x0, 0x0, 0x0, false⟩,
  ⟨0x24, 1, 0, "PWR_MEAS", 0x0, 0x0, 0x0, 0x0, 0x0, 0x0, false⟩,
  ⟨0x28, 1, 0, "PWR_OPP", 0x72EE960, 0x0, 0x0, 0x0, 0x0, 0x0, false⟩,
  ⟨0x2C, 1, 0, "PWR_VTRIM", 0x0, 0x0, 0x0, 0x0, 0x0, 0x0, false⟩,
  ⟨0x30, 1, 0, "PWR_TJ", 0x0, 0x0, 0x0, 0x0, 0x0, 0x0, false⟩,
  ⟨0x34, 1, 0, "PWR_REASON", 0x0, 0x0, 0x0, 0x0, 0x7F0000, 0x0, false⟩,
  ⟨0x38, 1, 0, "PWR_QUEUE", 0x0, 0x0, 0x0, 0x0, 0x0, 0x0, false⟩,
  ⟨0x3C, 1, 0, "PWR_GANDER", 0, 0x0, 0x0, 0x0, 0x0, 0x0, false⟩,
  ⟨0x40, 5, 4, "PWR_GRANT_i", 0x0, 0x0, 0x0, 0x0, 0x0, 0x0, false⟩,
  ⟨0x80, 7, 8, "PWR_T_r_LO", 0x0, 0x0, 0x0, 0x0, 0x0, 0x0, false⟩,
  ⟨0x84, 7, 8, "PWR_T_r_HI", 0x0, 0x0, 0x0, 0x0, 0x0, 0x0, false⟩]

/-- The map of R363. -/
def regsPwr1 : List RegDef :=
 [
  ⟨0x0, 1, 0, "PWR_E_TOTAL_LO", 0x0, 0x0, 0x0, 0x0, 0x0, 0x0, false⟩,
  ⟨0x4, 1, 0, "PWR_E_TOTAL_HI", 0x0, 0x0, 0x0, 0x0, 0x0, 0x0, false⟩,
  ⟨0x8, 1, 0, "PWR_E_CORE_LO", 0x0, 0x0, 0x0, 0x0, 0x0, 0x0, false⟩,
  ⟨0xC, 1, 0, "PWR_E_CORE_HI", 0x0, 0x0, 0x0, 0x0, 0x0, 0x0, false⟩,
  ⟨0x10, 1, 0, "PWR_E_SRAM_LO", 0x0, 0x0, 0x0, 0x0, 0x0, 0x0, false⟩,
  ⟨0x14, 1, 0, "PWR_E_SRAM_HI", 0x0, 0x0, 0x0, 0x0, 0x0, 0x0, false⟩,
  ⟨0x18, 1, 0, "PWR_E_LPDDR_LO", 0x0, 0x0, 0x0, 0x0, 0x0, 0x0, false⟩,
  ⟨0x1C, 1, 0, "PWR_E_LPDDR_HI", 0x0, 0x0, 0x0, 0x0, 0x0, 0x0, false⟩,
  ⟨0x20, 1, 0, "PWR_E_LINK_LO", 0x0, 0x0, 0x0, 0x0, 0x0, 0x0, false⟩,
  ⟨0x24, 1, 0, "PWR_E_LINK_HI", 0x0, 0x0, 0x0, 0x0, 0x0, 0x0, false⟩,
  ⟨0x28, 1, 0, "PWR_E_ETH_LO", 0x0, 0x0, 0x0, 0x0, 0x0, 0x0, false⟩,
  ⟨0x2C, 1, 0, "PWR_E_ETH_HI", 0x0, 0x0, 0x0, 0x0, 0x0, 0x0, false⟩,
  ⟨0x30, 1, 0, "PWR_E_MGMT_LO", 0x0, 0x0, 0x0, 0x0, 0x0, 0x0, false⟩,
  ⟨0x34, 1, 0, "PWR_E_MGMT_HI", 0x0, 0x0, 0x0, 0x0, 0x0, 0x0, false⟩,
  ⟨0x40, 4, 8, "PWR_E_CLASSn_LO", 0x0, 0x0, 0x0, 0x0, 0x0, 0x0, false⟩,
  ⟨0x44, 4, 8, "PWR_E_CLASSn_HI", 0x0, 0x0, 0x0, 0x0, 0x0, 0x0, false⟩,
  ⟨0x60, 1, 0, "PWR_E_IDLE_LO", 0x0, 0x0, 0x0, 0x0, 0x0, 0x0, false⟩,
  ⟨0x64, 1, 0, "PWR_E_IDLE_HI", 0x0, 0x0, 0x0, 0x0, 0x0, 0x0, false⟩]

/-- The map of R388. -/
def regsErr : List RegDef :=
 [
  ⟨0x0, 1, 0, "ERR_ID", 0x4004710, 0x0, 0x0, 0x0, 0x0, 0x0, false⟩,
  ⟨0x4, 1, 0, "ERR_STATUS", 0x0, 0x0, 0x0, 0x0, 0x5, 0x0, false⟩,
  ⟨0x8, 1, 0, "ERR_CTRL", 0x14005, 0x0, 0xFFFF07, 0x0, 0x0, 0x0, false⟩,
  ⟨0x10, 1, 0, "ERR_NEWEST_LO", 0x0, 0x0, 0x0, 0x0, 0x0, 0x0, false⟩,
  ⟨0x14, 1, 0, "ERR_NEWEST_HI", 0x0, 0x0, 0x0, 0x0, 0x0, 0x0, false⟩,
  ⟨0x18, 1, 0, "ERR_ACKED_LO", 0x0, 0x0, 0x0, 0x0, 0x0, 0x0, false⟩,
  ⟨0x1C, 1, 0, "ERR_ACKED_HI", 0x0, 0x0, 0x0, 0x0, 0x0, 0x0, false⟩,
  ⟨0x20, 1, 0, "ERR_FENCE_CORE_LO", 0x0, 0x0, 0x0, 0x0, 0x0, 0x0, false⟩,
  ⟨0x24, 1, 0, "ERR_FENCE_CORE_HI", 0x0, 0x0, 0x0, 0x0, 0x0, 0x0, false⟩,
  ⟨0x28, 1, 0, "ERR_FENCE_MISC", 0x0, 0x0, 0x0, 0x0, 0x0, 0x0, false⟩,
  ⟨0x40, 1, 0, "ERR_RECORDS_LO", 0x0, 0x0, 0x0, 0x0, 0x0, 0x0, false⟩,
  ⟨0x44, 1, 0, "ERR_RECORDS_HI", 0x0, 0x0, 0x0, 0x0, 0x80000000, 0x0, false⟩,
  ⟨0x48, 1, 0, "ERR_COALESCED_LO", 0x0, 0x0, 0x0, 0x0, 0x0, 0x0, false⟩,
  ⟨0x4C, 1, 0, "ERR_COALESCED_HI", 0x0, 0x0, 0x0, 0x0, 0x80000000, 0x0, false⟩,
  ⟨0x50, 1, 0, "ERR_LOST_LO", 0x0, 0x0, 0x0, 0x0, 0x0, 0x0, false⟩,
  ⟨0x54, 1, 0, "ERR_LOST_HI", 0x0, 0x0, 0x0, 0x0, 0x80000000, 0x0, false⟩,
  ⟨0x58, 1, 0, "ERR_FWD_LO", 0x0, 0x0, 0x0, 0x0, 0x0, 0x0, false⟩,
  ⟨0x5C, 1, 0, "ERR_FWD_HI", 0x0, 0x0, 0x0, 0x0, 0x80000000, 0x0, false⟩,
  ⟨0x60, 1, 0, "ERR_RETRY_LO", 0x0, 0x0, 0x0, 0x0, 0x0, 0x0, false⟩,
  ⟨0x64, 1, 0, "ERR_RETRY_HI", 0x0, 0x0, 0x0, 0x0, 0x80000000, 0x0, false⟩] ++
[
  ⟨0x68, 1, 0, "ERR_REEXEC_LO", 0x0, 0x0, 0x0, 0x0, 0x0, 0x0, false⟩,
  ⟨0x6C, 1, 0, "ERR_REEXEC_HI", 0x0, 0x0, 0x0, 0x0, 0x80000000, 0x0, false⟩,
  ⟨0x70, 1, 0, "ERR_FAILED_LO", 0x0, 0x0, 0x0, 0x0, 0x0, 0x0, false⟩,
  ⟨0x74, 1, 0, "ERR_FAILED_HI", 0x0, 0x0, 0x0, 0x0, 0x80000000, 0x0, false⟩,
  ⟨0x78, 1, 0, "ERR_ESCAL_LO", 0x0, 0x0, 0x0, 0x0, 0x0, 0x0, false⟩,
  ⟨0x7C, 1, 0, "ERR_ESCAL_HI", 0x0, 0x0, 0x0, 0x0, 0x80000000, 0x0, false⟩]

/-- The map of R413. -/
def regsSec : List RegDef :=
 [
  ⟨0x0, 1, 0, "SEC_ID", 0x840F0A, 0x0, 0x0, 0x0, 0x0, 0x0, false⟩,
  ⟨0x4, 1, 0, "SEC_STATUS", 0x0, 0x0, 0x0, 0x0, 0x1, 0x0, false⟩,
  ⟨0x8, 1, 0, "SEC_CTRL", 0x704, 0x0, 0xFFFF, 0x0, 0x0, 0x0, false⟩,
  ⟨0xC, 1, 0, "SEC_HSS_TOP", 0, 0x0, 0x0, 0x0, 0x0, 0x0, false⟩,
  ⟨0x10, 1, 0, "SEC_HSS_LOW", 0x0, 0x0, 0x0, 0x0, 0x0, 0x0, false⟩,
  ⟨0x14, 1, 0, "SEC_FW", 0, 0x0, 0x0, 0x0, 0x0, 0x0, false⟩,
  ⟨0x18, 1, 0, "SEC_OWNER", 0, 0x0, 0x0, 0x0, 0x0, 0x0, false⟩,
  ⟨0x1C, 1, 0, "SEC_DBG_FAILS", 0x0, 0x0, 0x0, 0x0, 0x0, 0x0, false⟩,
  ⟨0x20, 1, 0, "SEC_ATTEST_LO", 0x0, 0x0, 0x0, 0x0, 0x0, 0x0, false⟩,
  ⟨0x24, 1, 0, "SEC_ATTEST_HI", 0x0, 0x0, 0x0, 0x0, 0x80000000, 0x0, false⟩,
  ⟨0x28, 1, 0, "SEC_UNLOCK_LO", 0x0, 0x0, 0x0, 0x0, 0x0, 0x0, false⟩,
  ⟨0x2C, 1, 0, "SEC_UNLOCK_HI", 0x0, 0x0, 0x0, 0x0, 0x80000000, 0x0, false⟩]

/-- The map of R439. -/
def regsAon : List RegDef :=
 [
  ⟨0x0, 1, 0, "AON_ID", 0, 0x0, 0x0, 0x0, 0x0, 0x0, false⟩,
  ⟨0x4, 1, 0, "AON_STATUS", 0x0, 0x0, 0x0, 0x0, 0x21, 0x0, false⟩,
  ⟨0x8, 1, 0, "AON_STRAP", 0, 0x0, 0x0, 0x0, 0x0, 0x0, false⟩,
  ⟨0xC, 1, 0, "AON_RESETS", 0x0, 0x0, 0x0, 0x0, 0x0, 0x0, false⟩,
  ⟨0x10, 1, 0, "AON_CLK_LO", 0x0, 0x0, 0x0, 0x0, 0x0, 0x0, false⟩,
  ⟨0x14, 1, 0, "AON_CLK_HI", 0x0, 0x0, 0x0, 0x0, 0x0, 0x0, false⟩,
  ⟨0x18, 1, 0, "AON_DETAIL", 0x0, 0x0, 0x0, 0x0, 0x0, 0x0, false⟩,
  ⟨0x1C, 1, 0, "AON_GROUP", 0x0, 0x0, 0x0, 0x0, 0x0, 0x0, false⟩,
  ⟨0x20, 4, 4, "AON_UID_i", 0, 0x0, 0x0, 0x0, 0x0, 0x0, false⟩]

end Sys2Proof.Machine
end

