-- ==== Sys2Proof/Machine/Sparse.lean ====
section
/-! DEFINITION. Sparse tables: lists of (key, value) pairs in one canonical form, keys strictly rising and no
entry equal to what an unlisted key reads as. Memory, check bits, registers and statistics are held so. -/

namespace Sys2Proof.Machine

/-- What key `k` reads as; an unlisted key reads as `d`. -/
def sget {β : Type} (d : β) : List (Nat × β) → Nat → β
  | [], _ => d
  | (a, b) :: t, k => if a = k then b else sget d t k

/-- The table after `v` is written at `k`; writing `d` removes the entry. -/
def sset {β : Type} [DecidableEq β] (d : β) : List (Nat × β) → Nat → β → List (Nat × β)
  | [], k, v => if v = d then [] else [(k, v)]
  | (a, b) :: t, k, v =>
    if k < a then (if v = d then (a, b) :: t else (k, v) :: (a, b) :: t)
    else if k = a then (if v = d then t else (k, v) :: t)
    else (a, b) :: sset d t k v

/-- Every key of a table is at or above `lo`, the keys rise strictly and no value is `d`. -/
def swfFrom {β : Type} [DecidableEq β] (d : β) : Nat → List (Nat × β) → Bool
  | _, [] => true
  | lo, (a, b) :: t => decide (lo ≤ a) && decide (b ≠ d) && swfFrom d (a + 1) t

/-- The canonical form of a table. -/
def swf {β : Type} [DecidableEq β] (d : β) (t : List (Nat × β)) : Bool := swfFrom d 0 t

/-- The table without the keys that `p` picks. -/
def sdrop {β : Type} (p : Nat → Bool) : List (Nat × β) → List (Nat × β)
  | [] => []
  | (a, b) :: t => if p a then sdrop p t else (a, b) :: sdrop p t

/-- Write the values `vs` at `k`, `k + step`, … -/
def ssetMany {β : Type} [DecidableEq β] (d : β) (t : List (Nat × β)) (step : Nat) : Nat → List β → List (Nat × β)
  | _, [] => t
  | k, v :: vs => ssetMany d (sset d t k v) step (k + step) vs

end Sys2Proof.Machine
end

