-- ==== Sys2Proof/Machine/Float.lean ====
section
/-! DEFINITION. Exact values of the element formats, their exact sums and products, and the one rounding that follows
(R65 to R67, R69, R80, R81, R83, R84). -/

namespace Sys2Proof.Machine

/-- An exact value: a NaN, an infinity, or (−1)^neg · man · 2^exp. -/
inductive FVal where
  | nan
  | inf (neg : Bool)
  | fin (neg : Bool) (man : Nat) (exp : Int)
deriving DecidableEq, Repr

/-- The element formats of R65, with FP32 at 8 and INT32 at 9. -/
inductive Elem where
  | int8 | int4 | e4m3 | e5m2 | e2m1 | raw8 | bf16 | fp16 | fp32 | int32
deriving DecidableEq, Repr

/-- `ELEM` of a format code (R65). -/
def Elem.ofCode : Nat → Option Elem
  | 0 => some .int8
  | 1 => some .int4
  | 2 => some .e4m3
  | 3 => some .e5m2
  | 4 => some .e2m1
  | 5 => some .raw8
  | 6 => some .bf16
  | 7 => some .fp16
  | 8 => some .fp32
  | 9 => some .int32
  | _ => none

/-- Width in bits of an element (R65). -/
def Elem.width : Elem → Nat
  | .int8 => 8 | .int4 => 4 | .e4m3 => 8 | .e5m2 => 8 | .e2m1 => 4 | .raw8 => 8
  | .bf16 => 16 | .fp16 => 16 | .fp32 => 32 | .int32 => 32

/-- The format is floating-point (R66). -/
def Elem.isFloat : Elem → Bool
  | .e4m3 | .e5m2 | .e2m1 | .bf16 | .fp16 | .fp32 => true
  | _ => false

/-- The format is an integer operand format of the arrays (R67). -/
def Elem.isInt : Elem → Bool
  | .int8 | .int4 | .int32 => true
  | _ => false

/-- Whether the array takes the format as an operand (R65). -/
def Elem.arrayOperand : Elem → Bool
  | .int8 | .int4 | .e4m3 | .e5m2 | .e2m1 | .raw8 => true
  | _ => false

/-- Whether a conversion may write the format (R65). -/
def Elem.convOutput : Elem → Bool
  | .int8 | .e4m3 | .e5m2 | .bf16 | .fp16 | .fp32 | .int32 => true
  | _ => false

/-- Whether the vector engine loads and stores the format (R65). -/
def Elem.vecPort : Elem → Bool
  | .int8 | .e4m3 | .e5m2 | .raw8 | .bf16 | .fp16 | .fp32 | .int32 => true
  | _ => false

/-- `BLOCK` of a format code: the MX block size, 0 for none (R65). -/
def blockSize (code : Nat) : Nat :=
  match field code 4 3 with
  | 1 => 8 | 2 => 16 | 3 => 32 | 4 => 64 | 5 => 128
  | _ => 0

/-- `DIR` of a format code: the scale is shared along M or N (R65). -/
def blockDir (code : Nat) : Bool := bitOf code 7

/-- The code holds no reserved value and no invalid combination (R65). -/
def fmtValid (code : Nat) : Bool :=
  (Elem.ofCode (field code 0 4)).isSome && decide (field code 4 3 ≤ 5) &&
    !(blockDir code && field code 4 3 == 0) && decide (code < 256)

/-- The signed mantissa of a finite value at exponent `e` (at most its own). -/
def manAt (neg : Bool) (man : Nat) (exp e : Int) : Int :=
  let k : Int := (man * 2 ^ (exp - e).toNat : Nat)
  if neg then -k else k

/-- The exact sum, with the zero signs of round to nearest even (R84). -/
def FVal.add : FVal → FVal → FVal
  | .nan, _ => .nan
  | _, .nan => .nan
  | .inf a, .inf b => if a = b then .inf a else .nan
  | .inf a, .fin .. => .inf a
  | .fin .., .inf b => .inf b
  | .fin a m e, .fin b n f =>
    let g := if e ≤ f then e else f
    let k := manAt a m e g + manAt b n f g
    if k = 0 then .fin (a && b) 0 g else .fin (decide (k < 0)) k.natAbs g

/-- The exact product. -/
def FVal.mul : FVal → FVal → FVal
  | .nan, _ => .nan
  | _, .nan => .nan
  | .inf a, .inf b => .inf (a != b)
  | .inf a, .fin b n _ => if n = 0 then .nan else .inf (a != b)
  | .fin a m _, .inf b => if m = 0 then .nan else .inf (a != b)
  | .fin a m e, .fin b n f => .fin (a != b) (m * n) (e + f)

/-- The value with its sign inverted. -/
def FVal.neg : FVal → FVal
  | .nan => .nan
  | .inf a => .inf !a
  | .fin a m e => .fin (!a) m e

/-- The magnitude. -/
def FVal.abs : FVal → FVal
  | .nan => .nan
  | .inf _ => .inf false
  | .fin _ m e => .fin false m e

/-- The exact difference. -/
def FVal.sub (a b : FVal) : FVal := a.add b.neg

/-- The value times 2^k. -/
def FVal.scale (k : Int) : FVal → FVal
  | .fin a m e => .fin a m (e + k)
  | v => v

/-- Positive zero. -/
def FVal.zero : FVal := .fin false 0 0

/-- The exact value of an integer. -/
def FVal.ofInt (i : Int) : FVal := .fin (decide (i < 0)) i.natAbs 0

/-- Exact comparison a > b; false with a NaN; zeros compare equal (R48, R128). -/
def FVal.gt : FVal → FVal → Bool
  | .nan, _ => false
  | _, .nan => false
  | .inf a, .inf b => !a && b
  | .inf a, .fin .. => !a
  | .fin .., .inf b => b
  | .fin a m e, .fin b n f =>
    let g := if e ≤ f then e else f
    decide (manAt a m e g > manAt b n f g)

/-- Exact equality; false with a NaN; zeros compare equal. -/
def FVal.eqv (a b : FVal) : Bool :=
  a ≠ .nan && b ≠ .nan && !a.gt b && !b.gt a

/-- The sign bit of a value (a NaN is positive, R84). -/
def FVal.sign : FVal → Bool
  | .nan => false
  | .inf a => a
  | .fin a _ _ => a

/-- a is above b in the order of MAX and MIN, −0 below +0 (R48, R128); neither is NaN. -/
def FVal.above (a b : FVal) : Bool := a.gt b || (!b.gt a && !a.sign && b.sign)

/-- The exponent of the quantum of a grid of `p` significant bits, at or above `qmin` when one is given. -/
def quantum (p : Nat) (qmin : Option Int) (man : Nat) (exp : Int) : Int :=
  let q : Int := exp + (Nat.log2 man + 1 : Nat) - (p : Int)
  match qmin with
  | none => q
  | some z => if q < z then z else q

/-- man · 2^exp in units of 2^q, rounded to nearest even, or toward zero when `rtz`. -/
def roundUnits (rtz : Bool) (man : Nat) (exp q : Int) : Nat :=
  if q ≤ exp then man * 2 ^ (exp - q).toNat
  else
    let d := 2 ^ (q - exp).toNat
    let t := man / d
    let r := man % d
    if rtz || 2 * r < d then t
    else if 2 * r > d then t + 1
    else t + t % 2

/-- A format with exponent and mantissa fields (R66). -/
structure FloatFmt where
  ebits : Nat
  mbits : Nat
  bias : Nat
deriving DecidableEq, Repr

/-- The fields of a floating-point element format (R66). -/
def Elem.fmt : Elem → FloatFmt
  | .e4m3 => ⟨4, 3, 7⟩
  | .e5m2 => ⟨5, 2, 15⟩
  | .e2m1 => ⟨2, 1, 1⟩
  | .fp16 => ⟨5, 10, 15⟩
  | .bf16 => ⟨8, 7, 127⟩
  | _ => ⟨8, 23, 127⟩

/-- The exact value of a code of a format (R66, R67); a raw byte reads as its unsigned value (R130). -/
def Elem.decode (el : Elem) (code : Nat) : FVal :=
  match el with
  | .int8 => .ofInt (signed 8 code)
  | .int4 => .ofInt (signed 4 code)
  | .int32 => .ofInt (signed 32 code)
  | .raw8 => .fin false (code % 256) 0
  | _ =>
    let f := el.fmt
    let s := bitOf code (f.ebits + f.mbits)
    let ex := field code f.mbits f.ebits
    let m := field code 0 f.mbits
    let top := 2 ^ f.ebits - 1
    let special : Bool :=
      match el with
      | .e2m1 => false
      | .e4m3 => ex == top && m == 7
      | _ => ex == top
    if special then (if m = 0 then .inf s else .nan)
    else if ex = 0 then .fin s m (1 - (f.bias : Int) - f.mbits)
    else .fin s (2 ^ f.mbits + m) ((ex : Int) - f.bias - f.mbits)

/-- The code of ± n · 2^q, a value on the grid of the format. -/
def FloatFmt.encode (f : FloatFmt) (neg : Bool) (n : Nat) (q : Int) : Nat :=
  let sgn := b01 neg * 2 ^ (f.ebits + f.mbits)
  if n = 0 then sgn
  else
    let lg := Nat.log2 n
    let e : Int := q + lg
    let emin : Int := 1 - (f.bias : Int)
    if e < emin then sgn + (n * 2 ^ (q - (emin - f.mbits)).toNat)
    else
      let m := if lg ≤ f.mbits then n * 2 ^ (f.mbits - lg) else n / 2 ^ (lg - f.mbits)
      sgn + ((e + f.bias).toNat * 2 ^ f.mbits + (m - 2 ^ f.mbits))

/-- The canonical NaN of FP32 (R83). -/
def nan32 : Word := 0x7FC00000#32

/-- The code of an infinity of a format of IEEE form. -/
def FloatFmt.infCode (f : FloatFmt) (neg : Bool) : Nat :=
  b01 neg * 2 ^ (f.ebits + f.mbits) + (2 ^ f.ebits - 1) * 2 ^ f.mbits

/-- Rounding to FP32, BF16 or FP16 (R81, R83): one rounding; FP32 and BF16 results whose rounded magnitude lies below 2⁻¹²⁶
are flushed with the sign kept, FP16 keeps subnormals. -/
def roundIeee (f : FloatFmt) (flush rtz : Bool) : FVal → Nat
  | .nan => f.infCode false + 2 ^ (f.mbits - 1)
  | .inf s => f.infCode s
  | .fin s m e =>
    if m = 0 then b01 s * 2 ^ (f.ebits + f.mbits)
    else
      let emin : Int := 1 - (f.bias : Int)
      let qmin := if flush then none else some (emin - f.mbits)
      let q := quantum (f.mbits + 1) qmin m e
      let n := roundUnits rtz m e q
      if n = 0 then b01 s * 2 ^ (f.ebits + f.mbits)
      else
        let top : Int := q + (Nat.log2 n : Nat)
        if top > (f.bias : Int) then (if rtz then f.infCode s - 1 else f.infCode s)
        else if flush && top < emin then b01 s * 2 ^ (f.ebits + f.mbits)
        else f.encode s n q

/-- Rounding to FP32 to nearest even (R83). -/
def round32 (v : FVal) : Word := BitVec.ofNat 32 (roundIeee ⟨8, 23, 127⟩ true false v)

/-- The exact value of an FP32 word. -/
def val32 (w : Word) : FVal := Elem.decode .fp32 w.toNat

/-- Rounding to FP8: the range test applies after rounding (R81). -/
def roundFp8 (e5 rtz : Bool) (v : FVal) : Nat :=
  let f : FloatFmt := if e5 then ⟨5, 2, 15⟩ else ⟨4, 3, 7⟩
  let big := if e5 then 0x7B else 0x7E
  match v with
  | .nan => if e5 then 0x7E else 0x7F
  | .inf s => b01 s * 128 + (if e5 then 0x7C else 0x7E)
  | .fin s m e =>
    if m = 0 then b01 s * 128
    else
      let emin : Int := 1 - (f.bias : Int)
      let q := quantum (f.mbits + 1) (some (emin - f.mbits)) m e
      let n := roundUnits rtz m e q
      if (FVal.fin false n q).gt (Elem.decode (if e5 then .e5m2 else .e4m3) big) then b01 s * 128 + big
      else f.encode s n q

/-- Rounding to FP4 E2M1 with saturation at ±6 (R141). -/
def roundFp4 (v : FVal) : Nat :=
  match v with
  | .nan => 0x7
  | .inf s => b01 s * 8 + 7
  | .fin s m e =>
    if m = 0 then b01 s * 8
    else
      let q := quantum 2 (some (-1)) m e
      let n := roundUnits false m e q
      if (FVal.fin false n q).gt (.fin false 6 0) then b01 s * 8 + 7
      else FloatFmt.encode ⟨2, 1, 1⟩ s n q

/-- Rounding to a `w`-bit integer with saturation; NaN gives 0 (R81). -/
def roundIntSat (w : Nat) (rtz : Bool) (v : FVal) : Nat :=
  match v with
  | .nan => 0
  | .inf s => if s then 2 ^ (w - 1) else 2 ^ (w - 1) - 1
  | .fin s m e =>
    let n := roundUnits rtz m e 0
    let k : Int := if s then -(n : Int) else n
    let lo : Int := -((2 ^ (w - 1) : Nat) : Int)
    let hi : Int := ((2 ^ (w - 1) : Nat) : Int) - 1
    unsignedOf w (if k < lo then lo else if k > hi then hi else k)

/-- A value rounded to an output element format (R81). -/
def Elem.encode (el : Elem) (rtz : Bool) (v : FVal) : Nat :=
  match el with
  | .fp32 => roundIeee ⟨8, 23, 127⟩ true rtz v
  | .bf16 => roundIeee ⟨8, 7, 127⟩ true rtz v
  | .fp16 => roundIeee ⟨5, 10, 15⟩ false rtz v
  | .e4m3 => roundFp8 false rtz v
  | .e5m2 => roundFp8 true rtz v
  | .e2m1 => roundFp4 v
  | .int8 => roundIntSat 8 rtz v
  | .int4 => roundIntSat 4 rtz v
  | .int32 => roundIntSat 32 rtz v
  | .raw8 => roundIntSat 8 rtz v % 256

/-- The E8M0 scale byte as an exponent; the NaN scale 0xFF has none (R69). -/
def e8m0 (b : Nat) : Option Int := if b = 255 then none else some ((b : Int) - 127)

end Sys2Proof.Machine
end

