-- ==== Sys2Proof/Machine/Program.lean ====
section
/-! DEFINITION. The records of an image: tile programs (R85 to R92, R111, R116, R132, R175, R201), chain programs (R124, R125)
and block lists (R177, R178), and their reading from bytes. -/

namespace Sys2Proof.Machine

/-- A tensor record (R87). -/
structure Tensor where
  tier : Nat
  fmt : Nat
  role : Nat
  bind : Nat
  offset : Nat
  align : Nat
  len : Nat
  rows : Nat
  rowBytes : Nat
  rowStride : Nat
  elems : Nat
deriving DecidableEq, Repr

/-- A loop record (R88): `kind` 0 G, 1 N, 2 MG, 3 K, 4 MI. -/
structure LoopRec where
  kind : Nat
  flags : Nat
  src : Nat
  countT : Nat
  extent : Nat
  step : Nat
deriving DecidableEq, Repr

/-- The loop is enumerated by the dispenser (R88). -/
def LoopRec.dispensed (l : LoopRec) : Bool := bitOf l.flags 0
/-- The loop runs over key positions (R88). -/
def LoopRec.keys (l : LoopRec) : Bool := bitOf l.flags 1
/-- Key blocks above the diagonal are skipped (R88). -/
def LoopRec.causal (l : LoopRec) : Bool := bitOf l.flags 2

/-- A conversion word (R79). -/
structure ConvWord where
  outFmt : Nat
  src : Nat
  scaleMode : Nat
  biasMode : Nat
  clipEn : Bool
  rmode : Bool
  reserved : Nat
  scale : Nat
  bias : Nat
  clipLo : Nat
  clipHi : Nat
deriving DecidableEq, Repr

/-- The payload of an operation record. -/
inductive OpBody where
  | pass (unit op : Nat) (sparse : Bool) (afmt wfmt : Nat) (bitmap init : Bool) (passes slotBase rowsM1 aT wT maskT mapT
      aKstep wKstep wNstep wGstep : Nat)
  | conv (unit dstT dstNstep : Nat) (w : ConvWord)
  | stream (persist : Bool) (srcT dstT idxT mapT doneBar stepLoop tagCnt blOff srcStep dstStep : Nat)
  | mule (muleOp srcT dstT doneBar stepLoop arg srcStep dstStep : Nat)
  | chain (unit : Nat) (defer mean : Bool) (idx inT outT aux0 aux1 aux2 slot2 : Nat) (slot2En : Bool) (s2 : Nat) (w : ConvWord)
  | wait (bar : Nat) (acq credit : Bool) (step parts cmax : Nat)
  | signal (bar : Nat)
  | gmm (group pieces : Nat) (kxor : Bool) (srcT gatherT pieceK pieceBytes stageT : Nat)
  | mrs (group pieces dstT pieceN : Nat) (w : ConvWord)
  | bad (opc : Nat)
deriving DecidableEq, Repr

/-- An operation record (R89). -/
structure OpRec where
  thread : Nat
  level : Nat
  body : OpBody
deriving DecidableEq, Repr

/-- A tile program (R85, R86). -/
structure Prog where
  bytes : Nat
  nThreads : Nat
  shape : Nat
  flags : Nat
  maxRows : Nat
  maxLen : Nat
  groupRows : Nat
  maxSegs : Nat
  fold : Nat
  barriers : Nat
  tags : Nat
  tensors : List Tensor
  loops : List LoopRec
  ops : List OpRec
deriving DecidableEq, Repr

/-- `MSPLIT` (R86). -/
def Prog.msplit (p : Prog) : Bool := bitOf p.flags 0
/-- `DBUF` (R86). -/
def Prog.dbuf (p : Prog) : Bool := bitOf p.flags 1
/-- `SEG_ALIGN` (R86). -/
def Prog.segAlign (p : Prog) : Bool := bitOf p.flags 2
/-- `ACT_CLASS` (R86). -/
def Prog.actClass (p : Prog) : Nat := field p.flags 3 2
/-- R_g of R101. -/
def Prog.rg (p : Prog) : Nat := if p.msplit then p.groupRows else p.maxRows

/-- One row of the shape menu (R93). -/
structure Shape where
  units : Nat
  n : Nat
  kpp8 : Nat
  kpp4 : Nat
  su : Nat
  depth : Nat
  lambs : Nat
  gang : Nat
deriving DecidableEq, Repr

/-- The shape menu (R93), with the depth of R78 and the value shown in `LAMB_GANG`. -/
def shapeOf : Nat → Option Shape
  | 0 => some ⟨8, 64, 64, 128, 1, 64, 1, 0x000⟩
  | 1 => some ⟨4, 128, 64, 128, 2, 64, 2, 0x033⟩
  | 2 => some ⟨2, 128, 128, 256, 2, 128, 4, 0x044⟩
  | 3 => some ⟨1, 256, 128, 256, 4, 128, 8, 0x100⟩
  | 4 => some ⟨1, 1024, 32, 64, 16, 32, 8, 0x200⟩
  | 5 => some ⟨2, 128, 128, 0, 2, 128, 4, 0x055⟩
  | _ => none

/-- The Virum grid shape (R59). -/
def virumShape : Nat := 5

/-- A conversion word read from 16 bytes (R79). -/
def parseConvWord (bs : List Byte) : ConvWord :=
  let lo := leAt bs 0 4
  { outFmt := field lo 0 8, src := field lo 8 1, scaleMode := field lo 9 2, biasMode := field lo 11 2, clipEn := bitOf lo 13
    rmode := bitOf lo 14, reserved := field lo 15 17, scale := leAt bs 4 4, bias := leAt bs 8 4
    clipLo := leAt bs 12 2, clipHi := leAt bs 14 2 }

/-- A tensor record read from 32 bytes (R87). -/
def parseTensor (b : List Byte) : Tensor :=
  { tier := leAt b 0 1, fmt := leAt b 1 1, role := leAt b 2 1, bind := leAt b 3 1, offset := leAt b 4 6, align := leAt b 10 1
    len := leAt b 11 1, rows := leAt b 12 4, rowBytes := leAt b 16 4, rowStride := leAt b 20 4, elems := leAt b 24 4 }

/-- A loop record read from 16 bytes (R88). -/
def parseLoop (b : List Byte) : LoopRec :=
  { kind := leAt b 0 1, flags := leAt b 1 1, src := leAt b 2 1, countT := leAt b 3 1, extent := leAt b 4 4, step := leAt b 8 4 }

/-- The payload of an operation record of 32 bytes (R89, R91, R92, R111, R116, R132, R175, R201). -/
def parseOpBody (b : List Byte) : OpBody :=
  let f := fun off => leAt b off 1
  match f 0 with
  | 1 => .pass (field (f 3) 0 4) (field (f 3) 4 3) (bitOf (f 3) 7) (f 4) (f 5) (bitOf (f 6) 0) (bitOf (f 6) 1)
      (field (f 6) 2 2) (field (f 7) 0 7) (field (leAt b 8 2) 0 13) (field (f 10) 0 6) (field (f 11) 0 6) (field (f 12) 0 6)
      (field (f 13) 0 6) (leAt b 16 4) (leAt b 20 4) (leAt b 24 4) (leAt b 28 4)
  | 2 => .conv (field (f 3) 0 4) (field (f 4) 0 6) (leAt b 8 4) (parseConvWord (b.drop 16))
  | 3 =>
    if bitOf (f 3) 1 then
      .mule (field (f 3) 2 2) (field (f 4) 0 6) (field (f 5) 0 6) (field (f 8) 0 6) (field (f 9) 0 3) (leAt b 12 4)
        (leAt b 16 6) (leAt b 22 6)
    else
      .stream (bitOf (f 3) 0) (field (f 4) 0 6) (field (f 5) 0 6) (field (f 6) 0 6) (field (f 7) 0 6) (field (f 8) 0 6)
        (field (f 9) 0 3) (leAt b 10 2) (leAt b 12 4) (leAt b 16 6) (leAt b 22 6)
  | 4 => .chain (field (f 3) 0 4) (bitOf (f 3) 4) (bitOf (f 3) 5) (field (leAt b 4 2) 0 10) (field (f 6) 0 6) (field (f 7) 0 6)
      (field (f 8) 0 6) (field (f 9) 0 6) (field (f 10) 0 6) (field (f 11) 0 7) (bitOf (f 11) 7) (field (f 12) 0 5)
      (parseConvWord (b.drop 16))
  | 5 => .wait (field (f 3) 0 5) (bitOf (f 3) 5) (bitOf (f 3) 6) (f 4) (f 5) (f 6)
  | 6 => .signal (field (f 3) 0 5)
  | 7 => .gmm (f 3) (field (f 4) 0 7) (bitOf (f 5) 0) (field (f 6) 0 6) (field (f 7) 0 6) (leAt b 8 4) (leAt b 12 4)
      (field (f 16) 0 6)
  | 8 => .mrs (f 3) (field (f 4) 0 7) (field (f 6) 0 6) (leAt b 8 4) (parseConvWord (b.drop 16))
  | c => .bad c

/-- An operation record (R89). -/
def parseOp (b : List Byte) : OpRec :=
  { thread := field (leAt b 1 1) 0 4, level := field (leAt b 2 1) 0 3, body := parseOpBody b }

/-- `n` records of `size` bytes at `off`. -/
def records (bs : List Byte) (off size n : Nat) : List (List Byte) :=
  (List.range n).map fun i => slice bs (off + i * size) size

/-- A tile program read from its bytes (R86); the checks of R119 are the loader's. -/
def parseProg (bs : List Byte) : Prog :=
  { bytes := leAt bs 4 4, nThreads := leAt bs 10 1, shape := leAt bs 11 1, flags := leAt bs 14 2, maxRows := leAt bs 16 4
    maxLen := leAt bs 20 4, groupRows := leAt bs 24 2, maxSegs := leAt bs 26 1, fold := leAt bs 27 1
    barriers := leAt bs 40 1, tags := leAt bs 42 2
    tensors := (records bs (leAt bs 28 4) 32 (leAt bs 8 1)).map parseTensor
    loops := (records bs (leAt bs 32 4) 16 (leAt bs 9 1)).map parseLoop
    ops := (records bs (leAt bs 36 4) 32 (leAt bs 12 2)).map parseOp }

/-- A chain instruction (R125). -/
structure ChainInstr where
  opc : Nat
  dst : Nat
  sa : Nat
  sb : Nat
  sc : Nat
  fmt : Nat
  mode : Nat
  port : Nat
  imm : Nat
deriving DecidableEq, Repr

/-- A chain program (R124). -/
structure ChainProg where
  kind : Nat
  split : Nat
  statuse : Nat
  fmts : List Nat
  consts : List Word
  instrs : List ChainInstr
deriving DecidableEq, Repr

/-- An instruction word read (R125). -/
def parseInstr (x : Nat) : ChainInstr :=
  { opc := field x 0 8, dst := field x 8 6, sa := field x 14 6, sb := field x 20 6, sc := field x 26 6, fmt := field x 32 8
    mode := field x 40 4, port := field x 44 4, imm := field x 48 16 }

/-- Where the instructions of a chain program start: the next 8-byte boundary after the constants (R124). -/
def chainInstrOff (bs : List Byte) : Nat := roundUp (32 + 4 * leAt bs 6 1) 8

/-- A chain program read from its bytes (R124). -/
def parseChain (bs : List Byte) : ChainProg :=
  { kind := leAt bs 7 1, split := leAt bs 8 1, statuse := leAt bs 9 1
    fmts := (List.range 5).map fun i => leAt bs (12 + i) 1
    consts := (List.range (leAt bs 6 1)).map fun i => BitVec.ofNat 32 (leAt bs (32 + 4 * i) 4)
    instrs := (List.range (leAt bs 4 2)).map fun i => parseInstr (leAt bs (chainInstrOff bs + 8 * i) 8) }

/-- A block-list entry (R178). -/
structure BlEntry where
  kind : Nat
  flags : Nat
  srcOff : Nat
  dstOff : Nat
  len : Nat
  count : Nat
  srcStride : Nat
  dstStride : Nat
  reserved : Nat
deriving DecidableEq, Repr

/-- A block-list entry read from 32 bytes (R178). -/
def parseBlEntry (b : List Byte) : BlEntry :=
  { kind := leAt b 0 1, flags := leAt b 1 1, srcOff := leAt b 2 6, dstOff := leAt b 8 6, len := leAt b 14 4, count := leAt b 18 4
    srcStride := leAt b 22 4, dstStride := leAt b 26 4, reserved := leAt b 30 2 }

/-- The entries of a block list (R177). -/
def parseBlockList (bs : List Byte) : List BlEntry := (records bs 16 32 (leAt bs 2 2)).map parseBlEntry

end Sys2Proof.Machine
end

