-- ==== Sys2Proof/Machine/CoreState.lean ====
section
/-! DEFINITION. The state of memory, the error queues, the compute cores, the Hen and the command context slots. -/

namespace Sys2Proof.Machine

/-- Memory of the device by local address (R148): bytes that are not zero, the syndromes of words whose check bits
disagree with their data (R156, R157; 0x7F is the poison marker), and the granule poison bits of LPDDR5X (R161). `seenBad` keeps the words of stacked SRAM that have been
read uncorrectable, and whether they have been written since (R383). -/
structure Mem where
  cells : List Host.Cell
  synd : List (Nat × BitVec 7)
  gran : List (Nat × Bool)
  seenBad : List (Nat × Bool)
deriving DecidableEq, Repr

/-- The unit that an error record names (R364): kind, index and sub-unit. -/
structure UnitId where
  kind : Nat
  index : Nat
  sub : Nat
deriving DecidableEq, Repr

/-- An error record (R364). -/
structure ErrRec where
  rseq : Nat
  cls : Nat
  loss : Bool
  accused : Bool
  hasCmd : Bool
  status : Nat
  device : Nat
  unit : UnitId
  context : Nat
  gseq : Nat
  count : Nat
  addr : Nat
  first : Nat
  last : Nat
  firstRep : Nat
  lastRep : Nat
  detail : Nat
  action : Nat
  escal : Nat
deriving DecidableEq, Repr

/-- An island's error queue, oldest first, and whether a record was lost since the last stored one (R367, R368). -/
structure ErrQueue where
  entries : List ErrRec
  lossPending : Bool
deriving DecidableEq, Repr

/-- A slot of the error log (R369). -/
structure LogSlot where
  recd : ErrRec
  acked : Bool
deriving DecidableEq, Repr

/-- The error aggregator (R367 to R371): `merged` gives the `RSEQ` of each record made of accusations by what they agree in, `notices` the notices
sent in second `noticeSecond`. -/
structure ErrState where
  queues : Vector ErrQueue 71
  log : List LogSlot
  nextSeq : Nat
  merged : List (List Nat × Nat)
  noticeSecond : Nat
  notices : Nat
deriving DecidableEq, Repr

/-- Life of a barrier, dispense counter or other Hen object (R214, R215). -/
inductive ObjState where
  | free | open | frozen | broken
deriving DecidableEq, Repr

/-- The code of `HEN_BAR_b_STATE.STATE` (R220). -/
def ObjState.code : ObjState → Nat
  | .free => 0 | .open => 1 | .frozen => 2 | .broken => 3

/-- A core barrier (R201 to R204); `waiters` in registration order. -/
structure CoreBar where
  st : ObjState
  gen : Nat
  credit : Bool
  parts : Nat
  cmax : Nat
  arrived : Nat
  consumed : Nat
  forced : Bool
  waiters : List Nat
deriving DecidableEq, Repr

/-- A FREE core barrier. -/
def CoreBar.empty : CoreBar := ⟨.free, 0, false, 0, 0, 0, 0, false, []⟩

/-- A watch (R209): its kind and object, the generation or count awaited, whether it waits as a signaller for room, the unit
whose tile the thread works for, the ticks left (R212) and the ticks it has been held (R219). -/
structure Watch where
  kind : Nat
  obj : Nat
  want : Nat
  acq : Bool
  signaller : Bool
  unit : Nat
  left : Nat
  held : Nat
deriving DecidableEq, Repr

/-- A hardware thread (R209, R210): its watch, its mailbox and its expected generation for each core barrier. -/
structure Thread where
  watch : Option Watch
  mbox : Word
  expect : List (Nat × Nat)
deriving DecidableEq, Repr

/-- A thread at core reset. -/
def Thread.empty : Thread := ⟨none, 0, []⟩

/-- Loop indices of an iteration, counted in iterations. -/
structure LoopIdx where
  g : Nat
  n : Nat
  mg : Nat
  k : Nat
  mi : Nat
deriving DecidableEq, Repr


/-- A slot row to be written when a pass drains: its address and its 64 values (R40, R150). -/
structure RowWrite where
  addr : Nat
  words : List PWord
deriving DecidableEq, Repr

/-- A pass in flight (R53): the unit, the unit whose tile it belongs to, the Lambs it holds and its final column values. -/
structure Flight where
  unit : Nat
  tile : Nat
  lambs : Nat
  thread : Nat
  writes : List RowWrite
  validRows : Nat
deriving DecidableEq, Repr

/-- A conversion in flight: bytes to be written at a destination, word by word (R80, R82). -/
structure ConvJob where
  unit : Nat
  tile : Nat
  thread : Nat
  tier : Nat
  dst : List (Nat × PWord)
  idx : LoopIdx
  status : Option Nat
deriving DecidableEq, Repr

/-- A tile in progress on a unit: its index, accumulator half, the position of each thread in its operation sequence, how many of
its operations have been issued and not completed, its taints and failures (R102, R107, R372). -/
structure TileRun where
  num : Nat
  half : Nat
  pos : List (Nat × Nat)
  open_ : Nat
  taints : List Nat
  fails : List Nat
  countRows : List Nat
deriving DecidableEq, Repr

/-- A unit of a core (R106). -/
structure UnitRun where
  cur : Option TileRun
  prefetched : Option Nat
  exhausted : Bool
  half : Nat
deriving DecidableEq, Repr

/-- A unit with no tile. -/
def UnitRun.empty : UnitRun := ⟨none, none, false, 0⟩

/-- A segment in flight (R183): its tag, source, destination and length in words. `words` holds the words of a source on this device; those of
a peer come by RDATA flits, and `got` counts them. `age` counts its microseconds (R188). -/
structure Segment where
  tag : Nat
  srcDev : Nat
  srcAddr : Nat
  dstDev : Nat
  dstAddr : Nat
  n : Nat
  words : List PWord
  got : Nat
  age : Nat
deriving DecidableEq, Repr

/-- A stream context (R175, R176, R183, R187, R192, R195): `idx` holds the index row of the current entry, `halted` the page of a halt. -/
structure StreamCtx where
  thread : Nat
  unit : Nat
  slot : Nat
  prog : Nat
  op : Nat
  persist : Bool
  running : Bool
  doneBar : Nat
  tagCnt : Nat
  srcTier : Nat
  dstTier : Nat
  srcBase : Nat
  dstBase : Nat
  idxBase : Option Nat
  mapBase : Option Nat
  srcRows : Nat
  dstRows : Nat
  entries : List BlEntry
  entry : Nat
  block : Nat
  off : Nat
  position : Nat
  idx : Option (List Nat)
  segs : List Segment
  halted : Option Nat
  haltAge : Nat
  failed : Option Nat
deriving DecidableEq, Repr

/-- A Mule transfer in flight (R190, R191): `op` is `MULE_OP`; `need` counts the words to come from a peer; `sent` tells that it has been applied
here or has left for its destination. -/
structure MuleSlot where
  thread : Nat
  unit : Nat
  op : Nat
  doneBar : Nat
  srcAddr : Nat
  dstDev : Nat
  dstAddr : Nat
  words : List PWord
  need : Nat
  sent : Bool
  failed : Option Nat
deriving DecidableEq, Repr

/-- Row map entry (R95, R97): row number of the map, validity, sequence position and key count. -/
structure RowInfo where
  i : Nat
  valid : Bool
  pos : Nat
  keys : Nat
  seg : Nat
deriving DecidableEq, Repr

/-- A chain operation (R123, R132): the thread and the unit whose tile issued it, the tile (whose count row SELCNT names, R140), the record
and its iteration, the chain program, and the kind of the parity error that it meets, if any (R143). -/
structure ChainOp where
  thread : Nat
  unit : Nat
  half : Nat
  tile : Nat
  op : Nat
  idx : LoopIdx
  prog : ChainProg
  parity : Option Nat
deriving DecidableEq, Repr

/-- The chain operation that the engine runs: its rows with their numbers in the M group, its chunks per row, where it stands (R123, R133), the
registers, whether the current row is poisoned, the rows that a parity error poisons and the constants that read poisoned (R142, R143),
and the lane-slots used (R123). -/
structure ChainRun where
  op : ChainOp
  rows : List (Nat × RowInfo)
  chunks : Nat
  row : Nat
  chunk : Nat
  sweep : Nat
  pc : Nat
  v : List (Nat × List Word)
  t : List (Nat × Word)
  poison : Bool
  badRows : List Nat
  badConsts : List Nat
  slots : Nat
deriving DecidableEq, Repr

/-- The vector engine (R121): its queue, the running operation, statistic fields where they differ from the entry set of R122 (key
4·entry + field, value XOR that set) and entries marked poisoned (R142, R143). -/
structure VecState where
  queue : List ChainOp
  run : Option ChainRun
  stats : List (Nat × Word)
  statBad : List (Nat × Bool)
deriving DecidableEq, Repr

/-- A line of the read cache (R164): its global address and its 64 bytes, with syndromes. -/
structure CacheLine where
  addr : Nat
  words : List (Word × BitVec 7)
deriving DecidableEq, Repr

/-- A compute core. `lastParity` is the time of its last parity error and `fenceDue` a fencing trigger that has been met (R383); `charge` codes its power charge as `PWR_GRANT_i.CORE_j` does (R333); `tlb` is the translation cache of its stream engine
(R168). -/
structure CoreState where
  fenced : Bool
  run : Option (Nat × Nat)
  units : Vector UnitRun 8
  threads : Vector Thread 16
  bars : Vector CoreBar 32
  owner : Nat
  flights : List Flight
  convs : List ConvJob
  vec : VecState
  streams : List (Nat × StreamCtx)
  mules : List (Nat × MuleSlot)
  cache : List CacheLine
  charge : Nat
  demoted : Option Nat
  lent : Bool
  stretching : Bool
  selfTest : Bool
  lastParity : Option Nat
  fenceDue : Option Nat
  saved : List (Nat × (List CoreBar × List Thread))
  tlb : List (Nat × Nat)
deriving DecidableEq, Repr

/-- A core right after reset (R32, R202). -/
def CoreState.empty : CoreState :=
  { fenced := false, run := none, units := Vector.replicate 8 UnitRun.empty
    threads := Vector.replicate 16 Thread.empty, bars := Vector.replicate 32 CoreBar.empty, owner := 0, flights := []
    convs := [], vec := ⟨[], none, [], []⟩, streams := [], mules := [], cache := [], charge := 0, demoted := none
    lent := false, stretching := false, selfTest := false, lastParity := none, fenceDue := none, saved := [], tlb := [] }

/-- A group barrier (R206, R207): `msgs` holds the messages held: generation and context, and dimension. -/
structure GroupBar where
  st : ObjState
  gen : Nat
  dims : Nat
  localParts : Nat
  arrived : Nat
  sent : Nat
  msgs : List (Nat × Nat)
  done : Nat
  own : Bool
  context : Nat
  waiters : List (Nat × Nat)
deriving DecidableEq, Repr

/-- A FREE group barrier. -/
def GroupBar.empty : GroupBar := ⟨.free, 0, 0, 0, 0, 0, [], 0, false, 0, []⟩

/-- A dispense counter (R104 to R108, R222); `outstanding` lists (core, unit, tile). -/
structure Dispense where
  st : ObjState
  count : Nat
  next : Nat
  reclaim : List Nat
  outstanding : List (Nat × Nat × Nat)
  prog : Nat
  context : Nat
deriving DecidableEq, Repr

/-- A FREE dispense counter. -/
def Dispense.empty : Dispense := ⟨.free, 0, 0, [], [], 0, 0⟩

/-- A segment of a command (R95). -/
structure Seg where
  len : Nat
  pos : Nat
  keys : Nat
deriving DecidableEq, Repr

/-- An M group's all-gather in flight (R113, R265): its operation ID, its arrival mask, the ports' shares ended for each piece, whether this
device has launched it. -/
structure Gather where
  mg : Nat
  opid : Nat
  mask : Nat
  ends : List (Nat × Nat)
  launched : Bool
deriving DecidableEq, Repr

/-- An M group's reduce-scatter (R117, R266): committed conversions for each piece, segments of the own piece written, and whether it
is complete. -/
structure Scatter where
  mg : Nat
  opid : Nat
  counts : List (Nat × Nat)
  written : List Nat
  done : Bool
deriving DecidableEq, Repr

/-- A program run on the device (R104): the program of the running command, the bases bound for it, the tuples of the
live tiles, the problem row counts of R97, the collectives in flight, and the M groups whose collectives are to be launched again (R376). -/
structure ProgRun where
  index : Nat
  prog : Prog
  binds : List (Nat × Nat)
  segs : List Seg
  counts : List Nat
  live : List LoopIdx
  gathers : List Gather
  scatters : List Scatter
  again : List Nat
  committed : List Nat
  stopDispense : Bool
  chains : List ChainProg
  blBase : Nat
  groupDims : List (Nat × Nat)
  arrived : List Nat
  inBlock : Bool
deriving DecidableEq, Repr

/-- What an error against a command leads to (R373, R374), in rising weight (R378); `failImage` also moves the image to FAILED. -/
inductive Act where
  | none
  | retry
  | refetch (page : Nat)
  | twin (addr : Nat)
  | step
  | restart
  | fail (status : Nat)
  | failUe
  | failImage (image : Nat)
deriving DecidableEq, Repr

/-- An error held against a frozen context (R382): its tile, M group, action and status, and, where it is of class CE or UE, the damaged word's address. -/
structure HeldErr where
  tile : Nat
  mg : Nat
  act : Act
  status : Nat
  ue : Option Nat
deriving DecidableEq, Repr

/-- A command context in its class slot (R291 to R293): the running command, where it stands in its schedule, the values of the
RWS registers it began with (R12), and the state of its recovery (R377 to R379). -/
structure Ctx where
  id : Nat
  gseq : Nat
  cls : Nat
  image : Nat
  schedule : Nat
  runPos : Nat
  run : Option ProgRun
  binds : List (Nat × Nat)
  segs : List Seg
  draining : Bool
  frozen : Bool
  forced : Bool
  satReported : Bool
  rangeReported : Bool
  kvBase : Nat
  reexec : Nat
  recovery : Option Nat
  ended : Bool
  cancel : Bool
  recTiles : List Nat
  heldErrs : List HeldErr
  rws : List (Nat × Word)
  wrote : List (Nat × Nat)
deriving DecidableEq, Repr

end Sys2Proof.Machine
end

