-- ==== Sys2Proof/Machine/LinkState.lean ====
section
/-! DEFINITION. Flits (R237 to R239), the state of the ports, of the Ethernet dimensions and of the reduction buffers (R241, R245, R247,
R256, R261), and the group as the device knows it (R258, R433). -/

namespace Sys2Proof.Machine

/-- The states of a port (R247). -/
inductive PortSt where
  | down | detect | equalize | align | identify | active | colt | disabled
deriving DecidableEq, Repr

/-- A flit in a replay buffer: its SEQ and how often it has been sent (R241). -/
structure Sent where
  seq : Nat
  times : Nat
  flit : Flit
deriving DecidableEq, Repr

/-- A chip-link port (R235, R241, R245 to R252). `held` are flits that were sent before the port left ACTIVE and wait for a HANDOVER, `report`
the last delivered `SEQ` that a HANDOVER is to tell, `handing` that newer flits wait for one; `wasActive` tells a retrain from a first training,
`tried` that the port has been ACTIVE or has failed its training since reset. -/
structure Port where
  st : PortSt
  txSeq : Nat
  rxNext : Nat
  nakOpen : Bool
  replay : List Sent
  credits : Vector Nat 4
  queues : Vector (List Flit) 4
  window : Nat
  vc0Sent : Nat
  deficits : Vector Nat 4
  coefs : List Word
  lostLanes : Nat
  retrains : List Nat
  trainFrom : Nat
  coltWanted : Bool
  coltAsked : Bool
  handing : Bool
  held : List Sent
  report : Option Nat
  wasActive : Bool
  tried : Bool
deriving DecidableEq, Repr

/-- The credits of a port's receivers (R245). -/
def portCredits : Vector Nat 4 := #v[32, 256, 256, 32]

/-- A port after device reset. -/
def Port.empty : Port :=
  { st := .down, txSeq := 0, rxNext := 0, nakOpen := false, replay := [], credits := portCredits
    queues := Vector.replicate 4 [], window := 0, vc0Sent := 0, deficits := #v[0, 0, 0, 0], coefs := [], lostLanes := 0
    retrains := [], trainFrom := 0, coltWanted := false, coltAsked := false, handing := false
    held := [], report := none, wasActive := false, tried := false }

/-- A datagram kept until acknowledged (R256, R257). -/
structure Datagram where
  seq : Nat
  times : Nat
  flits : List Flit
deriving DecidableEq, Repr

/-- The traffic with one neighbour over d4 or d5 (R256, R257). -/
structure EthDim where
  txSeq : Nat
  rxNext : Nat
  unacked : List Datagram
  credits : Vector Nat 4
  queues : Vector (List Flit) 4
  down : Bool
deriving DecidableEq, Repr

/-- An Ethernet dimension after device reset. -/
def EthDim.empty : EthDim :=
  { txSeq := 0, rxNext := 0, unacked := [], credits := #v[256, 4096, 4096, 256], queues := Vector.replicate 4 [], down := false }

/-- A reduction buffer slot (R261, R273): its router (8 and 9 for d4 and d5), owning context slot, step dimension, operation tag, its length
in words, the partner's words that have come by word offset, and the kept partial. -/
structure RedSlot where
  port : Nat
  ctx : Nat
  step : Nat
  tag : Nat
  len : Nat
  words : List (Nat × PWord)
  own : Option (List PWord)
deriving DecidableEq, Repr

/-- An ABORT held for an operation (R269, R270): accuser, accused if any, cause. -/
structure AbortNote where
  opid : Nat
  accuser : Nat
  accused : Option Nat
  cause : Nat
deriving DecidableEq, Repr

/-- A segment of partial sums that waits for a grant (R263): its operation tag, the partner, the port and its words. -/
structure SendWait where
  tag : Nat
  dst : Nat
  port : Nat
  words : List PWord
deriving DecidableEq, Repr

/-- Grants asked of a router and not yet given, oldest first (R263). -/
structure GrantWait where
  port : Nat
  src : Nat
  tag : Nat
  bytes : Nat
deriving DecidableEq, Repr

/-- The links of the device. `abortDue` holds the ticks left to the record of an aborted operation (R270), `timers` those left to a launched
operation (R268), `frozenOps` the operations that a FREEZE suspends with the device that sent it (R270). -/
structure LinkState where
  ports : Vector Port 8
  eths : Vector EthDim 2
  slots : List (Nat × RedSlot)
  grants : List GrantWait
  aborts : List AbortNote
  abortDue : List (Nat × Nat)
  aborted : List Nat
  timers : List (Nat × Nat)
  frozenOps : List (Nat × Nat)
  sends : List SendWait
  earlyEnds : List (Nat × Nat)
deriving DecidableEq, Repr

/-- Links after device reset. -/
def LinkState.empty : LinkState :=
  { ports := Vector.replicate 8 Port.empty, eths := Vector.replicate 2 EthDim.empty, slots := [], grants := [], aborts := []
    abortDue := [], aborted := [], timers := [], frozenOps := [], sends := [], earlyEnds := [] }

/-- What the device knows of another (R216, R433): whether the head accepted its JOIN, and the status with which it has left. -/
structure Member where
  dev : Nat
  accepted : Bool
  left : Option Nat
deriving DecidableEq, Repr

/-- The group as the device knows it: formed or not, its size, head, members (bit i for device i), QUIESCED, the last group
sequence number assigned or applied, and the time of the head's last VC0 traffic (R287 to R290, R433). Before formation `called` tells that a CALL is
held, of `head`; `calling` and `firstCall` that this device calls, and since when. -/
structure GroupState where
  formed : Bool
  size : Nat
  head : Nat
  members : Nat
  called : Bool
  calling : Bool
  firstCall : Nat
  joinSent : Bool
  joins : List Member
  lastGseq : Nat
  headSeen : Nat
  headLost : Bool
  quiesced : Bool
  left : Bool
  headIp : Nat
  shiftReports : List (Nat × Nat × Nat)
  digests : List (Nat × Nat × Nat × Nat)
deriving DecidableEq, Repr

/-- The group before formation. -/
def GroupState.empty : GroupState :=
  { formed := false, size := 0, head := 0, members := 0, called := false, calling := false, firstCall := 0, joinSent := false
    joins := [], lastGseq := 0, headSeen := 0, headLost := false, quiesced := false, left := false, headIp := 0
    shiftReports := [], digests := [] }

end Sys2Proof.Machine
end

