-- ==== Sys2Proof/Machine/BoardState.lean ====
section
/-! DEFINITION. The state of the power grant unit (R333 to R361), of the security block (R389 to R413), and of the pins, start-up, SMBus
and boundary-scan ports (R415 to R438). -/

namespace Sys2Proof.Machine

/-- A leave request (R336). -/
structure LeaveReq where
  core : Nat
  cls : Nat
  prio : Nat
  returning : Bool
  slot : Nat
deriving DecidableEq, Repr

/-- The power grant unit and the policy of Gander 3. `burst` is the level of the burst reserve in tenths of a µJ (R346); `thermal` and `rail` are
the terms of R347 and R348 in W, with `thermalOn` and `railOn` telling that their condition held at the last window start; `term` is the term that
set L (0 package, 1 mode cap, 2 sustained, 3 thermal, 4 rail); `target` is the point to which the rail is being raised (R345); `cap` the group cap
(R349); `newS` an S set by the head for the next window, `slack` and `arrivedAt` the sum of R350 and the open arrivals; `queue` the requests in
order of arrival, `order` the cores with a grant in order of grant; `hot` the 105 °C demotion; `idleFrom` since when no command is started, `idleAt`
since when the device is IDLE; `telemetry` the block of the last window end (R358). -/
structure Power where
  burst : Nat
  thermal : Option Nat
  thermalOn : Bool
  rail : Option Nat
  railOn : Bool
  term : Nat
  target : Option Nat
  cap : Nat
  newS : Option Nat
  slack : Nat
  arrivedAt : List (Nat × Nat)
  queue : List LeaveReq
  order : List Nat
  hot : Bool
  idleFrom : Nat
  idleAt : Nat
  telemetry : Option (List Byte)
deriving DecidableEq, Repr

/-- The power grant unit after device reset (R346: the reserve is full). -/
def Power.empty : Power :=
  { burst := 1000000000, thermal := none, thermalOn := false, rail := none, railOn := false, term := 0, target := none, cap := 0, newS := none
    slack := 0, arrivedAt := [], queue := [], order := [], hot := false, idleFrom := 0, idleAt := 0, telemetry := none }

/-- An owner slot of the fuses (R389). -/
structure Owner where
  programmed : Bool
  revoked : Bool
  ecdsa : Nat
  hss : Nat
deriving DecidableEq, Repr

/-- The fuses (R389), written once: numbers hold digests and the unique ID. -/
structure Fuses where
  uid : Nat
  lifecycle : Nat
  vendorEcdsa : Nat
  vendorHss : Nat
  owners : Vector Owner 4
  password : Nat
  minSvn : Nat
  topUsed : Nat
deriving DecidableEq, Repr

/-- The security block and the boundary-scan port's debug state. -/
structure Secure where
  fuses : Fuses
  fwDigest : Nat
  fwSvn : Nat
  slotB : Bool
  commitSvn : Bool
  boardDigest : Nat
  board : List Byte
  boardSigner : Nat
  endorsement : List Byte
  tree : Option Nat
  nextTree : Bool
  exhaustedGen : Bool
  regen : Bool
  periodOpen : Bool
  leaf : Nat
  tapLevel : Nat
  tapStatus : Nat
  tapRead : Word
deriving DecidableEq, Repr

/-- What drives the pins of the boundary register (R438). -/
inductive PinDrive where
  | normal | extest | clamp | highz
deriving DecidableEq, Repr

/-- The instruction that the TAP holds (R438). -/
inductive TapInstr where
  | idcode | sample | extest | clamp | highz | regAccess | dbgPw | dbgChal | dbgResp | otpOwner | otpPw | tapStatus | bypass
deriving DecidableEq, Repr

/-- Pins, start-up and board ports. `brownRails` are the rails below their range, `brownRec` the rail whose brownout is to be recorded at the next
boot (R425); `steps` lists the steps of R431 that are complete, `calledAt` is when step 12 was. For R383: frames and channels that have met a trigger,
buffer words found uncorrectable with the tile that read them, granules with the time, and the corrections of a frame since a time. -/
structure Board where
  pwrgood : Bool
  resetN : Bool
  brownRails : List Nat
  brownRec : Option Nat
  booted : Bool
  deep : Bool
  thermtrip : Bool
  steps : List Nat
  deafRails : List Nat
  alertState : Bool
  calledAt : Nat
  tap : TapInstr
  drive : PinDrive
  boundary : List Bool
  rates : List (Nat × Nat)
  gandersLost : Nat
  framesLost : List Nat
  framesDue : List (Nat × Nat)
  channelsDue : List Nat
  badWords : List (Nat × Nat)
  granules : List (Nat × Nat)
  ceCounts : List (Nat × Nat × Nat)
  selftestAll : Bool
  quiesceSeq : Nat
deriving DecidableEq, Repr

/-- The board side before the first rise of RESET_N. -/
def Board.empty : Board :=
  { pwrgood := true, resetN := false, brownRails := [], brownRec := none, booted := false, deep := false, thermtrip := false, steps := [], deafRails := []
    alertState := false, calledAt := 0, tap := .idcode, drive := .normal, boundary := [], rates := [], gandersLost := 0
    framesLost := [], framesDue := [], channelsDue := [], badWords := [], granules := [], ceCounts := [], selftestAll := false, quiesceSeq := 0 }

end Sys2Proof.Machine
end

