-- ==== Sys2Proof/Machine/ServiceState.lean ====
section
/-! DEFINITION. The state of the command protocol (R275 to R305), of prompts and chunks (R314 to R321), of KV pages being fetched (R170,
R300) and of the connections for KV egress (R322 to R325). -/

namespace Sys2Proof.Machine

/-- A final reply (R286): status, the device and `DETAIL` of its prefix, and what follows the prefix. -/
structure Reply where
  status : Nat
  device : Nat
  detail : Nat
  body : List Byte
deriving DecidableEq, Repr

/-- A reply with a status alone. -/
def Reply.plain (status : Nat) : Reply := ⟨status, 0xFF, 0, []⟩

/-- A recorded `SEQ` of a session (R285). -/
structure SeqRec where
  seq : Nat
  digest : Nat
  gseq : Option Nat
  query : Bool
  final : Option Reply
deriving DecidableEq, Repr

/-- A message not yet complete (R277): the parts held, and when its first packet came. -/
structure Partial where
  seq : Nat
  opcode : Nat
  total : Nat
  parts : List (Nat × List Byte)
  since : Nat
deriving DecidableEq, Repr

/-- A session (R283): its keys and salts as one number (R406), its notify address (R298), its debug level on this device (R408), the
records of R285, the packet window of R282, its counters and its partial messages. A session that is closing is ended (R283), and is kept only for the
final reply of its SESSION_CLOSE. -/
structure Session where
  id : Nat
  closing : Bool
  keys : Nat
  share : Nat
  openedAt : Nat
  notify : Option Nat
  lastSrc : Nat
  level : Nat
  high : Option Nat
  recs : List SeqRec
  ctrHigh : Nat
  ctrSeen : List Nat
  txCtr : Nat
  noticeCtr : Nat
  parts : List Partial
deriving DecidableEq, Repr

/-- A pending key exchange (R405). -/
structure Exchange where
  share : Nat
  digest : Nat
  hostNonce : Nat
  devNonce : Nat
  signedAt : Nat
deriving DecidableEq, Repr

/-- A Level 2 challenge (R410); session 0 is the boundary-scan port. -/
structure Challenge where
  session : Nat
  bytes : List Byte
  since : Nat
deriving DecidableEq, Repr

/-- What a PREFILL asks (R315), its tokens once known (R314), and how far it has come. -/
structure Prompt where
  flags : Nat
  imageId : Nat
  requestId : Nat
  rxAddr : Nat
  serviceId : Nat
  kvOff : Nat
  tokStride : Nat
  headStride : Nat
  layerStride : Nat
  prefixLen : Nat
  maxHold : Nat
  temp : Word
  sampleK : Nat
  seed : List Byte
  pages : List (Nat × Nat)
  pre : List Nat
  post : List Nat
  text : List Byte
  tokens : Option (List Nat)
  expired : Bool
  chunkFirst : Nat
  chunkTokens : Nat
  chunkStart : Nat
  chunkEnd : Nat
  shards : Nat
  shardFirst : Nat
  shardCount : Nat
  lastShard : Bool
  firstToken : Option (Nat × Word)
  cancelled : Bool
deriving DecidableEq, Repr

/-- A sequenced command (R287, R299): what it is and whence it came (R275), its state (0 queued, 1 running, 2 frozen, 3 finished), its final status on this device,
and at the head the members that have reported it done and had its completion record acknowledged. -/
structure CmdRec where
  gseq : Nat
  session : Nat
  src : Nat
  seq : Nat
  opcode : Nat
  cls : Nat
  run : Bool
  payload : List Byte
  prompt : Option Prompt
  state : Nat
  context : Nat
  reply : Reply
  doneMask : Nat
  recMask : Nat
  ownDone : Bool
  final : Bool
  recordedAt : Nat
  escal : Nat
  quiesceAt : Option Nat
deriving DecidableEq, Repr

/-- The states of an image (R301). -/
inductive ImageSt where
  | loading | verifying | verified | active | failed | unloading
deriving DecidableEq, Repr

/-- An image held (R301 to R305): the 1 KiB units of the part received, the SHA-384 of its manifest, the commit and unload commands in
progress. -/
structure Image where
  id : Nat
  groupSize : Nat
  base : Nat
  partBytes : Nat
  st : ImageSt
  got : List Nat
  digest : Nat
  gseq : Nat
deriving DecidableEq, Repr

/-- A KV page being fetched (R170, R300): the peer or host that holds it, the frame allocated and the streams that wait. -/
structure PageFetch where
  page : Nat
  owner : Nat
  host : Bool
  device : Nat
  addr : Nat
  handle : Nat
  frame : Nat
  got : List Nat
  ready : Bool
  waiters : List (Nat × Nat)
deriving DecidableEq, Repr

/-- The states of a connection (R322, R323). -/
inductive ConnSt where
  | closed | requested | ready | failed
deriving DecidableEq, Repr

/-- A message of a connection (R323, R324): the prompt it serves, whether it is the completion record, its remote address and bytes. -/
structure RcMsg where
  gseq : Nat
  record : Bool
  va : Nat
  data : List Byte
  psn : Nat
  packets : Nat
deriving DecidableEq, Repr

/-- A RoCEv2 connection (R322, R323): messages sent and not acknowledged, messages waiting, the next packet and
the first not acknowledged, retries, and the rate in parts of `fullRate`. -/
structure Conn where
  st : ConnSt
  rxAddr : Nat
  serviceId : Nat
  reqs : Nat
  va : Nat
  rkey : Nat
  len : Nat
  psn : Nat
  acked : Nat
  unacked : List RcMsg
  queue : List RcMsg
  retries : Nat
  rnrs : Nat
  rnrWait : Bool
  rate : Nat
  cnpAt : Nat
  lastUse : Nat
  ctrl : Word
deriving DecidableEq, Repr

/-- The port rate, in the unit of `Conn.rate`: 100 percent in steps of 2⁻³² percent. -/
def fullRate : Nat := 100 * 2 ^ 32

/-- A connection that is not open. -/
def Conn.empty : Conn := ⟨.closed, 0, 0, 0, 0, 0, 0, 0, 0, [], [], 0, 0, false, fullRate, 0, 0, 0⟩

/-- The egress of a prompt (R324, R325): its connection, the layers queued, the bytes and messages to be acknowledged, and how far its
completion record has come (0 not sent, 1 sent, 2 acknowledged). -/
structure Egress where
  gseq : Nat
  conn : Nat
  layers : Nat
  bytes : Nat
  record : Nat
  stopped : Bool
deriving DecidableEq, Repr

/-- Everything the Gander cores keep for the command protocol and the services. -/
structure Service where
  sessions : List Session
  nextSession : Nat
  exchanges : List Exchange
  challenges : List Challenge
  cmds : List CmdRec
  queues : Vector (List Nat) 4
  started : Vector Nat 4
  held : List (Nat × Nat × List Word)
  images : List Image
  fetches : List PageFetch
  hostPages : List (Nat × Nat × Nat)
  conns : Vector Conn 64
  egress : List Egress
  authFailAt : Option Nat
  attests : List Nat
  attestWait : List (Nat × Nat × List Byte)
  paused : Nat
  relayed : Bool
deriving DecidableEq, Repr

/-- The services after device reset. -/
def Service.empty : Service :=
  { sessions := [], nextSession := 1, exchanges := [], challenges := [], cmds := [], queues := Vector.replicate 4 []
    started := Vector.replicate 4 0, held := [], images := [], fetches := [], hostPages := [], conns := Vector.replicate 64 Conn.empty
    egress := [], authFailAt := none, attests := [], attestWait := [], paused := 0, relayed := false }

end Sys2Proof.Machine
end

