-- ==== Sys2Proof/Machine/State.lean ====
section
/-! DEFINITION. The state of the device, its faults and refusals, and its state right after power-on reset. -/

namespace Sys2Proof.Machine

/-- What the device sends or shows outside itself. -/
inductive Output where
  /-- A thread's load delivers words (R164). -/
  | loaded (core thread : Nat) (words : List PWord)
  /-- A register read delivers a value (R10, R30). -/
  | read (agent : Agent) (addr : Nat) (value : Word)
  /-- A sequenced flit leaves a port (R237). -/
  | flit (port : Nat) (seq : Option Nat) (f : Flit)
  /-- A LINK flit leaves a port (R244). -/
  | link (port subtype : Nat) (words : List Word)
  /-- An IDLE flit leaves a port with its ACK and returned credits (R245). -/
  | idle (port : Nat) (ack cvc cred : Nat)
  /-- A datagram leaves over d4 or d5 with the credits it returns by VC (R256). -/
  | datagram (dim seq ack : Nat) (flits : List Flit) (credits : List (Nat × Nat))
  /-- A BCP reply (R284, R286): to whom, protected or in clear, from the cache, opcode, status, `SEQ` and payload. -/
  | reply (to_ session seq opcode status : Nat) (enc cached : Bool) (payload : List Byte)
  /-- A BCP notice (R279): its session and counter, opcode, status and payload. -/
  | notice (to_ session count opcode status : Nat) (payload : List Byte)
  /-- A query or update that Gander 0 hands to another member (R295). -/
  | ask (device opcode : Nat) (payload : List Byte)
  /-- A message of the connection manager (R322): 0 REQ, 1 RTU, 2 REJ, 3 DREQ. -/
  | cm (conn kind : Nat)
  /-- A RoCEv2 message (R323 to R325): its first PSN, whether it is the completion record, its address and bytes. -/
  | roce (conn psn : Nat) (record : Bool) (va : Nat) (data : List Byte)
  /-- An Ethernet answer to a request for the own address (R311): 0 echo, 1 address resolution. -/
  | frame (kind to_ : Nat) (data : List Byte)
  /-- A PFC frame (R313). -/
  | pfc (prio : Nat) (pause : Bool)
  /-- Bytes read over SMBus (R437). -/
  | smbus (data : List Byte)
  /-- The part does not acknowledge an SMBus command (R437). -/
  | smbusNack
  /-- Bits captured by the boundary-scan port (R438), least significant first. -/
  | tap (width value : Nat)
  /-- A regulator target in mV set over AVSBus (R345). -/
  | avs (millivolts : Nat)
deriving DecidableEq, Repr

/-- The state of one device. `pending` is the queue of commands that wait, first in first out; `out` is what has been sent; `freeCtr` counts
the free values drawn (the model's own field). -/
structure State where
  pending : List Instr
  out : List Output
  freeCtr : Nat
  aonClk : Nat
  devIndex : Nat
  mem : Mem
  regs : List (Nat × Word)
  force : List (Nat × Word)
  latches : List (Nat × Nat × Word)
  err : ErrState
  cores : Vector CoreState 48
  gbars : Vector GroupBar 64
  dsps : Vector Dispense 64
  ctxs : Vector (Option Ctx) 4
  links : LinkState
  grp : GroupState
  svc : Service
  pwr : Power
  sec : Secure
  brd : Board
deriving DecidableEq, Repr

/-- Faults of the block: none, since the spec gives every command an effect. -/
inductive Fault where
deriving DecidableEq, Repr

/-- Refusals. -/
inductive Refusal where
  /-- Raised by the arm of a command that has no meaning yet; safe, since nothing is then claimed of it. -/
  | notModelled (mnemonic : String)
deriving DecidableEq, Repr

/-- Memory with nothing stored: every word reads as zero with valid check bits (R426). -/
def Mem.empty : Mem := ⟨[], [], [], []⟩

/-- The error aggregator after power-on reset (R369). -/
def ErrState.empty : ErrState :=
  { queues := Vector.replicate 71 ⟨[], false⟩, log := [], nextSeq := 1, merged := [], noticeSecond := 0, notices := 0 }

/-- The fuses of the modelled part, of which the spec gives no value: a DXB-48-AF with nothing else programmed. -/
def Fuses.blank : Fuses :=
  { uid := 0, lifecycle := 1, vendorEcdsa := 0, vendorHss := 0, owners := Vector.replicate 4 ⟨false, false, 0, 0⟩, password := 0
    minSvn := 0, topUsed := 0 }

/-- The security block before its first boot. -/
def Secure.empty : Secure :=
  { fuses := Fuses.blank, fwDigest := 0, fwSvn := 0, slotB := false, commitSvn := false, boardDigest := 0, board := [], boardSigner := 0
    endorsement := [], tree := none, nextTree := false, exhaustedGen := false, regen := false, periodOpen := true, leaf := 0
    tapLevel := 0, tapStatus := 0, tapRead := 0 }

/-- The device right after power-on reset, with PWRGOOD high and RESET_N low (R424, R426). -/
def State.reset : State :=
  { pending := [], out := [], freeCtr := 0, aonClk := 0, devIndex := 0, mem := Mem.empty, regs := [], force := [], latches := []
    err := ErrState.empty, cores := Vector.replicate 48 CoreState.empty, gbars := Vector.replicate 64 GroupBar.empty
    dsps := Vector.replicate 64 Dispense.empty, ctxs := Vector.replicate 4 none, links := LinkState.empty, grp := GroupState.empty
    svc := Service.empty, pwr := Power.empty, sec := Secure.empty, brd := Board.empty }

end Sys2Proof.Machine
end

