-- ==== Sys2Proof/Machine/RegFile.lean ====
section
/-! DEFINITION. The register file: pages (R29), the rows of their maps, stored and in-force values (R12), and counters (R14, R15). -/

namespace Sys2Proof.Machine

/-- A register page (R29). -/
inductive Page where
  | aon
  | core (c : Nat) | tsq (c : Nat) | vec (c : Nat) | str (c : Nat) | hen (c : Nat) | lamb (c : Nat) | cbuf (c : Nat)
  | lnk (p : Nat)
  | mem (g : Nat)
  | ssr (d : Nat)
  | eth (k : Nat)
  | heng (k : Nat)
  | pwr (k : Nat)
  | err
  | sec
  | gnd (n : Nat)
deriving DecidableEq, Repr

/-- First address of register space (R29). -/
def regBase : Nat := 0xC000000000
/-- First address after register space (R29). -/
def regEnd : Nat := 0xD000000000

/-- Base of core c's register block (R29). -/
def coreRegBase (c : Nat) : Nat := regBase + 0x01000000 + c * 0x80000

/-- Base address of a page (R29). -/
def Page.base : Page → Nat
  | .aon => regBase
  | .core c => coreRegBase c
  | .tsq c => coreRegBase c + 0x10000
  | .vec c => coreRegBase c + 0x20000
  | .str c => coreRegBase c + 0x30000
  | .hen c => coreRegBase c + 0x40000
  | .lamb c => coreRegBase c + 0x50000
  | .cbuf c => coreRegBase c + 0x60000
  | .lnk p => regBase + 0x03000000 + p * 0x10000
  | .mem g => regBase + 0x03100000 + g * 0x10000
  | .ssr d => regBase + 0x03200000 + d * 0x10000
  | .eth k => regBase + 0x03300000 + k * 0x10000
  | .heng k => regBase + 0x03400000 + k * 0x10000
  | .pwr k => regBase + 0x03500000 + k * 0x10000
  | .err => regBase + 0x03600000
  | .sec => regBase + 0x03700000
  | .gnd n => regBase + 0x03800000 + n * 0x10000

/-- The page that holds a local address, with the offset in it (R29); none for the gaps. -/
def Page.ofAddr (a : Nat) : Option (Page × Nat) :=
  if a < regBase ∨ regEnd ≤ a then none
  else
    let r := a - regBase
    let off := r % 0x10000
    let pg := r / 0x10000
    if pg = 0 then some (.aon, off)
    else if pg < 0x100 then none
    else if pg < 0x280 then
      let c := (pg - 0x100) / 8
      match (pg - 0x100) % 8 with
      | 0 => some (.core c, off)
      | 1 => some (.tsq c, off)
      | 2 => some (.vec c, off)
      | 3 => some (.str c, off)
      | 4 => some (.hen c, off)
      | 5 => some (.lamb c, off)
      | 6 => some (.cbuf c, off)
      | _ => none
    else if 0x300 ≤ pg ∧ pg < 0x308 then some (.lnk (pg - 0x300), off)
    else if 0x310 ≤ pg ∧ pg < 0x318 then some (.mem (pg - 0x310), off)
    else if 0x320 ≤ pg ∧ pg < 0x322 then some (.ssr (pg - 0x320), off)
    else if 0x330 ≤ pg ∧ pg < 0x334 then some (.eth (pg - 0x330), off)
    else if 0x340 ≤ pg ∧ pg < 0x342 then some (.heng (pg - 0x340), off)
    else if 0x350 ≤ pg ∧ pg < 0x352 then some (.pwr (pg - 0x350), off)
    else if pg = 0x360 then some (.err, off)
    else if pg = 0x370 then some (.sec, off)
    else if 0x380 ≤ pg ∧ pg < 0x384 then some (.gnd (pg - 0x380), off)
    else none

/-- The map of a page; a Gander mailbox page is reserved to firmware and lists nothing. -/
def Page.defs : Page → List RegDef
  | .aon => regsAon
  | .core _ => regsCore
  | .tsq _ => regsTsq
  | .vec _ => regsVec
  | .str _ => regsStr
  | .hen _ => regsHen
  | .lamb _ => regsLamb
  | .cbuf _ => regsCbuf
  | .lnk p => if p = 0 then regsLnk ++ regsColl else regsLnk
  | .mem _ => regsMem
  | .ssr _ => regsSsr
  | .eth 0 => regsEth0
  | .eth 1 => regsEth1
  | .eth 3 => regsEth3
  | .eth _ => []
  | .heng 0 => regsHeng0
  | .heng _ => regsHeng1
  | .pwr 0 => regsPwr0
  | .pwr _ => regsPwr1
  | .err => regsErr
  | .sec => regsSec
  | .gnd _ => []

/-- The offset is an instance of the row. -/
def RegDef.hits (r : RegDef) (off : Nat) : Bool :=
  if r.count ≤ 1 then off == r.off
  else decide (r.off ≤ off) && decide ((off - r.off) % r.stride = 0) && decide ((off - r.off) / r.stride < r.count)

/-- The row of a page's map that lists an offset. -/
def Page.row (p : Page) (off : Nat) : Option RegDef := p.defs.find? (·.hits off)

/-- The reset value of a register, with the values that the maps give as a function of the unit's index. -/
def Page.resetVal (p : Page) (off : Nat) : Word :=
  match p, off with
  | .aon, 4 => 0x20
  | .core c, 0 => BitVec.ofNat 32 (c + 0x100 * (c % 8) + 0x1000 * (c / 8))
  | .lnk q, 0 => ((Page.row (.lnk q) 0).map (·.reset)).getD 0 + BitVec.ofNat 32 (q + 16 * (q / 2))
  | .mem g, 0 => ((Page.row (.mem g) 0).map (·.reset)).getD 0 + BitVec.ofNat 32 g
  | .ssr d, 0 => ((Page.row (.ssr d) 0).map (·.reset)).getD 0 + BitVec.ofNat 32 d
  | _, _ => ((p.row off).map (·.reset)).getD 0

/-- The stored value of a register. -/
def State.rget (s : State) (p : Page) (off : Nat) : Word := sget 0#32 s.regs (p.base + off) ^^^ p.resetVal off

/-- The state with a register's stored value set. -/
def State.rset (s : State) (p : Page) (off : Nat) (v : Word) : State :=
  { s with regs := sset 0#32 s.regs (p.base + off) (v ^^^ p.resetVal off) }

/-- The value in force of a register with RW or RWS fields (R12). -/
def State.rforce (s : State) (p : Page) (off : Nat) : Word := sget 0#32 s.force (p.base + off) ^^^ p.resetVal off

/-- The state with a register's value in force set. -/
def State.rsetForce (s : State) (p : Page) (off : Nat) (v : Word) : State :=
  { s with force := sset 0#32 s.force (p.base + off) (v ^^^ p.resetVal off) }

/-- Bits [lo + width − 1:lo] of a register's stored value. -/
def State.rfield (s : State) (p : Page) (off lo width : Nat) : Nat := field (s.rget p off).toNat lo width

/-- Bits of a register's value in force. -/
def State.ffield (s : State) (p : Page) (off lo width : Nat) : Nat := field (s.rforce p off).toNat lo width

/-- A word with bits [lo + width − 1:lo] replaced. -/
def withField (w : Word) (lo width v : Nat) : Word :=
  let m := BitVec.ofNat 32 ((2 ^ width - 1) * 2 ^ lo)
  (w &&& ~~~m) ||| (BitVec.ofNat 32 (v * 2 ^ lo) &&& m)

/-- The state with bits of a register's stored value set to `v`. -/
def State.rput (s : State) (p : Page) (off lo width v : Nat) : State := s.rset p off (withField (s.rget p off) lo width v)

/-- The state with every bit of `mask` set in a register. -/
def State.ror (s : State) (p : Page) (off mask : Nat) : State := s.rset p off (s.rget p off ||| BitVec.ofNat 32 mask)

/-- The state with every bit of `mask` clear in a register. -/
def State.rclr (s : State) (p : Page) (off mask : Nat) : State := s.rset p off (s.rget p off &&& ~~~(BitVec.ofNat 32 mask))

/-- A 48-bit event counter at `off` and `off + 4` advances by `n`; on passing 2⁴⁸ − 1 it wraps and sets OVF (R15). -/
def State.count48 (s : State) (p : Page) (off n : Nat) : State :=
  let lo := (s.rget p off).toNat
  let hi := (s.rget p (off + 4)).toNat
  let v := lo + 2 ^ 32 * (hi % 2 ^ 16) + n
  let ovf := if 2 ^ 48 ≤ v ∨ bitOf hi 31 then 2 ^ 31 else 0
  let w := v % 2 ^ 48
  (s.rset p off (BitVec.ofNat 32 w)).rset p (off + 4) (BitVec.ofNat 32 (w / 2 ^ 32 + ovf))

/-- A 64-bit counter at `off` and `off + 4` advances by `n` (R15). -/
def State.count64 (s : State) (p : Page) (off n : Nat) : State :=
  let v := (s.rget p off).toNat + 2 ^ 32 * (s.rget p (off + 4)).toNat + n
  (s.rset p off (BitVec.ofNat 32 v)).rset p (off + 4) (BitVec.ofNat 32 (v / 2 ^ 32))

/-- The value of a 48-bit counter. -/
def State.value48 (s : State) (p : Page) (off : Nat) : Nat :=
  (s.rget p off).toNat + 2 ^ 32 * ((s.rget p (off + 4)).toNat % 2 ^ 16)

/-- The value of a 64-bit counter. -/
def State.value64 (s : State) (p : Page) (off : Nat) : Nat :=
  (s.rget p off).toNat + 2 ^ 32 * (s.rget p (off + 4)).toNat

/-- At a boundary of a page the bits of `sel` of every listed register come into force (R12, R13: the last write wins). -/
def State.takeForce (s : State) (p : Page) (sel : RegDef → Word) : State :=
  p.defs.foldl (init := s) fun s r =>
    (List.range (max r.count 1)).foldl (init := s) fun s i =>
      let off := r.off + i * r.stride
      let m := sel r
      if m = 0 then s else s.rsetForce p off ((s.rforce p off &&& ~~~m) ||| (s.rget p off &&& m))

/-- RW fields of a page come into force: a tile boundary or the work boundary named in its map (R12). -/
def State.takeRw (s : State) (p : Page) : State := s.takeForce p (·.rw)

/-- RWS fields of a page come into force: a command boundary (R12). -/
def State.takeRws (s : State) (p : Page) : State := s.takeForce p (·.rws)

/-- RWS fields of a page take back the values in force that were kept in `old` (R12). -/
def State.restoreRws (s : State) (p : Page) (old : List (Nat × Word)) : State :=
  p.defs.foldl (init := s) fun s r =>
    (List.range (max r.count 1)).foldl (init := s) fun s i =>
      let off := r.off + i * r.stride
      let m := r.rws
      if m = 0 then s
      else s.rsetForce p off ((s.rforce p off &&& ~~~m) ||| ((sget 0#32 old (p.base + off) ^^^ p.resetVal off) &&& m))

end Sys2Proof.Machine
end

