-- ==== Sys2Proof/Machine/Status.lean ====
section
/-! DEFINITION. The status values of R309, the classes of R365 and the island numbers of R367. -/

namespace Sys2Proof.Machine.St

/-- `OK` (R309). -/
def ok : Nat := 0x0000
/-- `ACCEPTED` (R309). -/
def accepted : Nat := 0x0001
/-- `CANCELLED` (R309). -/
def cancelled : Nat := 0x0002
/-- `BCP_MALFORMED` (R309). -/
def bcpMalformed : Nat := 0x0010
/-- `BCP_TOO_LARGE` (R309). -/
def bcpTooLarge : Nat := 0x0011
/-- `UNSUPPORTED_OPERATION` (R309). -/
def unsupportedOperation : Nat := 0x0012
/-- `NOT_GROUP_HEAD` (R309). -/
def notGroupHead : Nat := 0x0013
/-- `HEAD_LOST` (R309). -/
def headLost : Nat := 0x0014
/-- `AUTH_REQUIRED` (R309). -/
def authRequired : Nat := 0x0015
/-- `SESSION_UNKNOWN` (R309). -/
def sessionUnknown : Nat := 0x0016
/-- `SESSION_LIMIT` (R309). -/
def sessionLimit : Nat := 0x0017
/-- `SEQ_STALE` (R309). -/
def seqStale : Nat := 0x0018
/-- `SEQ_WINDOW` (R309). -/
def seqWindow : Nat := 0x0019
/-- `SEQ_CONFLICT` (R309). -/
def seqConflict : Nat := 0x001A
/-- `QUEUE_FULL` (R309). -/
def queueFull : Nat := 0x001B
/-- `NOT_READY` (R309). -/
def notReady : Nat := 0x001C
/-- `QUIESCED` (R309). -/
def quiesced : Nat := 0x001D
/-- `PARAM_INVALID` (R309). -/
def paramInvalid : Nat := 0x001E
/-- `COMMAND_UNKNOWN` (R309). -/
def commandUnknown : Nat := 0x001F
/-- `COMMAND_FINISHED` (R309). -/
def commandFinished : Nat := 0x0020
/-- `CONFIG_ITEM_INVALID` (R309). -/
def configItemInvalid : Nat := 0x0021
/-- `BINDING_MISSING` (R309). -/
def bindingMissing : Nat := 0x0022
/-- `IMAGE_NOT_ACTIVE` (R309). -/
def imageNotActive : Nat := 0x0023
/-- `IMAGE_UNKNOWN` (R309). -/
def imageUnknown : Nat := 0x0024
/-- `IMAGE_SLOTS_FULL` (R309). -/
def imageSlotsFull : Nat := 0x0025
/-- `IMAGE_REGION_BUSY` (R309). -/
def imageRegionBusy : Nat := 0x0026
/-- `IMAGE_INCOMPLETE` (R309). -/
def imageIncomplete : Nat := 0x0027
/-- `IMAGE_MANIFEST_MISMATCH` (R309). -/
def imageManifestMismatch : Nat := 0x0028
/-- `IMAGE_STATE_INVALID` (R309). -/
def imageStateInvalid : Nat := 0x0029
/-- `SEGMENT_TABLE_INVALID` (R309). -/
def segmentTableInvalid : Nat := 0x0201
/-- `LENGTH_EXCEEDS_PLAN` (R309). -/
def lengthExceedsPlan : Nat := 0x0202
/-- `ROW_COUNTS_INVALID` (R309). -/
def rowCountsInvalid : Nat := 0x0203
/-- `KV_SPACE_EXHAUSTED` (R309). -/
def kvSpaceExhausted : Nat := 0x0204
/-- `ROUTE_DIVERGED` (R309). -/
def routeDiverged : Nat := 0x0205
/-- `EGRESS_PORT_DOWN` (R309). -/
def egressPortDown : Nat := 0x0206
/-- `ADDR_UNMAPPED` (R309). -/
def addrUnmapped : Nat := 0x0301
/-- `ADDR_NOT_PERMITTED` (R309). -/
def addrNotPermitted : Nat := 0x0302
/-- `ADDR_DEVICE_ABSENT` (R309). -/
def addrDeviceAbsent : Nat := 0x0303
/-- `REG_ACCESS_DENIED` (R309). -/
def regAccessDenied : Nat := 0x0304
/-- `UNIT_FENCED` (R309). -/
def unitFenced : Nat := 0x0305
/-- `MEM_CHANNEL_FAILED` (R309). -/
def memChannelFailed : Nat := 0x0306
/-- `KV_PAGE_NOT_OWNED` (R309). -/
def kvPageNotOwned : Nat := 0x0307
/-- `KV_PAGE_UNALLOCATED` (R309). -/
def kvPageUnallocated : Nat := 0x0308
/-- `KV_PAGE_READONLY` (R309). -/
def kvPageReadonly : Nat := 0x0309
/-- `KV_PAGE_UNAVAILABLE` (R309). -/
def kvPageUnavailable : Nat := 0x030A
/-- `STREAM_INDEX_RANGE` (R309). -/
def streamIndexRange : Nat := 0x030B
/-- `STREAM_INDEX_POISONED` (R309). -/
def streamIndexPoisoned : Nat := 0x030C
/-- `STREAM_TIMEOUT` (R309). -/
def streamTimeout : Nat := 0x030D
/-- `WAIT_TIMEOUT` (R309). -/
def waitTimeout : Nat := 0x0401
/-- `BARRIER_BROKEN` (R309). -/
def barrierBroken : Nat := 0x0402
/-- `BARRIER_GEN_STALE` (R309). -/
def barrierGenStale : Nat := 0x0403
/-- `DEBUG_FORCED` (R309). -/
def debugForced : Nat := 0x0404
/-- `COLLECTIVE_ABORT` (R309). -/
def collectiveAbort : Nat := 0x0405
/-- `LINK_TRAIN_FAILED` (R309). -/
def linkTrainFailed : Nat := 0x0501
/-- `LINK_NEIGHBOR_MISMATCH` (R309). -/
def linkNeighborMismatch : Nat := 0x0502
/-- `LINK_RETRAINED` (R309). -/
def linkRetrained : Nat := 0x0503
/-- `LINK_DEGRADED` (R309). -/
def linkDegraded : Nat := 0x0504
/-- `LINK_PORT_DOWN` (R309). -/
def linkPortDown : Nat := 0x0505
/-- `LINK_EDGE_DOWN` (R309). -/
def linkEdgeDown : Nat := 0x0506
/-- `LINK_UNREACHABLE` (R309). -/
def linkUnreachable : Nat := 0x0507
/-- `LINK_FLIT_INVALID` (R309). -/
def linkFlitInvalid : Nat := 0x0508
/-- `MGMT_LOST` (R309). -/
def mgmtLost : Nat := 0x0601
/-- `GROUP_LIFECYCLE_MISMATCH` (R309). -/
def groupLifecycleMismatch : Nat := 0x0602
/-- `LIFECYCLE_INVALID` (R309). -/
def lifecycleInvalid : Nat := 0x0603
/-- `CFG_UNINITIALISED` (R309). -/
def cfgUninitialised : Nat := 0x0604
/-- `ACC_SATURATED` (R309). -/
def accSaturated : Nat := 0x0701
/-- `MX_SCALE_RANGE` (R309). -/
def mxScaleRange : Nat := 0x0702
/-- `SPARSE_META_INVALID` (R309). -/
def sparseMetaInvalid : Nat := 0x0703
/-- `CHAIN_INDEX_RANGE` (R309). -/
def chainIndexRange : Nat := 0x0704
/-- `POWER_MODEL_MISMATCH` (R309). -/
def powerModelMismatch : Nat := 0x0801
/-- `AUTH_FAILED` (R309). -/
def authFailed : Nat := 0x0901
/-- `IMAGE_SIGNATURE_INVALID` (R309). -/
def imageSignatureInvalid : Nat := 0x0902

/-- The loader check of order n of R119 (R309). -/
def plan (n : Nat) : Nat := 0x0100 + n
/-- The chain check of order n of R146 (R309). -/
def chainCheck (n : Nat) : Nat := 0x0180 + n
/-- An error class (R365). -/
def clsCe : Nat := 0
/-- An error class (R365). -/
def clsUe : Nat := 1
/-- An error class (R365). -/
def clsLink : Nat := 2
/-- An error class (R365). -/
def clsTimeout : Nat := 3
/-- An error class (R365). -/
def clsProtocol : Nat := 4
/-- An error class (R365). -/
def clsPower : Nat := 5
/-- An error class (R365). -/
def clsThermal : Nat := 6
/-- An error class (R365). -/
def clsSecurity : Nat := 7
/-- An error class (R365). -/
def clsConfig : Nat := 8
/-- An error class (R365). -/
def clsService : Nat := 9

/-- Island of a compute core (R17, R388). -/
def islCore (c : Nat) : Nat := c
/-- Island of a link router. -/
def islLink (p : Nat) : Nat := 48 + p
/-- Island of an LPDDR5X controller group. -/
def islMem (g : Nat) : Nat := 56 + g
/-- Island of the Ethernet block. -/
def islEth : Nat := 64
/-- Island of the sync fabric. -/
def islSync : Nat := 65
/-- Island of a Gander core. -/
def islGander (n : Nat) : Nat := 66 + n
/-- The always-on island. -/
def islAon : Nat := 70

end Sys2Proof.Machine.St
end

