-- ==== Sys2Proof/Machine/Ops.lean ====
section
/-! DEFINITION. The shared operations over state: free values, cores and threads, error detections (R364 to R368), memory words and
their check codes (R148 to R162). -/

namespace Sys2Proof.Machine

/-! ### Free values -/

/-- The next value that the spec leaves open. -/
def State.nextFree (s : State) : Nat := Config.free s.freeCtr

/-- The state after a free value has been drawn. -/
def State.drawFree (s : State) : State := { s with freeCtr := s.freeCtr + 1 }

/-- The state after something has been sent. -/
def State.emit (s : State) (o : Output) : State := { s with out := s.out ++ [o] }

/-- The state after a list of things has been sent. -/
def State.emits (s : State) (os : List Output) : State := { s with out := s.out ++ os }

/-! ### The start-up state (R437, R439) -/

/-- `AON_STATUS.STATE` takes a value; ALERT# is asserted for a change of it (R437). -/
def State.toSt (s : State) (n : Nat) : State :=
  if s.rfield .aon 4 1 4 = n then s
  else
    let s1 := s.rput .aon 4 1 4 n
    { s1 with brd := { s1.brd with alertState := true } }

/-- The start-up status and its detail (R437). -/
def State.startSt (s : State) (st detail : Nat) : State :=
  (s.rput .aon 4 16 16 st).rset .aon 0x18 (BitVec.ofNat 32 (detail % 2 ^ 16))

/-- The device has been left out under R432 or R433. -/
def State.leftOut (s : State) : Bool := bitOf (s.rget .aon 0x1C).toNat 17

/-- The device stays out of every group (R432, R433): the first condition met shows. -/
def State.leaveOut (s : State) (st detail : Nat) : State :=
  if s.leftOut then s else ((s.toSt 6).startSt st detail).ror .aon 0x1C (2 ^ 17)

/-! ### Cores, barriers and counters by number -/

/-- Core c; a number past the last core reads as the last core. -/
def State.core (s : State) (c : Nat) : CoreState := s.cores[min c 47]'(by omega)

/-- The state with core c replaced. -/
def State.setCore (s : State) (c : Nat) (x : CoreState) : State :=
  if h : c < 48 then { s with cores := s.cores.set c x h } else s

/-- The state with a function applied to core c. -/
def State.modCore (s : State) (c : Nat) (f : CoreState → CoreState) : State := s.setCore c (f (s.core c))

/-- A thread of a core. -/
def CoreState.thread (x : CoreState) (t : Nat) : Thread := x.threads[min t 15]'(by omega)

/-- A core with one thread replaced. -/
def CoreState.setThread (x : CoreState) (t : Nat) (v : Thread) : CoreState :=
  if h : t < 16 then { x with threads := x.threads.set t v h } else x

/-- A core barrier of a slice. -/
def CoreState.bar (x : CoreState) (b : Nat) : CoreBar := x.bars[min b 31]'(by omega)

/-- A core with one barrier replaced. -/
def CoreState.setBar (x : CoreState) (b : Nat) (v : CoreBar) : CoreState :=
  if h : b < 32 then { x with bars := x.bars.set b v h } else x

/-- A unit of a core. -/
def CoreState.unit (x : CoreState) (u : Nat) : UnitRun := x.units[min u 7]'(by omega)

/-- A core with one unit replaced. -/
def CoreState.setUnit (x : CoreState) (u : Nat) (v : UnitRun) : CoreState :=
  if h : u < 8 then { x with units := x.units.set u v h } else x

/-- A group barrier. -/
def State.gbar (s : State) (g : Nat) : GroupBar := s.gbars[min g 63]'(by omega)

/-- The state with one group barrier replaced. -/
def State.setGbar (s : State) (g : Nat) (v : GroupBar) : State :=
  if h : g < 64 then { s with gbars := s.gbars.set g v h } else s

/-- A dispense counter. -/
def State.dsp (s : State) (n : Nat) : Dispense := s.dsps[min n 63]'(by omega)

/-- The state with one dispense counter replaced. -/
def State.setDsp (s : State) (n : Nat) (v : Dispense) : State :=
  if h : n < 64 then { s with dsps := s.dsps.set n v h } else s

/-- The context in class slot k. -/
def State.ctx (s : State) (k : Nat) : Option Ctx := s.ctxs[min k 3]'(by omega)

/-- The state with the context of slot k replaced. -/
def State.setCtx (s : State) (k : Nat) (v : Option Ctx) : State :=
  if h : k < 4 then { s with ctxs := s.ctxs.set k v h } else s

/-- The state with a function applied to the context of slot k, if there is one. -/
def State.modCtx (s : State) (k : Nat) (f : Ctx → Ctx) : State := s.setCtx k ((s.ctx k).map f)

/-- The context slot whose program a core runs. -/
def State.coreSlot (s : State) (c : Nat) : Option Nat := (s.core c).run.map (·.1)

/-- The context whose program a core runs. -/
def State.coreCtx (s : State) (c : Nat) : Option Ctx := (s.coreSlot c).bind s.ctx

/-! ### Error detections -/

/-- A compute core's unit or sub-unit (R364). -/
def unitCore (c sub : Nat) : UnitId := ⟨0, c, sub⟩
/-- A link router (R364). -/
def unitLink (p : Nat) : UnitId := ⟨1, p, 0xFF⟩
/-- An LPDDR5X controller group's channel (R364). -/
def unitMem (g ch : Nat) : UnitId := ⟨2, g, ch⟩
/-- A stacked SRAM die (R364). -/
def unitSram (d : Nat) : UnitId := ⟨3, d, 0xFF⟩
/-- The Ethernet block (R364). -/
def unitEth : UnitId := ⟨4, 0, 0xFF⟩
/-- The sync fabric (R364). -/
def unitSync : UnitId := ⟨5, 0, 0xFF⟩
/-- A Gander core (R364). -/
def unitGander (n : Nat) : UnitId := ⟨6, n, 0xFF⟩
/-- The power grant unit (R364). -/
def unitPwr : UnitId := ⟨7, 0, 0xFF⟩
/-- The security block (R364). -/
def unitSec : UnitId := ⟨8, 0, 0xFF⟩

/-- A new detection on this device (R364, R367): one occurrence, now, by the named unit. -/
def State.newRec (s : State) (cls status : Nat) (u : UnitId) (addr detail : Nat) : ErrRec :=
  { rseq := 0, cls := cls, loss := false, accused := false, hasCmd := false, status := status, device := s.devIndex, unit := u
    context := 0xFFFF, gseq := 0, count := 1, addr := addr, first := s.aonClk, last := s.aonClk
    firstRep := s.devIndex + 256 * u.index, lastRep := s.devIndex + 256 * u.index, detail := detail, action := 0, escal := 0 }

/-- A detection that belongs to the command of a context. -/
def ErrRec.ofCtx (r : ErrRec) : Option Ctx → ErrRec
  | none => r
  | some x => { r with hasCmd := true, context := x.id, gseq := x.gseq }

/-- Two detections coalesce (R367). -/
def ErrRec.same (a b : ErrRec) : Bool :=
  a.cls == b.cls && a.status == b.status && a.device == b.device && a.unit == b.unit

/-- A queue entry after a further detection (R367). -/
def ErrRec.coalesce (a b : ErrRec) : ErrRec :=
  { a with count := min (a.count + b.count) 0xFFFFFFFF, last := b.last, lastRep := b.lastRep }

/-- Update the first entry that coalesces with `r`. -/
def coalesceIn (r : ErrRec) : List ErrRec → Option (List ErrRec)
  | [] => none
  | a :: t => if a.same r then some (a.coalesce r :: t) else (coalesceIn r t).map (a :: ·)

/-- The list without its newest (last) CE entry (R368). -/
def dropNewestCe (l : List ErrRec) : Option (List ErrRec) :=
  let r := l.reverse
  if r.any (·.cls == St.clsCe) then some (r.eraseP (·.cls == St.clsCe)).reverse else none

/-- The error queue of an island. -/
def State.errQueue (s : State) (i : Nat) : ErrQueue := s.err.queues[min i 70]'(by omega)

/-- The state with an island's error queue replaced. -/
def State.setErrQueue (s : State) (i : Nat) (q : ErrQueue) : State :=
  if h : i < 71 then { s with err := { s.err with queues := s.err.queues.set i q h } } else s

/-- A record is lost: counted, flagged, and the island's next record carries LOSS (R368). -/
def State.lostRec (s : State) : State := (s.count48 .err 0x50 1).ror .err 0x4 4

/-- A detection forms a record in the queue of its island (R367, R368). -/
def State.raise (s : State) (isl : Nat) (r : ErrRec) : State :=
  let q := s.errQueue isl
  match coalesceIn r q.entries with
  | some l => (s.setErrQueue isl { q with entries := l }).count48 .err 0x48 1
  | none =>
    if q.entries.length < 16 then
      s.setErrQueue isl { entries := q.entries ++ [{ r with loss := q.lossPending }], lossPending := false }
    else if r.cls ≠ St.clsCe then
      match dropNewestCe q.entries with
      | some l => (s.setErrQueue isl { entries := l ++ [{ r with loss := true }], lossPending := false }).lostRec
      | none => (s.setErrQueue isl { q with lossPending := true }).lostRec
    else (s.setErrQueue isl { q with lossPending := true }).lostRec

/-- A detection by a unit of core c, on behalf of the command it runs. -/
def State.raiseCore (s : State) (c sub cls status addr detail : Nat) : State :=
  s.raise (St.islCore c) ((s.newRec cls status (unitCore c sub) addr detail).ofCtx (s.coreCtx c))

/-! ### Check codes -/

/-- Column values of the data bits of the (39,32) code (R156). -/
def hsiaoCols : List Nat :=
  [0x07, 0x0B, 0x0D, 0x0E, 0x13, 0x15, 0x16, 0x19, 0x1A, 0x1C, 0x23, 0x25, 0x26, 0x29, 0x2A, 0x2C,
   0x31, 0x32, 0x34, 0x38, 0x43, 0x45, 0x46, 0x49, 0x4A, 0x4C, 0x51, 0x52, 0x54, 0x58, 0x61, 0x62]

/-- The check bits of a word (R156). -/
def hsiao (w : Word) : BitVec 7 :=
  ((List.range 32).zip hsiaoCols).foldl (fun acc p => if w.getLsbD p.1 then acc ^^^ BitVec.ofNat 7 p.2 else acc) 0

/-- What a syndrome means (R157). -/
inductive WordKind where
  | good
  | corrected (bit : Option Nat)
  | poison
  | bad
deriving DecidableEq, Repr

/-- The reading of a syndrome (R157): a column value names the bit in error, a data bit or none for a check bit. -/
def wordKind (y : BitVec 7) : WordKind :=
  let n := y.toNat
  if n = 0 then .good
  else if n = 0x7F then .poison
  else
    match hsiaoCols.findIdx? (· == n) with
    | some i => .corrected (some i)
    | none => if [1, 2, 4, 8, 16, 32, 64].contains n then .corrected none else .bad

/-- The poison marker as a syndrome (R157). -/
def poisonSynd : BitVec 7 := 0x7F#7

/-! ### The address map -/

/-- The region of a local address (R148). -/
inductive Region where
  | lpddr | home | pool | kvTable
  | opBuf (c : Nat)
  | accum (c : Nat)
  | reg
  | redWin
  | unmapped
deriving DecidableEq, Repr

/-- Base of core c's buffer window (R148). -/
def opBufBase (c : Nat) : Nat := 0x8000000000 + c * 0x01000000
/-- Base of core c's accumulator memory (R148). -/
def accBase (c : Nat) : Nat := opBufBase c + 0x400000
/-- First address of the KV page table (R148). -/
def kvTableBase : Nat := 0x40FFE00000
/-- First address of stacked SRAM (R152). -/
def sramBase : Nat := 0x4000000000
/-- Bytes of a frame (R152). -/
def frameBytes : Nat := 0x200000

/-- The region that holds a local address (R148). -/
def regionOf (a : Nat) : Region :=
  if a < 0x1FFFFFE000 then .lpddr
  else if a < sramBase then .unmapped
  else if a < 0x40F0000000 then .home
  else if a < kvTableBase then .pool
  else if a < 0x4100000000 then .kvTable
  else if a < 0x8000000000 then .unmapped
  else if a < 0x8030000000 then
    let c := (a - 0x8000000000) / 0x01000000
    let o := (a - 0x8000000000) % 0x01000000
    if o < 0x400000 then .opBuf c else if o < 0x600000 then .accum c else .unmapped
  else if a < regBase then .unmapped
  else if a < regEnd then .reg
  else if a < 0xD000800000 then .redWin
  else .unmapped

/-- The die of a frame of stacked SRAM (R152). -/
def frameDie (f : Nat) : Nat := if f < 960 then 0 else if f < 1920 then 1 else if f < 1984 then 0 else 1

/-- The frame on which an access to frame f is carried out (R155, R173). -/
def State.remapFrame (s : State) (f : Nat) : Nat :=
  let es := (List.range 16).map fun i => (s.rget (.ssr (frameDie f)) (0x80 + 4 * i)).toNat
  match es.find? (fun e => bitOf e 31 && field e 0 11 == f) with
  | some e => field e 11 11
  | none => f

/-- Where an address is stored, after the remapping of frames (R155). -/
def State.phys (s : State) (a : Nat) : Nat :=
  if sramBase ≤ a ∧ a < 0x4100000000 then
    sramBase + s.remapFrame ((a - sramBase) / frameBytes) * frameBytes + (a - sramBase) % frameBytes
  else a

/-- The LPDDR5X channel that stores an address (R160). -/
def channelOf (a : Nat) : Nat := a / 256 % 80

/-- The unit that stores an address, for its records (R364, R366). -/
def unitOfAddr (a : Nat) : UnitId :=
  match regionOf a with
  | .lpddr => unitMem (channelOf a / 10) (channelOf a % 10)
  | .home | .pool | .kvTable => unitSram (frameDie ((a - sramBase) / frameBytes))
  | .opBuf c | .accum c => unitCore c 0x13
  | _ => unitSync

/-- The island that detects an error at an address. -/
def islandOfAddr (a : Nat) : Nat :=
  match regionOf a with
  | .lpddr => St.islMem (channelOf a / 10)
  | .opBuf c | .accum c => St.islCore c
  | .home => St.islCore ((a - sramBase) / 0x05000000)
  | _ => St.islSync

/-- "Where found" of R366. -/
def foundCode (a : Nat) : Nat :=
  match regionOf a with
  | .opBuf _ => 0
  | .accum _ => 1
  | .lpddr => 4
  | .redWin => 6
  | _ => 3

/-- The register page and offsets of the CE and UE counters of an address, with the status mask of UE_SEEN. -/
def eccCounters (a : Nat) : Option (Page × Nat × Nat) :=
  match regionOf a with
  | .lpddr => some (.mem (channelOf a / 10), 0x20, 0x28)
  | .home | .pool | .kvTable => some (.ssr (frameDie ((a - sramBase) / frameBytes)), 0x20, 0x28)
  | .opBuf c | .accum c => some (.cbuf c, 0x38, 0x40)
  | _ => none

/-! ### Words of memory -/

/-- The stored data bits of the word at a stored address. -/
def Mem.data (m : Mem) (a : Nat) : Word :=
  BitVec.ofNat 32 ((List.range 4).foldl (fun n i => n + (sget 0#8 m.cells (a + i)).toNat * 256 ^ i) 0)

/-- One stored byte. -/
def Mem.byte (m : Mem) (a : Nat) : Byte := sget 0#8 m.cells a

/-- Memory with the data bits and the syndrome of one word replaced. -/
def Mem.setWord (m : Mem) (a : Nat) (w : Word) (y : BitVec 7) : Mem :=
  { m with cells := ssetMany 0#8 m.cells 1 a (leBytes 4 w.toNat), synd := sset 0#7 m.synd a y
           seenBad := m.seenBad.map fun e => if e.1 = a then (a, true) else e }

/-- The kind of the stored word at `a`: a set granule poison bit poisons every word of the granule (R162). -/
def Mem.kind (m : Mem) (a : Nat) : WordKind :=
  if regionOf a = .lpddr ∧ sget false m.gran (a / 32) then .poison else wordKind (sget 0#7 m.synd a)

/-- The word as delivered: a single-bit error corrected, an uncorrectable word poisoned (R157). -/
def Mem.deliver (m : Mem) (a : Nat) : PWord :=
  let w := m.data a
  match m.kind a with
  | .good => ⟨w, false⟩
  | .corrected (some i) => ⟨w ^^^ BitVec.ofNat 32 (2 ^ i), false⟩
  | .corrected none => ⟨w, false⟩
  | .poison => ⟨w, true⟩
  | .bad => ⟨w, true⟩

/-- Global address of R366: this device and a local address. -/
def State.globalAddr (s : State) (a : Nat) : Nat := s.devIndex * 2 ^ 48 + a

/-- The fencing window in counts (R383, R388). -/
def State.fenceWindow (s : State) : Nat := max (s.ffield .err 8 16 8) 1 * 360000000000

/-- A parity error of a core (R61, R143): a second one within the window fences it (R383). -/
def State.noteParity (s : State) (c : Nat) : State :=
  s.modCore c fun x => { x with
    lastParity := some s.aonClk
    fenceDue := if x.lastParity.any (fun t => decide (s.aonClk < t + s.fenceWindow)) then some 1 else x.fenceDue }

/-- An uncorrectable word is read in a stored tier (R383): an SRAM word read so before and written since makes its frame due, the sixteenth
distinct granule within the window its channel. -/
def State.noteBad (s : State) (a : Nat) : State :=
  match regionOf a with
  | .lpddr =>
    let g := a / 32
    let l := (s.brd.granules.filter fun e => e.1 != g && decide (s.aonClk < e.2 + s.fenceWindow)) ++ [(g, s.aonClk)]
    let n := (l.filter fun e => channelOf (e.1 * 32) == channelOf a).length
    { s with brd := { s.brd with
        granules := l
        channelsDue := if 16 ≤ n && !s.brd.channelsDue.contains (channelOf a) then s.brd.channelsDue ++ [channelOf a] else s.brd.channelsDue } }
  | .home | .pool | .kvTable =>
    let f := (a - sramBase) / frameBytes
    let again := s.mem.seenBad.contains (a, true)
    { s with
      mem := { s.mem with seenBad := s.mem.seenBad.filter (·.1 != a) ++ [(a, false)] }
      brd := { s.brd with framesDue := if again && !s.brd.framesDue.any (·.1 == f) then s.brd.framesDue ++ [(f, 4)] else s.brd.framesDue } }
  | _ => s

/-- A correction in a stacked SRAM frame is counted (R383): 4,096 within the window make it due. -/
def State.noteCe (s : State) (a : Nat) : State :=
  match regionOf a with
  | .home | .pool | .kvTable =>
    let f := (a - sramBase) / frameBytes
    let e := match s.brd.ceCounts.find? (·.1 == f) with
      | some e => if s.aonClk < e.2.2 + s.fenceWindow then (f, e.2.1 + 1, e.2.2) else (f, 1, s.aonClk)
      | none => (f, 1, s.aonClk)
    { s with brd := { s.brd with
        ceCounts := s.brd.ceCounts.filter (·.1 != f) ++ [e]
        framesDue := if 4096 ≤ e.2.1 && !s.brd.framesDue.any (·.1 == f) then s.brd.framesDue ++ [(f, 5)] else s.brd.framesDue } }
  | _ => s

/-- The counters and records that reading the word at `a` gives (R157, R158, R162): `who` is the unit that reads it. A demand scrub
rewrites a corrected word. `cx` is the context on whose behalf the word is read. -/
def State.noteWord (s : State) (who : UnitId) (isl a patrol : Nat) (cx : Option Ctx := none) : State :=
  let m := s.mem
  let detail := (sget 0#7 m.synd a).toNat + 256 * foundCode a + 2 ^ 16 * patrol
  match m.kind a with
  | .good => s
  | .poison =>
    match regionOf a with
    | .lpddr => s.count48 (.mem (channelOf a / 10)) 0x30 1
    | _ => s
  | .corrected _ =>
    let s1 := match eccCounters a with
      | some (p, ce, _) => s.count48 p ce 1
      | none => s
    let s2 := (s1.noteCe a).raise isl { (s1.newRec St.clsCe 0 who (s1.globalAddr a) detail).ofCtx cx with action := 1 }
    let scrub := match regionOf a with
      | .lpddr => bitOf (s2.rforce (.mem (channelOf a / 10)) 8).toNat 1
      | .home | .pool | .kvTable => bitOf (s2.rforce (.ssr (frameDie ((a - sramBase) / frameBytes))) 8).toNat 1
      | _ => false
    if scrub || patrol == 1 then { s2 with mem := s2.mem.setWord a (m.deliver a).bits 0 } else s2
  | .bad =>
    let s1 := match eccCounters a with
      | some (p, _, ue) => (s.count48 p ue 1).ror p 4 2
      | none => s
    let s2 := match regionOf a with
      | .lpddr =>
        let g := a / 32 * 32
        (s1.rset (.mem (channelOf a / 10)) 0x10 (BitVec.ofNat 32 g)).rset (.mem (channelOf a / 10)) 0x14
          (BitVec.ofNat 32 (g / 2 ^ 32))
      | _ => s1
    (s2.noteBad a).raise isl ((s2.newRec St.clsUe 0 who (s2.globalAddr a) detail).ofCtx cx)

/-- `n` words from local address `a` as delivered. -/
def State.peekWords (s : State) (a n : Nat) : List PWord := (List.range n).map fun i => s.mem.deliver (s.phys (a + 4 * i))

/-- Addresses among `n` words from `a` that are delivered poisoned. -/
def State.poisonAddrs (s : State) (a n : Nat) : List Nat :=
  ((List.range n).filter fun i => (s.mem.deliver (s.phys (a + 4 * i))).poison).map fun i => a + 4 * i

/-- The records and counters of reading `n` words from `a`. -/
def State.noteWords (s : State) (who : UnitId) (isl a n : Nat) (cx : Option Ctx := none) : State :=
  (List.range n).foldl (fun s i => s.noteWord who isl (s.phys (a + 4 * i)) 0 cx) s

/-- Bytes `a` to `a + n − 1` as delivered, with the poison of any word among them. -/
def State.peekBytes (s : State) (a n : Nat) : List Byte × Bool :=
  let a0 := a / 4 * 4
  let k := (a + n + 3) / 4 - a / 4
  let ws := s.peekWords a0 (if n = 0 then 0 else k)
  (((ws.flatMap fun w => leBytes 4 w.bits.toNat).drop (a - a0)).take n, ws.any (·.poison))

/-- Bytes as stored, taken without checks: what firmware reads of an image, of which its own checks have been made. -/
def State.rawBytes (s : State) (a n : Nat) : List Byte := (List.range n).map fun i => s.mem.byte (s.phys (a + i))

/-- Set the granule poison bits after words from `a` were written (R162): a granule written whole with no poisoned word is cleared;
one of which a written word is poisoned is set. -/
def Mem.granules (m : Mem) (a : Nat) (ws : List PWord) : Mem :=
  let g0 := a / 32
  let g1 := (a + 4 * ws.length + 31) / 32
  (List.range (g1 - g0)).foldl (init := m) fun m i =>
    let g := g0 + i
    let mine := ((List.range ws.length).zip ws).filter fun p => decide ((a + 4 * p.1) / 32 = g)
    if mine.any (·.2.poison) then { m with gran := sset false m.gran g true }
    else if mine.length = 8 then { m with gran := sset false m.gran g false }
    else m

/-- Write one word: its data bits with the check bits the code gives, or with the poison marker (R156, R157). -/
def State.putWord (s : State) (a : Nat) (w : PWord) : State :=
  { s with mem := s.mem.setWord (s.phys a) w.bits (if w.poison then poisonSynd else 0) }

/-- The LPDDR5X controller merges partial writes of granules (R162): where it finds an uncorrectable syndrome in a granule that a write of
`n` words from `a` covers in part, it raises its record and sets the granule's poison bit. -/
def State.mergeGranules (s : State) (a n : Nat) : State :=
  if n = 0 then s else
  let g0 := a / 32
  let g1 := (a + 4 * n + 31) / 32
  (List.range (g1 - g0)).foldl (init := s) fun s i =>
    let g := g0 + i
    if a ≤ 32 * g ∧ 32 * g + 32 ≤ a + 4 * n then s
    else
      let bad := ((List.range 8).map fun j => 32 * g + 4 * j).filter fun x => s.mem.kind x == .bad
      if bad.isEmpty then s
      else
        let s1 := bad.foldl (fun s x => s.noteWord (unitOfAddr x) (islandOfAddr x) x 0) s
        { s1 with mem := { s1.mem with gran := sset false s1.mem.gran g true } }

/-- Write words from local address `a`. -/
def State.putWords (s : State) (a : Nat) (ws : List PWord) : State :=
  let s0 := if regionOf a = .lpddr then s.mergeGranules a ws.length else s
  let s1 := ((List.range ws.length).zip ws).foldl (fun s p => s.putWord (a + 4 * p.1) p.2) s0
  if regionOf a = .lpddr then { s1 with mem := s1.mem.granules a ws } else s1

/-- Write part of one word as a read-modify-write (R154, R159, R162): an uncorrectable or poisoned word stays poisoned, and an
uncorrectable one raises its record. -/
def State.mergeWord (s : State) (who : UnitId) (isl a : Nat) (keep : Nat → Bool) (bytes : Nat → Byte) : State :=
  let p := s.phys a
  let s1 := if s.mem.kind p = .bad ∧ regionOf p ≠ .lpddr then s.noteWord who isl p 0 else s
  let old := s.mem.deliver p
  let ob := leBytes 4 old.bits.toNat
  let nb := (List.range 4).map fun i => if keep i then ob.getD i 0 else bytes i
  s1.putWords a [⟨BitVec.ofNat 32 (leNat nb), old.poison⟩]

/-- The words of a byte list, little-endian; up to three bytes left over are dropped. -/
def wordsOf : List Byte → List PWord
  | a :: b :: c :: d :: t => ⟨BitVec.ofNat 32 (leNat [a, b, c, d]), false⟩ :: wordsOf t
  | _ => []

/-- Write bytes from local address `a`: the whole words at once, a part of a word at either end by read-modify-write. -/
def State.putBytes (s : State) (who : UnitId) (isl a : Nat) (bs : List Byte) : State :=
  let e := a + bs.length
  let get := fun wa j => bs.getD (wa + j - a) 0
  let part := fun (s : State) wa => s.mergeWord who isl wa (fun j => !decide (a ≤ wa + j ∧ wa + j < e)) (get wa)
  let w0 := (a + 3) / 4
  let w1 := e / 4
  if bs.isEmpty then s
  else if w1 < w0 then part s (4 * w1)
  else
    let s1 := if a % 4 = 0 then s else part s (a / 4 * 4)
    let s2 := s1.putWords (4 * w0) (wordsOf (bs.drop (4 * w0 - a)))
    if e % 4 = 0 then s2 else part s2 (4 * w1)

/-- Write zero-poisoned words over a range, as when a frame is taken for a remap (R155). -/
def State.poisonRange (s : State) (a nwords : Nat) : State := s.putWords a (List.replicate nwords ⟨0, true⟩)

/-! ### Access rights of streams, Mule transfers and threads -/

/-- Whether an access by a stream, a Mule transfer or a thread to a local address is refused (R31, R148, R149, R384): the status
with which it completes. `self` is the core whose own datapaths make it, if any. -/
def State.refusal (s : State) (write : Bool) (a : Nat) : Option Nat :=
  match regionOf a with
  | .unmapped => some St.addrUnmapped
  | .kvTable | .redWin | .reg => some St.addrNotPermitted
  | .accum c => if (s.core c).fenced then some St.unitFenced else if write then some St.addrNotPermitted else none
  | .opBuf c => if (s.core c).fenced then some St.unitFenced else none
  | _ => none

/-- The refusal of a whole range: the first refused word. -/
def State.refusalRange (s : State) (write : Bool) (a n : Nat) : Option Nat :=
  (s.refusal write a).orElse fun _ => if n = 0 then none else s.refusal write (a + n - 1)

end Sys2Proof.Machine
end

