-- ==== Sys2Proof/Machine/LinkBase.lean ====
section
/-! DEFINITION. Sending over the links: routing and port choice (R251, R253), virtual channels, credits and the order of flits (R245,
R246), the replay buffer (R241), datagrams (R256) and broadcasts (R255). -/

namespace Sys2Proof.Machine

/-- A port by number. -/
def State.port (s : State) (p : Nat) : Port := s.links.ports[min p 7]'(by omega)

/-- The state with a port replaced. -/
def State.setPort (s : State) (p : Nat) (x : Port) : State :=
  if h : p < 8 then { s with links := { s.links with ports := s.links.ports.set p x h } } else s

/-- The Ethernet dimension d4 (0) or d5 (1). -/
def State.ethDim (s : State) (i : Nat) : EthDim := s.links.eths[min i 1]'(by omega)

/-- The state with an Ethernet dimension replaced. -/
def State.setEthDim (s : State) (i : Nat) (x : EthDim) : State :=
  if h : i < 2 then { s with links := { s.links with eths := s.links.eths.set i x h } } else s

/-- The number of dimensions of the group: 4, 5 or 6 for 16, 32 or 64 devices; none before formation. -/
def State.dims (s : State) : Nat := if s.grp.size = 0 then 4 else Nat.log2 s.grp.size

/-- The port carries sequenced traffic (R247, R250). -/
def Port.up (x : Port) : Bool := x.st == .active || x.st == .colt

/-- The edge of dimension k is up: not marked down under R253 or R257. -/
def State.edgeUp (s : State) (k : Nat) : Bool :=
  if k < 4 then !bitOf (s.rget (.lnk (2 * k)) 4).toNat 9 else !(s.ethDim (k - 4)).down

/-- The dimension over which a flit for device d leaves, having arrived over `from?` (R251, R253); none when no path is left. -/
def State.hop (s : State) (d : Nat) (from? : Option Nat) : Option Nat :=
  let diff := s.devIndex ^^^ d
  let set := (List.range 6).filter fun k => diff.testBit k
  let want := match set.filter (fun k => some k != from?) with
    | k :: _ => some k
    | [] => set.head?
  match want with
  | none => none
  | some k =>
    if s.edgeUp k then some k
    else ((List.range s.dims).filter fun m => m != k && s.edgeUp m && some m != from?).head?

/-- The port of dimension k for a flit (R251, R252): `sel` picks between the two for VC1 and VC2; a port that is not up leaves its
traffic to the other. -/
def State.pickPort (s : State) (k vc : Nat) (sel : Bool) : Nat :=
  let p := if vc = 1 ∨ vc = 2 then 2 * k + b01 sel else 2 * k
  let q := if p % 2 = 0 then p + 1 else p - 1
  if (s.port p).up || !(s.port q).up then p else q

/-- A VC of a port can send a flit now: one waits, a credit is held and the replay buffer has room (R241, R245). -/
def Port.ready (x : Port) (v : Nat) : Bool :=
  x.up && !x.handing && decide (x.replay.length < 512) && decide (0 < x.credits.toList.getD v 0) &&
    !((x.queues.toList.getD v []).isEmpty)

/-- The VC that sends the next flit, and the port with its shares adjusted (R246). `cap` and `quanta` are `LNK_VCW` in force. -/
def Port.pick (x : Port) (cap : Nat) (quanta : List Nat) : Option (Nat × Port) :=
  let others := [1, 2, 3].filter x.ready
  if x.ready 0 && (decide (x.vc0Sent < max cap 1) || others.isEmpty) then some (0, { x with vc0Sent := x.vc0Sent + 1 })
  else
    match others.filter (fun v => decide (0 < x.deficits.toList.getD v 0)) with
    | v :: _ => some (v, { x with deficits := x.deficits.mapIdx fun i d => if i = v then d - 1 else d })
    | [] =>
      match others with
      | [] => none
      | v :: _ =>
        some (v, { x with deficits := x.deficits.mapIdx fun i _ => max (quanta.getD i 0) 1 - (if i = v then 1 else 0) })

/-- Take the first waiting flit of a VC into the replay buffer under the port's next SEQ (R241). -/
def Port.take (x : Port) (v : Nat) : Option (Sent × Port) :=
  match x.queues.toList.getD v [] with
  | [] => none
  | f :: rest =>
    let e : Sent := ⟨x.txSeq, 1, f⟩
    let w := x.window + 1
    some (e, { x with
      queues := x.queues.mapIdx fun i q => if i = v then rest else q
      credits := x.credits.mapIdx fun i c => if i = v then c - 1 else c
      replay := x.replay ++ [e], txSeq := (x.txSeq + 1) % 4096
      window := w % 256, vc0Sent := if w = 256 then 0 else x.vc0Sent })

/-- Send what a port can send, at most `fuel` flits. -/
def State.drainPort (p : Nat) : Nat → State → State
  | 0, s => s
  | fuel + 1, s =>
    let w := (s.rforce (.lnk p) 0xC).toNat
    match (s.port p).pick (field w 0 8) [0, field w 8 8, field w 16 8, field w 24 8] with
    | none => s
    | some (v, x) =>
      match x.take v with
      | none => s
      | some (e, y) =>
        State.drainPort p fuel (((s.setPort p y).count48 (.lnk p) 0x20 1).emit (.flit p (some e.seq) e.flit))

/-- Flits that wait on a port. -/
def Port.waiting (x : Port) : Nat := (x.queues.toList.map List.length).sum

/-- Send what a port can send now, with the shares that a new round takes (R12, R246). -/
def State.drain (s : State) (p : Nat) : State := (s.takeRw (.lnk p)).drainPort p (s.port p).waiting

/-- Put a flit on a VC queue of a port and send what can be sent. -/
def State.enqueue (s : State) (p : Nat) (f : Flit) : State :=
  let x := s.port p
  (s.setPort p { x with queues := x.queues.mapIdx fun i q => if i = f.vc then q ++ [f] else q }).drain p

/-- Datagrams can leave: the port is up and no PFC pause holds the priority of d4 and d5 (R313, R331). -/
def State.linkOpen (s : State) : Bool := s.rfield (.eth 0) 4 1 2 != 0 && !s.svc.paused.testBit (s.rfield (.eth 0) 0xC 3 3)

/-- Send what an Ethernet dimension can send as one datagram per call (R256): at most 256 unacknowledged datagrams. -/
def State.drainEth (s : State) (i : Nat) : State :=
  let x := s.ethDim i
  if x.down || !s.linkOpen || decide (256 ≤ x.unacked.length) then s
  else
    let per := min 27 ((min (s.rfield (.eth 0) 8 0 14) 9216 - 60) / 336)
    let fs := ((x.queues.toList.zip x.credits.toList).flatMap fun q => q.1.take q.2).take (max per 1)
    if fs.isEmpty then s
    else
      let cnt := fun v => (fs.filter (·.vc == v)).length
      let d : Datagram := ⟨x.txSeq, 1, fs⟩
      ((s.setEthDim i { x with
        txSeq := (x.txSeq + 1) % 2 ^ 32, unacked := x.unacked ++ [d]
        queues := x.queues.mapIdx fun v q => q.drop (cnt v)
        credits := x.credits.mapIdx fun v c => c - cnt v }).count48 (.eth 0) 0x40 1).emit (.datagram (4 + i) d.seq ((x.rxNext + 2 ^ 32 - 1) % 2 ^ 32) fs [])

/-- Put a flit on its way over dimension k. -/
def State.sendOver (s : State) (k : Nat) (sel : Bool) (f : Flit) : State :=
  if k < 4 then s.enqueue (s.pickPort k f.vc sel) f
  else
    let x := s.ethDim (k - 4)
    (s.setEthDim (k - 4) { x with queues := x.queues.mapIdx fun i q => if i = f.vc then q ++ [f] else q }).drainEth (k - 4)

/-- The router's record of traffic for a device that no path reaches (R253, R272). -/
def State.unreachRec (s : State) (dst : Nat) : State :=
  let k := (((List.range 6).filter fun k => (s.devIndex ^^^ dst).testBit k).head?).getD 0
  s.raise (St.islLink (min (2 * k) 7)) (s.newRec St.clsLink St.linkUnreachable (unitLink (min (2 * k) 7)) 0 (k + 256 * dst))

/-- Send or forward a flit toward its destination; with no path left the router drops it and raises its record (R251, R253, R272). -/
def State.sendFlit (s : State) (from? : Option Nat) (sel : Bool) (f : Flit) : State :=
  match s.hop f.dst from? with
  | some k => s.sendOver k sel f
  | none => s.unreachRec f.dst

/-- Cut words into parts of 64 with their byte offsets and whether they are the last; `fuel` is at least the number of words. -/
def chunks64 : Nat → Nat → List Word → List (Nat × List Word × Bool)
  | 0, _, _ => []
  | fuel + 1, off, ws =>
    if ws.length ≤ 64 then [(off, ws, true)] else (off, ws.take 64, false) :: chunks64 fuel (off + 256) (ws.drop 64)

/-- The flits of a SYNC message (R243). -/
def State.syncFlits (s : State) (dst sub : Nat) (bcast : Option Nat) (ws : List Word) : List Flit :=
  (chunks64 (ws.length + 1) 0 ws).map fun p =>
    { ftype := 7, vc := 0, last := p.2.2, dst := dst, src := s.devIndex, addr := p.1, tid := 48 * 256 + s.freeCtr % 256
      aux := sub + (match bcast with | some k => 256 + 512 * k | none => 0)
      words := (if p.2.1.isEmpty then [0] else p.2.1).map fun w => ⟨w, false⟩ }

/-- Send a SYNC message to one device. -/
def State.sendSync (s : State) (dst sub : Nat) (ws : List Word) : State :=
  (s.syncFlits dst sub none ws).foldl (fun s f => s.sendFlit none false f) s

/-- Send or forward a broadcast over the dimensions from `k0` up to `dims` (R255); one whose edge is down takes the detour (R253). -/
def State.castOver (s : State) (k0 dims sub src : Nat) (ws : List Word) : State :=
  ((List.range dims).filter fun k => decide (k0 ≤ k)).foldl (init := s) fun s k =>
    (s.syncFlits (s.devIndex ^^^ 2 ^ k) sub (some k) ws).foldl (init := s) fun s f =>
      let g := { f with src := src }
      if s.edgeUp k then s.sendOver k false g else s.sendFlit none false g

/-- Broadcast a SYNC message to every member (R255). -/
def State.broadcast (s : State) (sub : Nat) (ws : List Word) : State := s.castOver 0 s.dims sub s.devIndex ws

/-- The words of a 64-bit value, low word first. -/
def words64 (x : Nat) : List Word := [BitVec.ofNat 32 x, BitVec.ofNat 32 (x / 2 ^ 32)]

end Sys2Proof.Machine
end

