-- ==== Sys2Proof/Machine/Operands.lean ====
section
/-! DEFINITION. Where a tile program's operations find their operands: loops and the row map (R90, R94 to R99, R103), tensors (R87,
R91), accumulator slots (R101, R102), statistic entries (R122) and each thread's operation sequence (R90, R91). -/

namespace Sys2Proof.Machine

/-- The shape of a program; a reserved code has been rejected by the loader (R93). -/
def Prog.sh (p : Prog) : Shape := (shapeOf p.shape).getD ⟨8, 64, 64, 128, 1, 64, 1, 0⟩

/-- The first loop record of a kind. -/
def Prog.loop? (p : Prog) (kind : Nat) : Option LoopRec := p.loops.find? (·.kind == kind)

/-- The level at which a loop kind stands, counted from 1 (R90); 0 when absent. -/
def Prog.levelOf (p : Prog) (kind : Nat) : Nat :=
  match p.loops.findIdx? (·.kind == kind) with
  | some i => i + 1
  | none => 0

/-- The index of a loop kind in an index tuple. -/
def LoopIdx.get (x : LoopIdx) : Nat → Nat
  | 0 => x.g | 1 => x.n | 2 => x.mg | 3 => x.k | _ => x.mi

/-- An index tuple with one index set. -/
def LoopIdx.set (x : LoopIdx) (kind v : Nat) : LoopIdx :=
  match kind with
  | 0 => { x with g := v } | 1 => { x with n := v } | 2 => { x with mg := v } | 3 => { x with k := v } | _ => { x with mi := v }

/-- The first index tuple. -/
def LoopIdx.zero : LoopIdx := ⟨0, 0, 0, 0, 0⟩

/-! ### The row map -/

/-- The rows of one block: `len` valid rows padded to a multiple of 64 (R95). -/
def blockRows (first len pos keys seg : Nat) : List RowInfo :=
  (List.range (roundUp len 64)).map fun i => ⟨first + i, decide (i < len), pos + i, keys, seg⟩

/-- The row map of the segment table (R95): for each segment, `fold` blocks. -/
def rowMapFrom (fold : Nat) : Nat → Nat → List Seg → List RowInfo
  | _, _, [] => []
  | first, k, g :: gs =>
    let c := roundUp g.len 64
    ((List.range fold).flatMap fun f => blockRows (first + f * c) g.len g.pos g.keys k) ++
      rowMapFrom fold (first + fold * c) (k + 1) gs

/-- Cut a list of rows into groups of `n` (R103); `fuel` is at least its length. -/
def cutRows (n : Nat) : Nat → List RowInfo → List (List RowInfo)
  | 0, _ => []
  | _, [] => []
  | fuel + 1, l => l.take n :: cutRows n fuel (l.drop n)

/-- Split the rows of the map at segment boundaries. -/
def splitSegs (l : List RowInfo) : List (List RowInfo) :=
  (l.foldl (fun acc r => if acc.contains r.seg then acc else acc ++ [r.seg]) []).map fun k => l.filter (·.seg == k)

/-- The G loop takes its row counts from a count vector (R97). -/
def Prog.perProblem (p : Prog) : Bool := (p.loop? 0).any (·.src == 3)

/-- Rows of the map that problem g runs over (R95, R97). -/
def ProgRun.rowsOf (r : ProgRun) (g : Nat) : List RowInfo :=
  if r.prog.perProblem then
    let first := ((r.counts.take g).map fun c => roundUp c 64).sum
    let c := r.counts.getD g 0
    (List.range (roundUp c 64)).map fun i => ⟨first + i, decide (i < c), i, c, 0⟩
  else rowMapFrom r.prog.fold 0 0 r.segs

/-- The M groups of problem g (R99, R103). -/
def ProgRun.groups (r : ProgRun) (g : Nat) : List (List RowInfo) :=
  let rows := r.rowsOf g
  if !r.prog.msplit then (if rows.isEmpty then [] else [rows])
  else
    let parts := if r.prog.segAlign then splitSegs rows else [rows]
    parts.flatMap fun l => cutRows r.prog.groupRows l.length l

/-- The rows of the current M group. -/
def ProgRun.group (r : ProgRun) (x : LoopIdx) : List RowInfo := (r.groups x.g).getD x.mg []

/-! ### Loops -/

/-- Iterations of a loop before skipping (R88, R94). -/
def ProgRun.trip (r : ProgRun) (l : LoopRec) (x : LoopIdx) : Nat :=
  match l.kind with
  | 0 => if l.src = 3 then r.counts.length else ceilDiv l.extent (max l.step 1)
  | 2 => (r.groups x.g).length
  | 4 => if l.src = 1 then ceilDiv (r.group x).length (max l.step 1) else ceilDiv l.extent (max l.step 1)
  | _ => ceilDiv l.extent (max l.step 1)

/-- Why an iteration never runs (R98): its first key is past every key count of the group, or above the diagonal. -/
inductive Skip where
  | none | length | causal
deriving DecidableEq, Repr

/-- The skipping of iteration v of a loop (R98). -/
def ProgRun.skip (r : ProgRun) (l : LoopRec) (x : LoopIdx) (v : Nat) : Skip :=
  if !l.keys then .none
  else
    let rows := r.group x
    let p := v * l.step
    if rows.all (fun w => decide (w.keys ≤ p)) then .length
    else if l.causal && (rows.filter (·.valid)).all (fun w => decide (w.pos < p)) then .causal
    else .none

/-- The iterations of a loop that run. -/
def ProgRun.iters (r : ProgRun) (l : LoopRec) (x : LoopIdx) : List Nat :=
  (List.range (r.trip l x)).filter fun v => r.skip l x v == .none

/-- The tuples of the dispensed loops that are live, first-listed loop most significant (R98, R104). -/
def ProgRun.enumerate (r : ProgRun) : List LoopRec → LoopIdx → List LoopIdx
  | [], x => if (r.group x).any (·.valid) then [x] else []
  | l :: ls, x => (r.iters l x).flatMap fun v => ProgRun.enumerate r ls (x.set l.kind v)

/-- The live tiles of a run (R104). -/
def ProgRun.liveTiles (r : ProgRun) : List LoopIdx := r.enumerate (r.prog.loops.filter (·.dispensed)) .zero

/-! ### Operation sequences -/

/-- An operation of a thread in one iteration: its record's number and the loop indices. -/
abbrev OpAt := Nat × LoopIdx

/-- Cut a thread's records into runs at or above `level` and runs below it, in record order (R90). -/
def splitBody (level : Nat) : List (Nat × OpRec) → List (Bool × List (Nat × OpRec))
  | [] => []
  | o :: os =>
    let deep := decide (level < o.2.level)
    match splitBody level os with
    | [] => [(deep, [o])]
    | (d, g) :: rest => if d = deep then (d, o :: g) :: rest else (deep, [o]) :: (d, g) :: rest

/-- A thread's structured body over the loops inside the current level (R90); a dispensed loop keeps the tile's index. -/
def ProgRun.body (r : ProgRun) : List LoopRec → Nat → LoopIdx → List (Nat × OpRec) → List OpAt
  | [], _, x, ops => ops.map fun o => (o.1, x)
  | l :: ls, level, x, ops =>
    (splitBody level ops).flatMap fun p =>
      if p.1 then
        (if l.dispensed then [x.get l.kind] else r.iters l x).flatMap fun v => ProgRun.body r ls (level + 1) (x.set l.kind v) p.2
      else p.2.map fun o => (o.1, x)

/-- A thread carries two PASS records for one unit at one level, so their INIT bits are honoured (R91). -/
def Prog.paired (p : Prog) (o : OpRec) : Bool :=
  match o.body with
  | .pass u .. =>
    (p.ops.filter fun q => q.thread == o.thread && q.level == o.level &&
      (match q.body with | .pass u' .. => u' == u | _ => false)).length ≥ 2
  | _ => false

/-- Whether an operation is issued in an iteration: of a pair of PASS records, the one whose INIT bit agrees (R91). -/
def Prog.issues (p : Prog) (o : OpAt) : Bool :=
  match p.ops[o.1]? with
  | none => false
  | some q =>
    match q.body with
    | .pass _ _ _ _ _ _ init .. => !p.paired q || init == decide (o.2.k = 0)
    | _ => true

/-- The operation sequence of thread t for a tile (R90). -/
def ProgRun.sequence (r : ProgRun) (tile : LoopIdx) (t : Nat) : List OpAt :=
  let ops := ((List.range r.prog.ops.length).zip r.prog.ops).filter fun o => o.2.thread == t
  (r.body r.prog.loops 0 tile ops).filter r.prog.issues

/-- Iterations of loops that are not dispensed which a tile skips, by reason (R98). -/
def ProgRun.skips (r : ProgRun) (why : Skip) : List LoopRec → LoopIdx → Nat
  | [], _ => 0
  | l :: ls, x =>
    let vs := if l.dispensed then [x.get l.kind] else List.range (r.trip l x)
    (vs.map fun v =>
      let k := if l.dispensed then Skip.none else r.skip l x v
      if k == .none then ProgRun.skips r why ls (x.set l.kind v) else if k == why then 1 else 0).sum

/-! ### Tensors -/

/-- The record of a tensor; a number past the last one names none. -/
def Prog.tensor (p : Prog) (i : Nat) : Option Tensor := p.tensors[i]?

/-- The base bound to a slot by the schedule (R87). -/
def ProgRun.bound (r : ProgRun) (slot : Nat) : Nat := ((r.binds.find? (·.1 == slot)).map (·.2)).getD 0

/-- The base of a tensor as core c sees it (R87): a local address in tiers 0 to 2, an offset of the paged KV space in tier 3, a global
address in tier 4. -/
def ProgRun.base (r : ProgRun) (devIndex c : Nat) (t : Tensor) : Nat :=
  let b := if t.bind = 0 then 0 else r.bound t.bind
  match t.tier with
  | 0 => opBufBase c + b + t.offset
  | 4 => (if t.bind = 0 then devIndex * 2 ^ 48 else 0) + b + t.offset
  | _ => b + t.offset

/-! ### Slots and statistic entries -/

/-- Λ of R101. -/
def Prog.lambda (p : Prog) : Nat := p.sh.units * p.sh.su * (p.rg / 64) * (1 + b01 p.dbuf)

/-- The slot of row block b, column sub-slot c of unit u in half h (R102). -/
def Prog.slot (p : Prog) (slotBase u h b c : Nat) : Nat :=
  slotBase + u * (p.lambda / p.sh.units) + h * p.sh.su * (p.rg / 64) + b * p.sh.su + c

/-- The slot of row block b, column sub-slot c of the second region (R134). -/
def Prog.slot2 (p : Prog) (first s2 h b c : Nat) : Nat := first + h * s2 * (p.rg / 64) + b * s2 + c

/-- The address of row r of a slot of core c (R150). -/
def slotRowAddr (core slot row : Nat) : Nat := accBase core + slot * 0x4000 + row * 0x100

/-- The statistic entry of row i of the M group on unit u in half h (R122). -/
def Prog.entry (p : Prog) (u h i : Nat) : Nat := u * (8192 / p.sh.units) + h * p.rg + i

/-- The slots that PASS records of a unit start at: `SLOT_BASE` of the first PASS on the unit (R91, R102). -/
def Prog.slotBaseOf (p : Prog) (u : Nat) : Nat :=
  ((p.ops.filterMap fun o => match o.body with
    | .pass u' _ _ _ _ _ _ _ sb .. => if u' = u then some sb else none
    | _ => none).head?).getD 0

/-! ### Formats along K -/

/-- The weight is 4-bit, so the pass runs in 4-bit mode (R37). -/
def fourBit (wfmt : Nat) : Bool := field wfmt 0 4 == 1 || field wfmt 0 4 == 4

/-- K per pass of a pass (R93): doubled under 2:4 sparsity. -/
def Shape.kpp (sh : Shape) (wfmt : Nat) (sparse : Bool) : Nat :=
  (if fourBit wfmt then sh.kpp4 else sh.kpp8) * (if sparse then 2 else 1)

end Sys2Proof.Machine
end

