-- ==== Sys2Proof/Machine/HenBase.lean ====
section
/-! DEFINITION. The Hen's objects: watches and their messages (R209 to R212), core barriers (R203, R204), group barriers (R206, R207), lending
(R219) and the breaking of a context's objects (R215). -/

namespace Sys2Proof.Machine

/-! ### Status codes of watch messages (R210) -/

/-- Condition met. -/
def wmMet : Nat := 0
/-- `WAIT_TIMEOUT`. -/
def wmTimeout : Nat := 1
/-- `BARRIER_BROKEN`. -/
def wmBroken : Nat := 2
/-- `BARRIER_GEN_STALE`. -/
def wmStale : Nat := 3
/-- `DEBUG_FORCED`. -/
def wmForced : Nat := 4
/-- Failure of the awaited stream or collective. -/
def wmFailed : Nat := 5

/-- A watch message (R210). -/
def watchMsg (kind obj status context : Nat) : Word :=
  BitVec.ofNat 32 (put kind 0 4 + put obj 4 6 + put status 10 3 + put context 16 16)

/-- The read cache of core c is invalidated (R165). -/
def State.invalidate (s : State) (c : Nat) : State :=
  (s.modCore c fun x => { x with cache := [] }).count48 (.cbuf c) 0x30 1

/-- The tile of unit u of core c with a failure or a taint noted. -/
def State.modTile (s : State) (c u : Nat) (f : TileRun → TileRun) : State :=
  s.modCore c fun x => x.setUnit u { x.unit u with cur := (x.unit u).cur.map f }

/-- A failure status of the tile on a unit (R372). -/
def State.failTile (s : State) (c u status : Nat) : State := s.modTile c u fun t => { t with fails := t.fails ++ [status] }

/-- An uncorrectable word at a buffer address is met by a tile (R383): a second tile makes the buffer's core due. -/
def State.noteBuffer (s : State) (key a : Nat) : State :=
  match regionOf (a % 2 ^ 48), s.mem.kind (s.phys (a % 2 ^ 48)) with
  | .opBuf d, .bad => go s d
  | .accum d, .bad => go s d
  | _, _ => s
where
  /-- The word is one of core d's. -/
  go (s : State) (d : Nat) : State :=
    let s1 : State := { s with brd := { s.brd with badWords := s.brd.badWords.filter (· != (a, key)) ++ [(a, key)] } }
    if s.brd.badWords.any fun e => e.1 == a && e.2 != key then s1.modCore d fun x => { x with fenceDue := some (x.fenceDue.getD 2) } else s1

/-- Addresses that taint the tile on a unit (R372). -/
def State.taintTile (s : State) (c u : Nat) (as : List Nat) : State :=
  if as.isEmpty then s
  else
    let run := (s.coreCtx c).map fun x => (x.gseq, (x.run.map (·.index)).getD 0)
    let key := (((s.core c).unit u).cur.map (·.num)).getD 0 + 2 ^ 32 * ((run.map (·.2)).getD 0 + 1024 * ((run.map (·.1)).getD 0))
    (as.foldl (fun s a => s.noteBuffer key a) s).modTile c u fun t => { t with taints := t.taints ++ as }

/-- What a failed wait does to the waiting thread's tile (R203, R212, R215, R218). -/
def State.waitStatus (s : State) (c u status : Nat) (own : Option Nat) : State :=
  if status = wmTimeout then s.failTile c u St.waitTimeout
  else if status = wmBroken then s.failTile c u St.barrierBroken
  else if status = wmStale then s.failTile c u St.barrierGenStale
  else if status = wmForced then
    match s.coreSlot c with
    | some k => s.modCtx k fun x => { x with forced := true }
    | none => s
  else if status = wmFailed then s.failTile c u (own.getD St.collectiveAbort)
  else s

/-- A thread's watch fires: its message is posted, the cache is invalidated when it carries ACQ and its condition is met, and a
failure is noted for its tile (R209 to R212). -/
def State.fire (s : State) (c t status : Nat) (own : Option Nat := none) : State :=
  let x := s.core c
  let th := x.thread t
  match th.watch with
  | none => s
  | some w =>
    let s1 := s.setCore c (x.setThread t { th with watch := none, mbox := watchMsg w.kind w.obj status x.owner })
    let s2 := s1.count48 (.hen c) 0x20 1
    let s3 := if w.acq && status == wmMet then s2.invalidate c else s2
    s3.waitStatus c w.unit status own

/-- The ticks of a watch kind's limit (R209): `HEN_CTRL.BAR_TMO`, `HENG_CTRL.GB_TMO`; the kinds with no expiry of their own get 0. -/
def State.watchLimit (s : State) (c kind : Nat) : Nat :=
  match kind with
  | 1 => max (s.ffield (.heng 0) 8 0 16) 1
  | 5 => 0
  | 6 => 0
  | 8 => 0
  | _ => max (s.ffield (.hen c) 8 0 16) 1

/-- A thread of the running program can still issue: it has operations left in some unit's tile and holds no watch. -/
def State.threadIssuing (s : State) (c t : Nat) : Bool :=
  let x := s.core c
  match s.coreCtx c with
  | none => false
  | some k =>
    match k.run with
    | none => false
    | some r =>
      (x.thread t).watch.isNone &&
        (List.range 8).any fun u =>
          match (x.unit u).cur with
          | none => false
          | some tl =>
            match r.live[tl.num]? with
            | none => false
            | some tile => decide (sget 0 tl.pos t < (r.sequence tile t).length)

/-- Some thread of the core is issuing (R219). -/
def State.coreIssuing (s : State) (c : Nat) : Bool := (List.range 16).any (s.threadIssuing c)

/-- The core lends its whole grant (R219, R339): it falls to the floor charge. -/
def State.lend (s : State) (c : Nat) : State :=
  let s1 := s.modCore c fun x => { x with lent := true, charge := 0, demoted := none }
  { s1 with pwr := { s1.pwr with order := s1.pwr.order.filter (· != c) } }

/-- R219, barrier wait: no thread is issuing and some thread holds a watch of kind 0 or 1. -/
def State.lendIfWaiting (s : State) (c : Nat) : State :=
  let x := s.core c
  if !x.lent && decide (0 < x.charge) && !s.coreIssuing c &&
      x.threads.toList.any (fun t => match t.watch with | some w => decide (w.kind ≤ 1) | none => false)
  then s.lend c else s

/-- Register a watch for a thread (R209, R212): its count is its limit plus one. -/
def State.register (s : State) (c t : Nat) (kind obj want : Nat) (acq signaller : Bool) (u : Nat) : State :=
  let x := s.core c
  let w : Watch := ⟨kind, obj, want, acq, signaller, u, s.watchLimit c kind + 1, 0⟩
  (s.setCore c (x.setThread t { x.thread t with watch := some w })).lendIfWaiting c

/-! ### Core barriers -/

/-- The distance of R203: (generation − E) mod 2¹⁶. -/
def genDist (gen e : Nat) : Nat := (gen + 65536 - e % 65536) % 65536

/-- Wake the waiters of a phase barrier whose generation is reached (R203); a forced release wakes every waiter (R218). -/
def State.wakePhase (s : State) (c b status : Nat) (own : Option Nat := none) : State :=
  let x := s.core c
  let bar := x.bar b
  let ready := bar.waiters.filter fun t =>
    match (x.thread t).watch with
    | some w => decide (genDist bar.gen w.want < 32768) || status == wmForced
    | none => true
  let s1 := s.setCore c (x.setBar b { bar with waiters := bar.waiters.filter fun t => !ready.contains t })
  ready.foldl (fun s t => s.fire c t status own) s1

/-- A phase barrier releases: its generation advances and its arrivals return to zero (R203). -/
def State.releasePhase (s : State) (c b status : Nat) (own : Option Nat := none) : State :=
  let x := s.core c
  let bar := x.bar b
  (s.setCore c (x.setBar b { bar with gen := (bar.gen + 1) % 65536, arrived := 0 })).wakePhase c b status own

/-- One arrival at a phase barrier (R203): a SIGNAL, or a stream completion that names it. -/
def State.arrivePhase (s : State) (c b : Nat) (status : Nat := wmMet) (own : Option Nat := none) : State :=
  let x := s.core c
  let bar := x.bar b
  if bar.st ≠ .open then s
  else if bar.arrived + 1 < bar.parts then s.setCore c (x.setBar b { bar with arrived := bar.arrived + 1 })
  else s.releasePhase c b status own

/-- A consumption of a credit barrier, with its re-base at PARTS (R204). -/
def CoreBar.consume (b : CoreBar) : CoreBar :=
  if b.consumed + 1 = b.parts then
    { b with gen := (b.gen + 1) % 65536, arrived := b.arrived - b.parts, consumed := 0 }
  else { b with consumed := b.consumed + 1 }

/-- Serve the waiters of a credit barrier in the order they registered (R204): a waiting WAIT takes an item, a waiting SIGNAL takes
room; `fuel` bounds the number served. -/
def State.serveCredit (c b : Nat) : Nat → State → State
  | 0, s => s
  | fuel + 1, s =>
    let x := s.core c
    let bar := x.bar b
    let can := fun t =>
      match (x.thread t).watch with
      | some w => if w.signaller then decide (bar.arrived < bar.consumed + bar.cmax) else decide (bar.consumed < bar.arrived)
      | none => false
    match bar.waiters.find? can with
    | none => s
    | some t =>
      let sig := match (x.thread t).watch with | some w => w.signaller | none => false
      let rest := { bar with waiters := bar.waiters.filter (· != t) }
      let bar' := if sig then { rest with arrived := rest.arrived + 1 } else rest.consume
      State.serveCredit c b fuel ((s.setCore c (x.setBar b bar')).fire c t wmMet)

/-- Serve every waiter of a credit barrier that can be served. -/
def State.serve (s : State) (c b : Nat) : State := s.serveCredit c b (((s.core c).bar b).waiters.length + 16)

/-- The signal of a stream or a Mule transfer at its `DONE_BAR`, 0x3F for none (R176, R187); that of a failed one gives its status to the threads
that it wakes (R188). -/
def State.signalDone (s : State) (c bar : Nat) (failed : Option Nat) : State :=
  if bar < 32 then s.arrivePhase c bar (if failed.isSome then wmFailed else wmMet) failed else s

/-! ### Group barriers -/

/-- What a message of the current generation is held under: generation and context. -/
def GroupBar.key (b : GroupBar) : Nat := b.gen + 65536 * b.context

/-- The SYNC ARRIVE payload (R207, R243). -/
def arriveWords (g k gen context : Nat) : List Word :=
  [BitVec.ofNat 32 (put g 0 6 + put k 6 3), BitVec.ofNat 32 (put gen 0 16 + put context 16 16)]

/-- Carry a group barrier's arrival over the dimensions in order, as far as the messages held allow (R207 step 2). -/
def State.gProgress (g : Nat) : List Nat → State → State
  | [], s => s
  | k :: ks, s =>
    let b := s.gbar g
    if !bitOf b.dims k || bitOf b.done k then State.gProgress g ks s
    else
      let s1 := if bitOf b.sent k then s
        else (s.setGbar g { b with sent := b.sent + 2 ^ k }).sendSync (s.devIndex ^^^ 2 ^ k) 3 (arriveWords g k b.gen b.context)
      let b1 := s1.gbar g
      if b1.msgs.contains (b1.key, k) then
        State.gProgress g ks (s1.setGbar g { b1 with done := b1.done + 2 ^ k, msgs := b1.msgs.filter (· != (b1.key, k)) })
      else s1

/-- Every dimension of a group barrier is complete (R207 step 3). -/
def GroupBar.complete (b : GroupBar) : Bool := b.own && decide (b.done = b.dims)

/-- The time from this device's own arrival at a group barrier to its release adds to the slack of R350. -/
def State.addSlack (s : State) (g : Nat) : State :=
  let d := ((s.pwr.arrivedAt.find? (·.1 == g)).map fun e => s.aonClk - e.2).getD 0
  { s with pwr := { s.pwr with slack := s.pwr.slack + d, arrivedAt := s.pwr.arrivedAt.filter (·.1 != g) } }

/-- Release a group barrier and wake its waiters (R207 step 3). -/
def State.gRelease (s : State) (g status : Nat) : State :=
  let b := s.gbar g
  let s1 := (s.addSlack g).setGbar g { b with gen := (b.gen + 1) % 65536, arrived := 0, own := false, sent := 0, done := 0, waiters := [] }
  (b.waiters.foldl (fun s w => s.fire w.1 w.2 status) s1).count48 (.heng 0) 0x20 1

/-- Take a group barrier as far as it goes; answers whether it released. A frozen barrier counts and exchanges but does not release
(R214). -/
def State.gStep (s : State) (g : Nat) : State × Bool :=
  let b := s.gbar g
  let s1 := if !b.own && decide (b.localParts ≤ b.arrived) && (b.st == .open || b.st == .frozen) then
      let p := s.setGbar g { b with own := true }
      { p with pwr := { p.pwr with arrivedAt := p.pwr.arrivedAt.filter (·.1 != g) ++ [(g, p.aonClk)] } }
    else s
  let s2 := if (s1.gbar g).own then s1.gProgress g (List.range 6) else s1
  if (s2.gbar g).complete && (s2.gbar g).st == .open then (s2.gRelease g wmMet, true) else (s2, false)

/-- A local arrival at a group barrier (R206). -/
def State.gArrive (s : State) (g : Nat) : State × Bool :=
  let b := s.gbar g
  if b.st = .open ∨ b.st = .frozen then (s.setGbar g { b with arrived := b.arrived + 1 }).gStep g else (s, false)

/-! ### Breaking (R215, R216) -/

/-- Break a core barrier: its waiters are released with BARRIER_BROKEN. -/
def State.breakBar (s : State) (c b : Nat) : State :=
  let x := s.core c
  let bar := x.bar b
  if bar.st = .free then s
  else
    (bar.waiters.foldl (fun s t => s.fire c t wmBroken) (s.setCore c (x.setBar b { bar with st := .broken, waiters := [] })))

/-- Break a group barrier on this device. -/
def State.breakGbar (s : State) (g : Nat) : State :=
  let b := s.gbar g
  if b.st = .free then s
  else b.waiters.foldl (fun s w => s.fire w.1 w.2 wmBroken) (s.setGbar g { b with st := .broken, waiters := [] })

/-- The cores whose slice context slot k owns. -/
def State.slotCores (s : State) (k : Nat) : List Nat :=
  (List.range 48).filter fun c => (s.core c).run.any (·.1 == k)

/-- Release every other watch of a core's threads with BARRIER_BROKEN. -/
def State.breakWatches (s : State) (c : Nat) : State := (List.range 16).foldl (fun s t => s.fire c t wmBroken) s

/-- Every object that context slot k owns becomes BROKEN, saved state included (R215). -/
def State.breakCtx (s : State) (k : Nat) : State :=
  let s1 := (s.slotCores k).foldl (fun s c => ((List.range 32).foldl (fun s b => s.breakBar c b) s).breakWatches c) s
  let s2 := (List.range 16).foldl (fun s i => s.breakGbar (16 * k + i)) s1
  let d := s2.dsp k
  let s3 := if d.st = .free then s2 else s2.setDsp k { d with st := .broken }
  (List.range 48).foldl (fun s c => s.modCore c fun x => { x with saved := x.saved.filter (·.1 != k) }) s3

end Sys2Proof.Machine
end

