-- ==== Sys2Proof/Machine/Issue.lean ====
section
/-! DEFINITION. The next operation of a thread for a unit's tile, and its issue (R90, R209, R219, R336). -/

namespace Sys2Proof.Machine

/-- An operation about to be issued: the context slot, its run, the tile, the tile's indices, the record and its iteration. -/
structure OpCtx where
  slot : Nat
  run : ProgRun
  tile : TileRun
  tileIdx : LoopIdx
  rcd : OpRec
  at_ : OpAt

/-- A thread's operation waits for the thread's own earlier work: every operation for a CHAIN of it in the vector engine (R123), and every
operation but a pass or a WAIT for its conversions, so that a SIGNAL follows the writes before it (R110, R228). -/
def CoreState.ownHold (x : CoreState) (t : Nat) (b : OpBody) : Bool :=
  (x.vec.queue ++ (match x.vec.run with | some r => [r.op] | none => [])).any (·.thread == t) ||
    (match b with
    | .pass .. => false
    | .wait .. => false
    | _ => x.convs.any (·.thread == t))

/-- The next operation of thread t for the tile on unit u of core c. None when the core runs no program or its context is frozen, the
unit holds no tile, the thread holds a watch or waits for its own work, or the thread has no operation left. -/
def State.nextOp (s : State) (c u t : Nat) : Option OpCtx :=
  let x := s.core c
  if x.fenced then none
  else
    match s.coreSlot c, s.coreCtx c, (x.unit u).cur with
    | some k, some cx, some tl =>
      match cx.run with
      | none => none
      | some r =>
        if (x.thread t).watch.isSome then none
        else
          match r.live[tl.num]? with
          | none => none
          | some ti =>
            match (r.sequence ti t)[sget 0 tl.pos t]? with
            | none => none
            | some o =>
              match r.prog.ops[o.1]? with
              | none => none
              | some q => if x.ownHold t q.body then none else some ⟨k, r, tl, ti, q, o⟩
    | _, _, _ => none

/-- The thread moves past its operation, in one issuing cycle (R32). -/
def State.advance (s : State) (c u t : Nat) : State :=
  (s.modTile c u fun tl => { tl with pos := sset 0 tl.pos t (sget 0 tl.pos t + 1) }).count64 (.core c) 0x18 1

/-- An operation of the tile is issued and not complete. -/
def State.openOp (s : State) (c u : Nat) : State := s.modTile c u fun tl => { tl with open_ := tl.open_ + 1 }

/-- The core may issue passes and chain operations: it holds leave and has not lent its grant (R219, R336). -/
def State.mayIssue (s : State) (c : Nat) : Bool := !(s.core c).lent && decide (0 < (s.core c).charge)

/-- The unit whose Lambs an operation of a tile on unit u names: `UNIT` counted from the tile's own unit. -/
def unitAt (p : Prog) (field u : Nat) : Nat := (field + u) % p.sh.units

/-- The Lambs of a unit as a mask (R49, R93). -/
def lambMask (p : Prog) (u : Nat) : Nat := (2 ^ p.sh.lambs - 1) * 2 ^ (u * p.sh.lambs)

/-- Row r of a slot as the next reader of it sees it: as the latest pass in flight will leave it, or as it stands (R42, R82, R134). -/
def State.slotRow (s : State) (c addr : Nat) : List PWord :=
  match ((s.core c).flights.reverse.flatMap (·.writes)).find? (·.addr == addr) with
  | some w => w.words
  | none => s.peekWords addr 64

/-- A base tensor of a run, or a tensor of zeros when the record names none. -/
def OpCtx.tensor (o : OpCtx) (i : Nat) : Tensor := (o.run.prog.tensor i).getD ⟨0, 0, 0, 0, 0, 0, 0, 0, 0, 0, 0⟩

/-- The base of a tensor of the run. -/
def OpCtx.base (o : OpCtx) (s : State) (c i : Nat) : Nat := o.run.base s.devIndex c (o.tensor i)

/-- The valid bit of row i under a MASK tensor (R39); no tensor leaves every row valid. -/
def State.maskBit (s : State) (o : OpCtx) (c maskT i : Nat) : Bool :=
  if maskT = 0x3F then true
  else bitOf (byteOfPeek s (o.base s c maskT + i / 8)) (i % 8)
where
  /-- One byte as delivered. -/
  byteOfPeek (s : State) (a : Nat) : Nat := ((s.peekBytes a 1).1.headD 0).toNat

/-- The GMM record of a program, with its number. -/
def Prog.gmm? (p : Prog) : Option (Nat × OpBody) :=
  ((((List.range p.ops.length).zip p.ops).filterMap fun o => match o.2.body with
    | .gmm .. => some (o.1, o.2.body)
    | _ => none).head?)

/-- The MRS record of a program, with its number. -/
def Prog.mrs? (p : Prog) : Option (Nat × OpBody) :=
  ((((List.range p.ops.length).zip p.ops).filterMap fun o => match o.2.body with
    | .mrs .. => some (o.1, o.2.body)
    | _ => none).head?)

/-- The staging tensor of the program's GMM, if it has one (R114). -/
def Prog.stageT (p : Prog) : Option Nat :=
  match p.gmm? with
  | some (_, .gmm _ _ _ _ _ _ _ st) => some st
  | _ => none

/-- The rank of a device in a group of dimensions (R259): its index bits in `dims`, packed in ascending order. -/
def rankOf (dims dev : Nat) : Nat :=
  (((List.range 6).filter fun k => dims.testBit k).foldl (fun (a : Nat × Nat) k => (a.1 + b01 (dev.testBit k) * 2 ^ a.2, a.2 + 1))
    (0, 0)).1

/-- The device of a rank: `dev` with its bits in `dims` replaced (R259). -/
def deviceOfRank (dims dev rank : Nat) : Nat :=
  let ks := (List.range 6).filter fun k => dims.testBit k
  ((List.range ks.length).zip ks).foldl (init := dev - (dev &&& dims)) fun a p => a + b01 (rank.testBit p.1) * 2 ^ p.2

/-- The piece that iteration k of a GMM's K loop takes (R112). -/
def gmmPiece (kxor : Bool) (rank pieceK kpp k : Nat) : Nat :=
  let j := k / max (pieceK / max kpp 1) 1
  if kxor then j ^^^ rank else j

/-- The gather of the current M group. -/
def ProgRun.gather (r : ProgRun) (mg : Nat) : Option Gather := r.gathers.find? (·.mg == mg)

end Sys2Proof.Machine
end

