-- ==== Sys2Proof/Machine/LambCalc.lean ====
section
/-! DEFINITION. The arithmetic of a pass: the weight tile's lines (R440), the steps of a column (R38, R54, R74), the chain of single
roundings (R41, R46, R48, R63, R73) and the statistic tap (R135). -/

namespace Sys2Proof.Machine

/-- The parameters of a pass as its unit runs it. -/
structure PassCfg where
  op : Nat
  sparse : Bool
  afmt : Nat
  wfmt : Nat
  passes : Nat
  n : Nat
  depth : Nat
deriving DecidableEq, Repr

/-- The element format of a code. -/
def elemOf (fmt : Nat) : Elem := (Elem.ofCode (field fmt 0 4)).getD .raw8

/-- The chain format is FP32 (R38); HAMMING and GTCOUNT count in INT32 (R46). -/
def PassCfg.isFloat (p : PassCfg) : Bool := (elemOf p.afmt).isFloat && decide (p.op < 5)

/-- 4-bit mode (R37). -/
def PassCfg.four (p : PassCfg) : Bool := fourBit p.wfmt

/-- The dense K index at which line ℓ starts (R440). -/
def PassCfg.lineK (p : PassCfg) (l : Nat) : Nat :=
  if p.sparse then (if p.four then 4 * l else 4 * (l / 2)) else if p.four then 2 * l else l

/-- Line ℓ ends a group of 2:4 metadata (R440). -/
def PassCfg.endsGroup (p : PassCfg) (l : Nat) : Bool := p.sparse && (p.four || l % 2 == 1)

/-- Line ℓ holds a scale row (R71, R440). -/
def PassCfg.hasScale (p : PassCfg) (l : Nat) : Bool :=
  let b := blockSize p.wfmt
  decide (b ≠ 0) && !(p.sparse && !p.four && l % 2 == 1) &&
    decide (p.lineK l % (if blockDir p.wfmt then 8 else b) = 0)

/-- Bytes of one scale row. -/
def PassCfg.scaleRow (p : PassCfg) : Nat := if blockDir p.wfmt then p.n / blockSize p.wfmt else p.n

/-- Slices held of the weight (R77). -/
def PassCfg.wSlices (p : PassCfg) : Nat := if p.passes = 3 then 2 else 1

/-- Bytes of line record ℓ (R440). -/
def PassCfg.lineSize (p : PassCfg) (l : Nat) : Nat :=
  roundUp (p.n * p.wSlices + (if p.endsGroup l then p.n / 2 else 0) +
    (if p.hasScale l then p.scaleRow * p.wSlices else 0)) 4

/-- Offset of line record ℓ in the weight tile. -/
def PassCfg.lineOff (p : PassCfg) : Nat → Nat
  | 0 => 0
  | l + 1 => p.lineOff l + p.lineSize l

/-- S_W, the size of the weight tile (R440). -/
def PassCfg.tileBytes (p : PassCfg) : Nat := p.lineOff p.depth

/-- The line whose scale row serves line ℓ: the latest line at or before it that holds one. -/
def PassCfg.scaleLine (p : PassCfg) : Nat → Nat
  | 0 => 0
  | l + 1 => if p.hasScale (l + 1) then l + 1 else p.scaleLine l

/-- Offset in the tile of the scale byte of column n that serves line ℓ, for slice 0 (high) or 1 (low). -/
def PassCfg.scaleOff (p : PassCfg) (l n slice : Nat) : Nat :=
  let s := p.scaleLine l
  p.lineOff s + p.n * p.wSlices + (if p.endsGroup s then p.n / 2 else 0) + slice * p.scaleRow +
    (if blockDir p.wfmt then n / blockSize p.wfmt else n)

/-- A byte of a block, past its end zero. -/
def byteOf (bs : List Byte) (i : Nat) : Nat := (bs.getD i 0).toNat

/-- The two dense indices that the metadata of the group of line ℓ gives column n (R440). -/
def PassCfg.groupIdx (p : PassCfg) (w : List Byte) (l n : Nat) : Nat × Nat :=
  let e := if p.four then l else l / 2 * 2 + 1
  let b := field (byteOf w (p.lineOff e + p.n * p.wSlices + n / 2)) (4 * (n % 2)) 4
  (b % 4, b / 4)

/-- Every group of the tile has strictly ascending indices (R55). -/
def PassCfg.metaOk (p : PassCfg) (w : List Byte) : Bool :=
  !p.sparse || (List.range p.depth).all fun l =>
    !p.endsGroup l || (List.range p.n).all fun n => let i := p.groupIdx w l n; decide (i.1 < i.2)

/-- The pairs of one cell step: the dense K index in the pass, and the weight codes of the high and low slice (R37, R54, R74). -/
def PassCfg.step (p : PassCfg) (w : List Byte) (l n : Nat) : List (Nat × Nat × Nat) :=
  let hi := byteOf w (p.lineOff l + n)
  let lo := if p.passes = 3 then byteOf w (p.lineOff l + p.n + n) else 0
  let i := p.groupIdx w l n
  if p.four then
    let k0 := if p.sparse then 4 * l + i.1 else 2 * l
    let k1 := if p.sparse then 4 * l + i.2 else 2 * l + 1
    [(k0, hi % 16, 0), (k1, hi / 16, 0)]
  else if p.sparse then [(4 * (l / 2) + (if l % 2 = 0 then i.1 else i.2), hi, 0)]
  else [(l, hi, lo)]

/-- One operand row of a pass: the codes of its high and low slice elements and its scale bytes by K index of the pass, with the
address of a scale byte. -/
structure RowIn where
  hi : Nat → Nat
  lo : Nat → Nat
  scaleHi : Nat → Option Nat
  scaleLo : Nat → Option Nat
  scaleAddr : Nat → Nat

/-- The weight side of a pass: the tile's bytes, whether a block of (K index, column) is zero, and the tile's address. -/
structure TileIn where
  bytes : List Byte
  zero : Nat → Nat → Bool
  addr : Nat

/-- A chain's outcome: the value, whether an INT32 step saturated (R63), and the first step whose scales were out of range, with the
addresses of its weight and activation scale bytes (R73, R443). -/
structure ChainOut where
  c : Word
  sat : Bool
  mx : Option (Nat × Nat)
deriving DecidableEq, Repr

/-- The exponent of a step's scales for one slice of each operand; none for a NaN scale. -/
def stepExp (a w : Option Nat) : Option Int :=
  match a.map e8m0, w.map e8m0 with
  | some none, _ => none
  | _, some none => none
  | some (some x), some (some y) => some (x + y)
  | some (some x), none => some x
  | none, some (some y) => some y
  | none, none => some 0

/-- The larger of two values in the order of MAX, −0 below +0 (R48). -/
def fmax (a b : FVal) : FVal := if a = .nan ∨ b = .nan then .nan else if b.above a then b else a

/-- The smaller of two values in the order of MIN. -/
def fmin (a b : FVal) : FVal := if a = .nan ∨ b = .nan then .nan else if a.above b then b else a

/-- The bits of a chain value: the canonical NaN, or the value's own rounding. -/
def bits32 (v : FVal) : Word := round32 v

/-- The exact step value of a floating-point MAC (R38, R74). -/
def macStep (p : PassCfg) (r : RowIn) (t : TileIn) (l n : Nat) : FVal :=
  let ea := elemOf p.afmt
  let ew := elemOf p.wfmt
  let wsc := fun sl => if blockSize p.wfmt = 0 then none else some (byteOf t.bytes (p.scaleOff l n sl))
  let term := fun (a w : FVal) (sa sw : Option Nat) =>
    match stepExp sa sw with
    | none => FVal.nan
    | some e => (a.mul w).scale e
  (p.step t.bytes l n).foldl (init := none) (fun acc q =>
    let z := t.zero q.1 n
    let wh := ew.decode (if z then 0 else q.2.1)
    let wl := ew.decode (if z then 0 else q.2.2)
    let ah := ea.decode (r.hi q.1)
    let al := ea.decode (r.lo q.1)
    let ts := term ah wh (r.scaleHi q.1) (wsc 0) ::
      (if p.passes = 1 then [] else [term al wh (r.scaleLo q.1) (wsc 0)]) ++
      (if p.passes = 3 then [term ah wl (r.scaleHi q.1) (wsc 1)] else [])
    ts.foldl (fun acc v => some (match acc with | none => v | some x => FVal.add x v)) acc) |>.getD .zero

/-- The integer term of a step: products exact, times the shift of the scales, which lies in 0 to 15; none when it does not (R73, R76). -/
def intStep (p : PassCfg) (r : RowIn) (t : TileIn) (l n : Nat) : Option Int :=
  let ea := elemOf p.afmt
  let ew := elemOf p.wfmt
  let val := fun (el : Elem) code => signed el.width code
  let wsc := if blockSize p.wfmt = 0 then none else some (byteOf t.bytes (p.scaleOff l n 0))
  (p.step t.bytes l n).foldl (init := some 0) fun acc q =>
    match acc, stepExp (r.scaleHi q.1) wsc with
    | some x, some e =>
      if e < 0 ∨ e > 15 then none
      else
        let a := if p.passes = 2 then 128 * val ea (r.hi q.1) + val ea (r.lo q.1) else val ea (r.hi q.1)
        some (x + a * val ew (if t.zero q.1 n then 0 else q.2.1) * ((2 ^ e.toNat : Nat) : Int))
    | _, _ => none

/-- Saturating INT32 (R63). -/
def satInt (i : Int) : Word × Bool :=
  if i > 2147483647 then (0x7FFFFFFF, true)
  else if i < -2147483648 then (0x80000000, true)
  else (BitVec.ofInt 32 i, false)

/-- The identity of an operation (R46). -/
def PassCfg.identity (p : PassCfg) : Word :=
  match p.op, p.isFloat with
  | 3, true => 0xFF800000
  | 3, false => 0x80000000
  | 4, true => 0x7F800000
  | 4, false => 0x7FFFFFFF
  | _, _ => 0

/-- Bits set in a byte. -/
def popcount8 (x : Nat) : Nat := ((List.range 8).filter x.testBit).length

/-- One cell step on a chain (R46, R48). -/
def cellStep (p : PassCfg) (r : RowIn) (t : TileIn) (l n : Nat) (c : ChainOut) : ChainOut :=
  let ea := elemOf p.afmt
  let ew := elemOf p.wfmt
  let pairs := (p.step t.bytes l n).map fun q => (ea.decode (r.hi q.1), ew.decode q.2.1)
  let ipairs := (p.step t.bytes l n).map fun q => (signed ea.width (r.hi q.1), signed ew.width q.2.1)
  let addInt := fun (i : Int) =>
    let x := satInt (c.c.toInt + i)
    { c with c := x.1, sat := c.sat || x.2 }
  match p.op with
  | 0 =>
    if p.isFloat then { c with c := bits32 ((val32 c.c).add (macStep p r t l n)) }
    else
      match intStep p r t l n with
      | some i => addInt i
      | none =>
        { c with mx := c.mx.or (some (if blockSize p.wfmt = 0 then 0 else t.addr + p.scaleOff l n 0,
            if blockSize p.afmt = 0 then 0 else r.scaleAddr (p.lineK l))) }
  | 1 =>
    if p.isFloat then
      { c with c := bits32 ((val32 c.c).add
          ((pairs.map fun q => let d := q.1.sub q.2; d.mul d).foldl (fun a b => a.add b) .zero)) }
    else addInt ((ipairs.map fun q => (q.1 - q.2) * (q.1 - q.2)).sum)
  | 2 =>
    if p.isFloat then
      { c with c := bits32 ((val32 c.c).add ((pairs.map fun q => (q.1.sub q.2).abs).foldl (fun a b => a.add b) .zero)) }
    else addInt ((ipairs.map fun q => ((q.1 - q.2).natAbs : Int)).sum)
  | 3 =>
    if p.isFloat then
      { c with c := bits32 (pairs.foldl (fun a q => fmax a (val32 (round32 (q.1.add q.2)))) (val32 c.c)) }
    else { c with c := BitVec.ofInt 32 (ipairs.foldl (fun a q => max a (q.1 + q.2)) c.c.toInt) }
  | 4 =>
    if p.isFloat then
      { c with c := bits32 (pairs.foldl (fun a q => fmin a (val32 (round32 (q.1.add q.2)))) (val32 c.c)) }
    else { c with c := BitVec.ofInt 32 (ipairs.foldl (fun a q => min a (q.1 + q.2)) c.c.toInt) }
  | 5 => addInt (((p.step t.bytes l n).map fun q => (popcount8 (r.hi q.1 ^^^ q.2.1) : Int)).sum)
  | _ =>
    addInt ((if (elemOf p.afmt).isFloat then pairs.map fun q => if q.1.gt q.2 then (1 : Int) else 0
      else ipairs.map fun q => if q.1 > q.2 then (1 : Int) else 0).sum)

/-- The chain of one column from its initial value through every cell row, in ascending K (R41). -/
def columnChain (p : PassCfg) (r : RowIn) (t : TileIn) (n : Nat) (init : Word) : ChainOut :=
  (List.range p.depth).foldl (fun c l => cellStep p r t l n c) ⟨init, false, none⟩

/-- The K indices that a pass spans. -/
def PassCfg.span (p : PassCfg) : Nat := p.depth * (if p.sparse then (if p.four then 4 else 2) else if p.four then 2 else 1)

/-- The tap's two sums over a row of a pass, each rounded once: the squares and the values of the scaled elements (R135). -/
def tapSums (p : PassCfg) (r : RowIn) : Word × Word :=
  let vs := (List.range p.span).map fun k =>
    let a := (elemOf p.afmt).decode (r.hi k)
    match stepExp (r.scaleHi k) none with
    | none => FVal.nan
    | some e => a.scale e
  (round32 ((vs.map fun v => v.mul v).foldl (fun a b => a.add b) .zero), round32 (vs.foldl (fun a b => a.add b) .zero))

/-- The cycles beyond the row slots that a pass occupies its unit (R52, R59, R78): what `LAMB_FLOOR` counts. -/
def floorCycles (virum : Bool) (passes depth m : Nat) : Nat :=
  if virum then 387
  else
    match passes with
    | 2 => 2 * (max m 64 - m)
    | 3 => 3 * depth + 128
    | _ => max m 64 - m

end Sys2Proof.Machine
end

