-- ==== Sys2Proof/Machine/Image.lean ====
section
/-! DEFINITION. An image part as it lies in LPDDR5X: its manifest body (R391, R398), its directory (R306), schedules (R307), programs,
chain programs, block lists, group table (R258), prefill descriptor (R318) and tokenizer tables (R308). -/

namespace Sys2Proof.Machine

/-- The image of an ID. -/
def State.image (s : State) (id : Nat) : Option Image := s.svc.images.find? (·.id == id)

/-- The state with a function applied to one image. -/
def State.modImage (s : State) (id : Nat) (f : Image → Image) : State :=
  { s with svc := { s.svc with images := s.svc.images.map fun x => if x.id = id then f x else x } }

/-- Bytes of the image's part. -/
def State.part (s : State) (g : Image) (off n : Nat) : List Byte := s.rawBytes (g.base + off) n

/-- A little-endian field of the part. -/
def State.partLe (s : State) (g : Image) (off n : Nat) : Nat := leNat (s.part g off n)

/-- A big-endian field of the manifest's body (R398), whose first byte follows the 256-byte header. -/
def State.bodyBe (s : State) (g : Image) (off n : Nat) : Nat := beNat (s.part g (256 + off) n)

/-! ### Regions -/

/-- A declared region (R398). -/
structure Region398 where
  kind : Nat
  base : Nat
  len : Nat
deriving DecidableEq, Repr

/-- The regions that an image declares (R398). -/
def State.regions (s : State) (g : Image) : List Region398 :=
  (List.range (s.bodyBe g 6 1)).map fun r =>
    ⟨s.bodyBe g (24 + 16 * r) 1, s.bodyBe g (26 + 16 * r) 6, s.bodyBe g (32 + 16 * r) 8⟩

/-- The kind of the first declared region of an image that holds an address. -/
def State.regionKind (s : State) (g : Image) (a : Nat) : Option Nat :=
  ((s.regions g).find? fun r => decide (r.base ≤ a ∧ a < r.base + r.len)).map (·.kind)

/-- Two address ranges meet. -/
def rangesMeet (a n b m : Nat) : Bool := decide (a < b + m ∧ b < a + n)

/-! ### The directory -/

/-- Offset of the directory in the part (R306). -/
def dirOff : Nat := 0x4000

/-- A named region of the directory: its offset and size (R306). -/
def State.dirRegion (s : State) (g : Image) (at_ : Nat) : Nat × Nat :=
  (s.partLe g (dirOff + at_) 8, s.partLe g (dirOff + at_ + 8) 8)

/-- `N_PROGS`. -/
def State.nProgs (s : State) (g : Image) : Nat := s.partLe g (dirOff + 6) 2
/-- `N_CHAINS`. -/
def State.nChains (s : State) (g : Image) : Nat := s.partLe g (dirOff + 8) 2
/-- `N_SCHED`. -/
def State.nScheds (s : State) (g : Image) : Nat := s.partLe g (dirOff + 10) 2
/-- `N_GROUPS`. -/
def State.nGroups (s : State) (g : Image) : Nat := s.partLe g (dirOff + 12) 2

/-- Offset of tile program i in the part (R306). -/
def State.progOff (s : State) (g : Image) (i : Nat) : Nat := s.partLe g ((s.dirRegion g 48).1 + 8 * i) 8

/-- Offset of chain program i in the part. -/
def State.chainOff (s : State) (g : Image) (i : Nat) : Nat := s.partLe g ((s.dirRegion g 64).1 + 8 * i) 8

/-- The bytes of tile program i (R86: the header gives its length). -/
def State.progBytes (s : State) (g : Image) (i : Nat) : List Byte :=
  let off := s.progOff g i
  s.part g off (max (s.partLe g (off + 4) 4) 64)

/-- Tile program i. -/
def State.prog (s : State) (g : Image) (i : Nat) : Prog := parseProg (s.progBytes g i)

/-- The bytes of chain program i (R124). -/
def State.chainBytes (s : State) (g : Image) (i : Nat) : List Byte :=
  let off := s.chainOff g i
  let hd := s.part g off 32
  s.part g off (chainInstrOff hd + 8 * leAt hd 4 2)

/-- The chain programs of an image. -/
def State.chains (s : State) (g : Image) : List ChainProg :=
  (List.range (s.nChains g)).map fun i => parseChain (s.chainBytes g i)

/-- The block list at `off` of the block-list region (R177, R306). -/
def State.blockList (s : State) (blBase off : Nat) : List BlEntry :=
  let hd := s.rawBytes (blBase + off) 16
  parseBlockList (s.rawBytes (blBase + off) (16 + 32 * leAt hd 2 2))

/-- Entry e of the group table (R258). -/
def State.groupEntry (s : State) (g : Image) (e : Nat) : Nat := s.partLe g ((s.dirRegion g 16).1 + 4 * e) 4

/-- A group entry's `DIMS`, when this device belongs to its sub-block (R259). -/
def groupDims (dev entry : Nat) : Option Nat :=
  if dev &&& field entry 8 6 = field entry 16 6 then some (field entry 0 6) else none

/-! ### Schedules -/

/-- A slot declaration of a schedule (R307). -/
structure SlotDecl where
  slot : Nat
  source : Nat
  tier : Nat
  service : Nat
  base : Nat
deriving DecidableEq, Repr

/-- A step of a schedule (R307). -/
structure SchedStep where
  prog : Nat
  dims : Nat
  reps : Nat
  moves : List (Nat × Nat)
deriving DecidableEq, Repr

/-- A schedule (R307). -/
structure Sched where
  kind : Nat
  slots : List SlotDecl
  steps : List SchedStep
deriving DecidableEq, Repr

/-- A schedule read from its bytes (R307). -/
def parseSched (b : List Byte) : Sched :=
  let ns := leAt b 6 1
  { kind := leAt b 7 1
    slots := (List.range ns).map fun i =>
      let o := 32 + 16 * i
      ⟨leAt b o 1, leAt b (o + 1) 1, leAt b (o + 2) 1, leAt b (o + 3) 1, leAt b (o + 8) 8⟩
    steps := (List.range (leAt b 4 2)).map fun i =>
      let o := 32 + 16 * ns + 32 * i
      ⟨leAt b o 2, field (leAt b (o + 2) 1) 0 6, leAt b (o + 4) 2,
        ((List.range 3).map fun j => (leAt b (o + 8 + 8 * j) 1, leAt b (o + 10 + 8 * j) 6)).filter (·.1 != 0)⟩ }

/-- Offset and size of schedule j. -/
def State.schedRegion (s : State) (g : Image) (j : Nat) : Nat × Nat :=
  let t := (s.dirRegion g 32).1 + 16 * j
  (s.partLe g t 8, s.partLe g (t + 8) 8)

/-- Schedule j of an image. -/
def State.sched (s : State) (g : Image) (j : Nat) : Sched :=
  let r := s.schedRegion g j
  parseSched (s.part g r.1 r.2)

/-- The program runs of a schedule in order: step and repeat index (R307). -/
def Sched.runs (c : Sched) : List (SchedStep × Nat) := c.steps.flatMap fun t => (List.range t.reps).map fun r => (t, r)

/-- The bases of a run: each stepped slot at its bound base plus the repeat index times its step (R307). -/
def SchedStep.binds (t : SchedStep) (rep : Nat) (binds : List (Nat × Nat)) : List (Nat × Nat) :=
  binds.map fun b => (b.1, b.2 + rep * ((t.moves.filter (·.1 == b.1)).map (·.2)).sum)

/-! ### The prefill descriptor -/

/-- The prefill descriptor (R318). -/
structure Descr where
  schedule : Nat
  scoreSchedule : Nat
  vocab : Nat
  layers : Nat
  kvHeads : Nat
  kvFmt : Nat
  halfBytes : Nat
  chunkTarget : Nat
  holdUs : Nat
  shardMin : Nat
  linCost : Word
  attCost : Word
  tokOff : Nat
deriving DecidableEq, Repr

/-- The prefill descriptor of an image, if it has one (R306, R318). -/
def State.descr (s : State) (g : Image) : Option Descr :=
  let r := s.dirRegion g 112
  if r.2 = 0 then none
  else
    let b := s.part g r.1 64
    some { schedule := leAt b 0 2, scoreSchedule := leAt b 2 2, vocab := leAt b 4 4, layers := leAt b 8 2, kvHeads := leAt b 10 1
           kvFmt := leAt b 11 1, halfBytes := leAt b 12 2, chunkTarget := leAt b 16 4, holdUs := leAt b 20 4
           shardMin := leAt b 24 4, linCost := BitVec.ofNat 32 (leAt b 28 4), attCost := BitVec.ofNat 32 (leAt b 32 4)
           tokOff := leAt b 36 4 }

/-- The first KV head that device i holds and how many (R318). -/
def Descr.heads (d : Descr) (dev : Nat) : Nat × Nat :=
  let i := dev % 16
  if d.kvHeads ≤ 16 then (if i < d.kvHeads then (i, 1) else (0, 0)) else (d.kvHeads / 16 * i, d.kvHeads / 16)

end Sys2Proof.Machine
end

