-- ==== Sys2Proof/Machine/LoadDir.lean ====
section
/-! DEFINITION. The loader's checks of a manifest's body and regions (R304 checks 3 and 4, R398), and of an image's directory, schedules, prefill
descriptor and tokenizer tables (R306, R307, R308, R318). -/

namespace Sys2Proof.Machine

/-- A rejected image (R304): the status, the index named in `DETAIL`[47:32] and the byte offset in the part. -/
structure LoadFault where
  status : Nat
  index : Nat
  off : Nat
deriving DecidableEq, Repr

/-- `DETAIL` of a rejection (R286): the first missing offset of an incomplete part is given whole. -/
def LoadFault.detail (f : LoadFault) : Nat := if f.status = St.imageIncomplete then f.off else f.off % 2 ^ 32 + f.index * 2 ^ 32

/-- The place of the first condition that is broken. -/
def firstBad (l : List (Bool × Nat)) : Option Nat := (l.find? (·.1)).map (·.2)

/-- Some of `n` bytes at an offset is not zero. -/
def nonzeroAt (b : List Byte) (off n : Nat) : Bool := (slice b off n).any (· != 0)

/-! ### The manifest's body and regions -/

/-- Check 3 of R304: the offset of the first field of the body that is wrong. -/
def State.bodyFault (s : State) (g : Image) : Option Nat :=
  let n := s.bodyBe g 6 1
  let kinds := (List.range n).map fun r => s.bodyBe g (24 + 16 * r) 1
  (firstBad
    ([(s.bodyBe g 0 4 != g.id, 0), (s.bodyBe g 4 1 != g.groupSize, 4), (s.bodyBe g 5 1 != s.devIndex, 5),
      (n == 0 || decide (32 < n), 6), (s.bodyBe g 7 1 != 0, 7), (s.bodyBe g 8 8 != g.base, 8), (s.bodyBe g 16 8 != g.partBytes, 16)] ++
    (List.range n).flatMap fun r =>
      [(decide (6 < kinds.getD r 0) || (kinds.getD r 0 == 6 && (kinds.take r).contains 6), 24 + 16 * r),
       (s.bodyBe g (25 + 16 * r) 1 != 0, 25 + 16 * r)])).map (· + 256)

/-- The digest of an image's payload: the SHA-384 of the digests of its 2 MiB chunks (R392, R398). -/
def State.payloadDigest (s : State) (g : Image) : Nat :=
  let n := g.partBytes - 16384
  Config.sha384 ((List.range (ceilDiv n 0x200000)).flatMap fun i =>
    beBytes 48 (Config.sha384 (s.part g (16384 + 0x200000 * i) (min 0x200000 (n - 0x200000 * i)))))

/-- What R393 asks of an image part's manifest but for its two signatures: the header's fields, an active owner slot whose fuses hold the
digests of both keys, and the payload's digest. -/
def State.manifestOk (s : State) (g : Image) : Bool :=
  let be := fun (o n : Nat) => beNat (s.part g o n)
  let signer := be 6 1
  be 0 4 == 0x4D414E46 && be 4 1 == 1 && be 5 1 == 2 && decide (be 7 1 < 2) && !nonzeroAt (s.part g 221 35) 0 35 &&
  decide (1 ≤ signer ∧ signer ≤ 4) &&
  ((s.sec.fuses.owners.toList[signer - 1]?).any fun o => o.programmed && !o.revoked &&
    Config.sha384 (s.part g 64 97) == o.ecdsa && Config.sha384 (s.part g 161 60) == o.hss) &&
  be 16 48 == s.payloadDigest g

/-- The ranges that an image declares or has staged. -/
def State.heldRanges (s : State) (g : Image) : List (Nat × Nat) :=
  (g.base, g.partBytes) :: (if g.st = .verified ∨ g.st = .active ∨ g.st = .unloading then (s.regions g).map fun r => (r.base, r.len) else [])

/-- First address past the frames of stacked SRAM that images may use (R155). -/
def State.poolEnd (s : State) : Nat := sramBase + (s.rget (.ssr 0) 0xC).toNat * frameBytes

/-- Check 4 of R304: a declared region meets another image's range, or passes the pool limit. -/
def State.regionsBusy (s : State) (g : Image) : Bool :=
  let others := (s.svc.images.filter (·.id != g.id)).flatMap s.heldRanges
  (s.regions g).any fun r =>
    others.any (fun o => rangesMeet r.base r.len o.1 o.2) || (decide (sramBase ≤ r.base) && decide (s.poolEnd < r.base + r.len))

/-! ### The directory -/

/-- The named regions of the directory: where the pair stands, its offset, its size, and the size it must have, if one is fixed (R306). -/
def State.dirRegions (s : State) (g : Image) : List (Nat × Nat × Nat × Option (List Nat)) :=
  [(16, some [4 * s.nGroups g]), (32, some [16 * s.nScheds g]), (48, some [8 * s.nProgs g]), (64, some [8 * s.nChains g]), (80, none),
    (96, none), (112, some [0, 64]), (128, none)].map fun r =>
      let x := s.dirRegion g r.1
      (r.1, x.1, x.2, r.2)

/-- The first field of the directory that breaks R306, as an offset in the part. -/
def State.dirFault (s : State) (g : Image) : Option Nat :=
  let d := s.part g dirOff 256
  let rs := s.dirRegions g
  let np := s.nProgs g
  let cr := s.dirRegion g 80
  (firstBad
    ([(leAt d 0 4 != 0x49445842, 0), (leAt d 4 2 != 0x0100, 4), (np == 0 || decide (1024 < np), 6),
      (decide (1024 < s.nChains g), 8), (s.nScheds g == 0 || decide (64 < s.nScheds g), 10), (decide (256 < s.nGroups g), 12),
      (nonzeroAt d 14 2, 14)] ++
    (rs.flatMap fun r =>
      let used := decide (0 < r.2.2.1)
      let meets := rs.any fun q => decide (q.1 < r.1 ∧ 0 < q.2.2.1) && rangesMeet r.2.1 r.2.2.1 q.2.1 q.2.2.1
      [(used && (r.2.1 % 64 != 0 || decide (r.2.1 < 0x4000) || meets), r.1),
       ((match r.2.2.2 with | some l => !l.contains r.2.2.1 | none => false) || (used && decide (g.partBytes < r.2.1 + r.2.2.1)), r.1 + 8)]) ++
    [(nonzeroAt d 144 112, 144)])).map (· + dirOff) |>.orElse fun _ =>
  firstBad
    (((List.range np).map fun i => (decide (g.partBytes ≤ s.progOff g i), (s.dirRegion g 48).1 + 8 * i)) ++
    (List.range (s.nChains g)).map fun i =>
      (decide (s.chainOff g i < cr.1 ∨ cr.1 + cr.2 ≤ s.chainOff g i ∨ g.partBytes ≤ s.chainOff g i), (s.dirRegion g 64).1 + 8 * i))

/-! ### Schedules -/

/-- The first field of schedule j that breaks R307. -/
def State.schedFault (s : State) (g : Image) (j : Nat) : Option Nat :=
  let t := (s.dirRegion g 32).1 + 16 * j
  let r := s.schedRegion g j
  let b := s.part g r.1 r.2
  let ns := leAt b 6 1
  let nt := leAt b 4 2
  let slots := (List.range ns).map fun i => leAt b (32 + 16 * i) 1
  let so := fun i => 32 + 16 * i
  let st := fun i => 32 + 16 * ns + 32 * i
  if g.partBytes ≤ r.1 ∨ r.1 < 0x4100 then some t
  else if g.partBytes < r.1 + r.2 ∨ r.2 < 32 then some (t + 8)
  else
    (firstBad
      ([(leAt b 0 2 != 0x5343, 0), (leAt b 2 2 != 0x0100, 2), (nt == 0 || decide (4096 < nt), 4), (decide (2 < leAt b 7 1), 7),
        (nonzeroAt b 8 24, 8), (decide (r.2 < 32 + 16 * ns + 32 * nt), 4)] ++
      ((List.range ns).flatMap fun i =>
        let src := leAt b (so i + 1) 1
        [(slots.getD i 0 == 0 || (slots.take i).contains (slots.getD i 0), so i), (decide (2 < src), so i + 1),
         (decide (4 < leAt b (so i + 2) 1), so i + 2),
         ((if src = 2 then decide (6 < leAt b (so i + 3) 1) else leAt b (so i + 3) 1 != 0), so i + 3),
         (nonzeroAt b (so i + 4) 4, so i + 4)]) ++
      (List.range nt).flatMap fun i =>
        let rep := leAt b (st i + 4) 2
        [(decide (s.nProgs g ≤ leAt b (st i) 2), st i), (decide (2 ^ s.dims ≤ leAt b (st i + 2) 1), st i + 2),
         (nonzeroAt b (st i + 3) 1, st i + 3), (rep == 0 || decide (1024 < rep), st i + 4), (nonzeroAt b (st i + 6) 2, st i + 6)] ++
        (List.range 3).flatMap fun m =>
          let o := st i + 8 + 8 * m
          [(leAt b o 1 != 0 && !slots.contains (leAt b o 1), o), (nonzeroAt b (o + 1) 1, o + 1)])).map (· + r.1)

/-! ### The prefill descriptor and the tokenizer tables -/

/-- The first field of the prefill descriptor that breaks R318 or R306. -/
def State.descrFault (s : State) (g : Image) : Option Nat :=
  let r := s.dirRegion g 112
  match s.descr g with
  | none => none
  | some d =>
    let b := s.part g r.1 64
    let tok := s.dirRegion g 128
    let kindIs := fun j k => decide (j < s.nScheds g) && (s.sched g j).kind == k
    (firstBad
      [(!kindIs d.schedule 1, 0), (d.scoreSchedule != 0xFFFF && !kindIs d.scoreSchedule 2, 2),
       (decide (d.vocab < 256 ∨ 262144 < d.vocab), 4),
       (!(decide (1 ≤ d.kvHeads ∧ d.kvHeads ≤ 16) || (d.kvHeads % 16 == 0 && decide (32 ≤ d.kvHeads ∧ d.kvHeads ≤ 240))), 10),
       (!fmtValid d.kvFmt, 11), (nonzeroAt b 14 2, 14), (d.tokOff != (if tok.2 = 0 then 0 else tok.1), 36), (nonzeroAt b 40 24, 40)]).map
      (· + r.1)

/-- A tokenizer table read from its bytes (R308): first and last code points with classes, merges and vocabulary strings. -/
structure TokTable where
  vocab : Nat
  ranges : List (Nat × Nat × Nat)
  merges : List (Nat × Nat × Nat)
  words : List (List Byte)
  joins : Nat → Nat → Bool

/-- The tokenizer tables of R308. -/
def parseTok (b : List Byte) : TokTable :=
  let at_ := fun o => leAt b o 4
  { vocab := at_ 12
    ranges := (List.range (at_ 4)).map fun i =>
      let o := at_ 16 + 8 * i
      (leAt b o 3, leAt b (o + 3) 3, field (leAt b (o + 6) 1) 0 4)
    merges := (List.range (at_ 8)).map fun i =>
      let o := at_ 24 + 12 * i
      (leAt b o 4, leAt b (o + 4) 4, leAt b (o + 8) 4)
    words := (List.range (at_ 12)).map fun i =>
      let o := at_ 28 + 8 * i
      slice b (at_ 32 + leAt b o 4) (leAt b (o + 4) 2)
    joins := fun x y => bitOf (leAt b (at_ 20 + (16 * x + y) / 8) 1) ((16 * x + y) % 8) }

/-- The first field of the tokenizer tables that breaks R308. -/
def State.tokFault (s : State) (g : Image) : Option Nat :=
  let r := s.dirRegion g 128
  if r.2 = 0 then none
  else
    let b := s.part g r.1 r.2
    let at_ := fun o => leAt b o 4
    let t := parseTok b
    let nr := at_ 4
    let nm := at_ 8
    let head := firstBad
      [(leAt b 0 2 != 0x544B, 0), (leAt b 2 2 != 0x0100, 2), (nr == 0 || decide (65536 < nr), 4), (decide (1048576 < nm), 8),
       ((match s.descr g with | some d => d.vocab != t.vocab | none => false), 12), (decide (r.2 < at_ 16 + 8 * nr), 16),
       (decide (r.2 < at_ 20 + 32), 20), (decide (r.2 < at_ 24 + 12 * nm), 24), (decide (r.2 < at_ 28 + 8 * t.vocab), 28),
       (decide (r.2 < at_ 32 + at_ 36), 32), (nonzeroAt b 40 24, 40)]
    let word := fun i => t.words.getD i []
    (head.orElse fun _ => firstBad
      (((List.range nr).map fun i =>
        let x := t.ranges.getD i (0, 0, 0)
        let last := if i = 0 then none else some (t.ranges.getD (i - 1) (0, 0, 0)).2.1
        (decide (x.2.1 < x.1 ∨ 0x10FFFF < x.2.1) || decide (x.1 ≤ 0xDFFF ∧ 0xD800 ≤ x.2.1) ||
          (match last with | some l => decide (x.1 ≤ l) | none => false), at_ 16 + 8 * i)) ++
      ((List.range nm).map fun i =>
        let x := t.merges.getD i (0, 0, 0)
        let before := (t.merges.take i).map (·.2.2)
        let known := fun k => decide (k < 256) || before.contains k
        (!(known x.1 && known x.2.1) || decide (x.2.2 < 256 ∨ t.vocab ≤ x.2.2) || before.contains x.2.2 ||
          word x.2.2 != word x.1 ++ word x.2.1, at_ 24 + 12 * i)) ++
      (List.range t.vocab).map fun i =>
        let o := at_ 28 + 8 * i
        let n := leAt b (o + 4) 2
        (n == 0 || decide (256 < n ∨ at_ 36 < at_ o + n) || (decide (i < 256) && word i != [BitVec.ofNat 8 i]), o))).map (· + r.1)

/-- Check 5 of R304 up to the chain programs: the directory, the schedules, the descriptor and the tokenizer tables. -/
def State.layoutFault (s : State) (g : Image) : Option LoadFault :=
  ((s.dirFault g).orElse fun _ =>
    ((List.range (s.nScheds g)).findSome? (s.schedFault g)).orElse fun _ =>
      (s.descrFault g).orElse fun _ => s.tokFault g).map fun o => ⟨St.plan 1, 0xFFFF, o⟩

end Sys2Proof.Machine
end

