-- ==== Sys2Proof/Machine/LoadChain.lean ====
section
/-! DEFINITION. The loader's checks of chain programs (R124 to R127, R131, R139, R141, R146), and what an instruction reads and writes. -/

namespace Sys2Proof.Machine

/-! ### Operands -/

/-- Operand field `x` names a V register (R126). -/
def isV (x : Nat) : Bool := decide (x < 16)
/-- A T register. -/
def isT (x : Nat) : Bool := decide (16 ≤ x ∧ x < 32)
/-- A constant. -/
def isC (x : Nat) : Bool := decide (32 ≤ x ∧ x < 48)
/-- An ST field. -/
def isSt (x : Nat) : Bool := decide (48 ≤ x ∧ x < 52)

/-- The instruction codes of R127. -/
def chainOpcodes : List Nat :=
  [0x01, 0x02, 0x03, 0x04, 0x05, 0x06, 0x10, 0x11, 0x12, 0x13, 0x14, 0x15, 0x16, 0x17, 0x18, 0x19, 0x1A, 0x1B, 0x1C, 0x20, 0x21, 0x22,
   0x23, 0x24, 0x30, 0x31, 0x32, 0x33, 0x38, 0x40, 0x41, 0x70, 0x7F]

/-- The instruction has a destination. -/
def ChainInstr.hasDst (i : ChainInstr) : Bool := !([0x04, 0x06, 0x41, 0x70, 0x7F].contains i.opc)

/-- The sources that an instruction reads. -/
def ChainInstr.srcs (i : ChainInstr) : List Nat :=
  if [0x04, 0x06, 0x16, 0x17, 0x1C, 0x20, 0x21, 0x22, 0x23, 0x24, 0x30, 0x31, 0x32, 0x33, 0x41].contains i.opc then [i.sa]
  else if [0x10, 0x11, 0x12, 0x14, 0x15, 0x19, 0x1A, 0x1B, 0x38].contains i.opc then [i.sa, i.sb]
  else if [0x13, 0x18].contains i.opc then [i.sa, i.sb, i.sc]
  else if i.opc = 0x40 then (if bitOf i.mode 1 then [i.sa, i.sb, i.sc] else [i.sa])
  else []

/-- The V registers that an instruction reads: its V sources, or the registers named by STG. -/
def ChainInstr.readsV (i : ChainInstr) : List Nat :=
  if i.opc = 0x70 then (List.range 16).filter fun k => bitOf i.imm k else i.srcs.filter isV

/-- The V registers that an instruction writes. -/
def ChainInstr.writesV (i : ChainInstr) : List Nat :=
  if i.opc = 0x40 then [i.dst, i.dst + 1] else if i.hasDst && isV i.dst then [i.dst] else []

/-- The instruction loads from a port. -/
def ChainInstr.loads (i : ChainInstr) : Bool := [0x01, 0x02, 0x03, 0x05].contains i.opc
/-- The instruction stores to a port. -/
def ChainInstr.stores (i : ChainInstr) : Bool := [0x04, 0x06, 0x41].contains i.opc

/-- A row reduction or OSM, which reads one V register and writes one value per row (R126). -/
def ChainInstr.reduces (i : ChainInstr) : Bool := [0x30, 0x31, 0x32, 0x33, 0x38].contains i.opc

/-- The instruction is scalar (R126). -/
def ChainInstr.scalar (i : ChainInstr) : Bool :=
  i.opc == 0x06 || (i.hasDst && !isV i.dst && !i.reduces && i.opc != 0x05)

/-- The expected format of a port by the header; 0xFF for SLOT and SLOT2, which have none. -/
def ChainProg.portFmt (c : ChainProg) (port : Nat) : Nat := c.fmts.getD port 0xFF

/-! ### The checks of one chain program -/

/-- Where instruction i lies from the start of the program. -/
def chainAt (b : List Byte) (i : Nat) : Nat := chainInstrOff b + 8 * i

/-- Each instruction with its place. -/
def chainList (b : List Byte) (c : ChainProg) : List (Nat × ChainInstr) :=
  ((List.range c.instrs.length).map (chainAt b)).zip c.instrs

/-- Check 1: R124. `room` is what is left of the chain region from the program's start, `off` its offset in the part. -/
def chainHeader (b : List Byte) (room off : Nat) : Option Nat :=
  let n := leAt b 4 2
  let split := leAt b 8 1
  firstBad
    ([(off % 64 != 0 || leAt b 0 2 != 0x4348, 0), (leAt b 2 2 != 0x0100, 2), (n == 0 || decide (256 < n), 4),
      (decide (room < chainInstrOff b + 8 * n), 4), (decide (16 < leAt b 6 1), 6), (decide (1 < leAt b 7 1), 7),
      (split != 0 && (decide (n ≤ split) || leAt b 7 1 == 1), 8), (decide (3 < leAt b 9 1), 9), (nonzeroAt b 10 2, 10),
      (nonzeroAt b 17 15, 17)])

/-- `IMM16` and `MODE` of an instruction are in the ranges of R127 and R139. -/
def ChainInstr.immOk (i : ChainInstr) : Bool :=
  if i.opc = 0x40 ∨ i.opc = 0x41 then decide (1 ≤ i.imm ∧ i.imm ≤ 64)
  else if i.opc = 0x1C then
    (if i.mode = 0 then i.imm % 2 == 0 && decide (2 ≤ i.imm ∧ i.imm ≤ 1024) else i.imm == 0)
  else true

/-- The largest `MODE` of an instruction. -/
def ChainInstr.modeMax (i : ChainInstr) : Nat :=
  if [0x01, 0x04, 0x1C].contains i.opc then 1 else if i.opc = 0x40 then 3 else 0

/-- Check 2: codes, modes, ports and counts; END once and last. -/
def chainOpcode (b : List Byte) (c : ChainProg) : Option Nat :=
  let l := chainList b c
  firstBad (l.map fun p =>
    let i := p.2
    let last := p.1 == chainAt b (c.instrs.length - 1)
    (!chainOpcodes.contains i.opc || decide (i.modeMax < i.mode) || decide (6 < i.port) || !i.immOk || (i.opc == 0x7F) != last, p.1))

/-- The destination of an instruction is one that R126 and R127 allow. -/
def ChainInstr.dstOk (i : ChainInstr) : Bool :=
  if !i.hasDst then true
  else if [0x01, 0x02, 0x03, 0x1C].contains i.opc then isV i.dst
  else if i.opc = 0x05 ∨ i.opc = 0x38 then isT i.dst
  else if i.opc = 0x40 then decide (i.dst < 15)
  else if i.reduces then isT i.dst || isSt i.dst
  else isV i.dst || isT i.dst || isSt i.dst

/-- The sources of an instruction are operands that it may read. -/
def ChainInstr.srcsOk (i : ChainInstr) (nConst : Nat) : Bool :=
  i.srcs.all (fun x => decide (x < 58) && !(isC x && decide (nConst ≤ x - 32))) &&
  !(i.scalar && i.srcs.any isV) &&
  (if i.reduces ∨ i.opc = 0x1C ∨ i.opc = 0x40 ∨ i.opc = 0x41 then isV i.sa else true) &&
  (if i.opc = 0x38 then isSt i.sb else true)

/-- Check 3: registers. A V register is read only after an instruction of its sweep has written it. -/
def chainReg (b : List Byte) (c : ChainProg) : Option Nat :=
  let l := chainList b c
  let sweep := fun k => if c.split ≠ 0 ∧ c.split ≤ k then c.split else 0
  firstBad ((List.range l.length).map fun k =>
    match l[k]? with
    | none => (false, 0)
    | some p =>
      let i := p.2
      let before := ((c.instrs.take k).drop (sweep k)).flatMap ChainInstr.writesV
      (!i.dstOk || !i.srcsOk c.consts.length || i.readsV.any fun v => !before.contains v, p.1))

/-- The element code of a format is FP4 E2M1 or INT4. -/
def narrow (fmt : Nat) : Bool := field fmt 0 4 == 1 || field fmt 0 4 == 4

/-- The instruction's formats break check 4. -/
def ChainInstr.fmtBad (c : ChainProg) (i : ChainInstr) : Bool :=
  let pf := c.portFmt i.port
  if i.opc = 0x70 then !([0, 2, 3, 6, 7, 8].contains i.fmt)
  else if i.opc = 0x04 then
    !fmtValid i.fmt ||
      (if blockSize i.fmt = 0 then narrow i.fmt
       else blockDir i.fmt || !([0, 1, 2, 3, 4].contains (field i.fmt 0 4)) || i.imm % blockSize i.fmt != 0)
  else if i.loads || i.opc == 0x06 then
    !fmtValid i.fmt || narrow i.fmt || (pf != 0xFF && narrow pf) ||
      ((i.opc == 0x05 || i.opc == 0x06) && pf != 0xFF && blockSize pf != 0)
  else false

/-- Check 4: formats. -/
def chainFormat (b : List Byte) (c : ChainProg) : Option Nat :=
  (firstBad ((List.range 5).map fun k => (c.portFmt k != 0xFF && !fmtValid (c.portFmt k), 12 + k))).orElse fun _ =>
    firstBad ((chainList b c).map fun p => (p.2.fmtBad c, p.1))

/-- An instruction reads an ST field. -/
def ChainInstr.readsSt (i : ChainInstr) (k : Nat) : Bool := i.srcs.contains (48 + k)

/-- An instruction writes an ST field. -/
def ChainInstr.writesSt (i : ChainInstr) (k : Nat) : Bool :=
  (i.hasDst && i.dst == 48 + k) || (i.opc == 0x38 && i.sb == 48 + k)

/-- Check 5: sweeps, ports and statistic fields. -/
def chainStage (b : List Byte) (c : ChainProg) : Option Nat :=
  let l := chainList b c
  let first := chainAt b c.split
  (firstBad [(bitOf c.statuse 0 != c.instrs.any (fun i => i.readsSt 0 || i.readsSt 1) ||
      bitOf c.statuse 1 != c.instrs.any (fun i => i.readsSt 2 || i.readsSt 3 || i.writesSt 2 || i.writesSt 3), 9)]).orElse fun _ =>
    firstBad (l.map fun p =>
      let i := p.2
      ((c.split != 0 && decide (p.1 < first) && i.stores) ||
        (c.kind == 0 && (i.opc == 0x38 || ((i.loads || i.stores) && (i.port == 5 || i.port == 6)))), p.1))

/-- The first check of R146 that a chain program fails, with its place in the part. -/
def State.chainFault (s : State) (g : Image) (k : Nat) : Option LoadFault :=
  let off := s.chainOff g k
  let cr := s.dirRegion g 80
  let b := s.chainBytes g k
  let c := parseChain b
  let say := fun n (o : Option Nat) => o.map fun x => (⟨St.chainCheck n, k, off + x⟩ : LoadFault)
  (say 1 (chainHeader b (cr.1 + cr.2 - off) off)).orElse fun _ => (say 2 (chainOpcode b c)).orElse fun _ =>
    (say 3 (chainReg b c)).orElse fun _ => (say 4 (chainFormat b c)).orElse fun _ => say 5 (chainStage b c)

/-- R146 on every chain program of an image, in index order. -/
def State.chainsFault (s : State) (g : Image) : Option LoadFault := (List.range (s.nChains g)).findSome? (s.chainFault g)

end Sys2Proof.Machine
end

