-- ==== Sys2Proof/Machine/LoadOps.lean ====
section
/-! DEFINITION. The loader's checks 1 to 16 of a tile program (R119): header, shape, tensors, alignment, sizes, placement, loops, formats,
conversions, slots, threads and barriers. -/

namespace Sys2Proof.Machine

/-- A tile program under check: its image, index, offset in the part and bytes, the schedules that run it, and the image's chain programs. -/
structure PlanCtx where
  g : Image
  k : Nat
  off : Nat
  b : List Byte
  p : Prog
  scheds : List Sched
  chains : List ChainProg

/-- The context of tile program k. -/
def State.planCtx (s : State) (g : Image) (k : Nat) : PlanCtx :=
  let all := (List.range (s.nScheds g)).map (s.sched g)
  { g := g, k := k, off := s.progOff g k, b := s.progBytes g k, p := s.prog g k
    scheds := all.filter fun c => c.steps.any (·.prog == k), chains := s.chains g }

namespace PlanCtx

/-! ### Records -/

/-- Where tensor record i lies. -/
def tensorAt (c : PlanCtx) (i : Nat) : Nat := leAt c.b 28 4 + 32 * i
/-- Where loop record i lies. -/
def loopAt (c : PlanCtx) (i : Nat) : Nat := leAt c.b 32 4 + 16 * i
/-- Where operation record i lies. -/
def opAt (c : PlanCtx) (i : Nat) : Nat := leAt c.b 36 4 + 32 * i

/-- The first tensor record with a fault. -/
def badTensor (c : PlanCtx) (f : Nat → Tensor → Bool) : Option Nat :=
  firstBad (((List.range c.p.tensors.length).zip c.p.tensors).map fun t => (f t.1 t.2, c.tensorAt t.1))

/-- The first loop record with a fault. -/
def badLoop (c : PlanCtx) (f : Nat → LoopRec → Bool) : Option Nat :=
  firstBad (((List.range c.p.loops.length).zip c.p.loops).map fun t => (f t.1 t.2, c.loopAt t.1))

/-- The first operation record with a fault. -/
def badOp (c : PlanCtx) (f : Nat → OpRec → Bool) : Option Nat :=
  firstBad (((List.range c.p.ops.length).zip c.p.ops).map fun t => (f t.1 t.2, c.opAt t.1))

/-- A tensor by its number. -/
def ten (c : PlanCtx) (i : Nat) : Tensor := (c.p.tensor i).getD ⟨0, 0, 0, 0, 0, 0, 0, 0, 0, 0, 0⟩

/-- Iterations of a loop kind at `MAX_ROWS` and its largest extent (R104, R109). -/
def count (c : PlanCtx) (kind : Nat) : Nat :=
  match c.p.loop? kind with
  | none => 1
  | some l =>
    if kind = 2 then max (ceilDiv c.p.maxRows (max c.p.rg 1)) 1
    else if kind = 4 ∧ l.src = 1 then max (ceilDiv c.p.rg (max l.step 1)) 1
    else max (ceilDiv l.extent (max l.step 1)) 1

/-- The largest index of the loop that a STREAM record's `STEP_LOOP` names. -/
def stepMax (c : PlanCtx) (stepLoop : Nat) : Nat :=
  match if stepLoop = 0 then none else c.p.loops[stepLoop - 1]? with
  | some l => c.count l.kind - 1
  | none => 0

/-- The level of the loop that encloses the K loop (R92). -/
def outer (c : PlanCtx) : Nat := c.p.levelOf 3 - 1

/-- A pass as its unit runs it (R39). -/
def cfg (c : PlanCtx) (o : OpRec) : Option PassCfg :=
  match o.body with
  | .pass _ op sp af wf _ _ ps .. => some ⟨op, sp, af, wf, ps, c.p.sh.n, c.p.sh.depth⟩
  | _ => none

/-- The slot declarations of a tensor's binding slot. -/
def decls (c : PlanCtx) (t : Tensor) : List SlotDecl := c.scheds.flatMap fun d => d.slots.filter fun x => x.slot == t.bind

/-- The bases of a tensor that the image fixes, with its `OFFSET` added (R87, R441). -/
def bases (c : PlanCtx) (t : Tensor) : List Nat :=
  if t.bind = 0 then [t.offset] else ((c.decls t).filter (·.source == 1)).map fun d => d.base + t.offset

/-- The least sizes declared for a tensor's slot where the base is not fixed (R441). -/
def sizes (c : PlanCtx) (t : Tensor) : List Nat :=
  if t.bind = 0 then [] else ((c.decls t).filter (·.source != 1)).map (·.base)

/-- Bytes of `n` elements of a format. -/
def elemBytes (fmt n : Nat) : Nat := ceilDiv (n * (elemOf fmt).width) 8

/-- Bytes of a row of `n` elements along K with its scales, in so many slices (R71, R77). -/
def rowBytesOf (fmt n slices : Nat) : Nat :=
  let b := blockSize fmt
  slices * (elemBytes fmt n + (if b = 0 then 0 else if blockDir fmt then n / 8 else n / b))

/-! ### Check 1 -/

/-- A reserved field of an operation record is not zero (R89, R91, R92, R111, R116, R132, R175, R201). -/
def opReserved (b : List Byte) : Bool :=
  let f := fun o => leAt b o 1
  decide (16 ≤ f 1) || decide (8 ≤ f 2) ||
  match f 0 with
  | 1 => decide (16 ≤ f 6) || decide (128 ≤ f 7) || decide (2 ^ 13 ≤ leAt b 8 2) || nonzeroAt b 14 2
  | 2 => decide (16 ≤ f 3) || nonzeroAt b 5 3 || nonzeroAt b 12 4
  | 3 => decide (16 ≤ f 3) || decide (8 ≤ f 9) || nonzeroAt b 28 4
  | 4 => decide (64 ≤ f 3) || decide (2 ^ 10 ≤ leAt b 4 2) || decide (32 ≤ f 12) || nonzeroAt b 13 3
  | 5 => decide (128 ≤ f 3) || nonzeroAt b 7 25
  | 6 => decide (32 ≤ f 3) || nonzeroAt b 4 28
  | 7 => decide (2 ≤ f 5) || nonzeroAt b 17 15
  | 8 => nonzeroAt b 5 1 || nonzeroAt b 7 1 || nonzeroAt b 12 4
  | _ => true

/-- The header breaks R85 or R86; `room` is what is left of the part from the program's start. -/
def headerBad (c : PlanCtx) (room : Nat) : Bool :=
  let b := c.b
  let p := c.p
  let t := leAt b 28 4
  let l := leAt b 32 4
  let o := leAt b 36 4
  let nt := leAt b 8 1
  let nl := leAt b 9 1
  let no := leAt b 12 2
  let inside := fun a n => decide (64 ≤ a ∧ a + n ≤ p.bytes)
  c.off % 64 != 0 || leAt b 0 2 != 0x5450 || leAt b 2 2 != 0x0100 || p.bytes % 64 != 0 || decide (p.bytes < 64 ∨ 0x100000 < p.bytes) ||
  decide (room < p.bytes) || decide (nt = 0 ∨ 63 < nt) || decide (nl < 2 ∨ 6 < nl) || decide (p.nThreads = 0 ∨ 16 < p.nThreads) ||
  decide (no = 0 ∨ 1024 < no) || decide (32 ≤ p.flags) || decide (p.maxRows % 64 ≠ 0 ∨ p.maxRows < 64 ∨ 2 ^ 24 < p.maxRows) ||
  decide (p.maxLen = 0 ∨ 2 ^ 24 < p.maxLen) ||
  (if p.msplit then decide (p.groupRows % 64 ≠ 0 ∨ p.groupRows < 64 ∨ 8192 < p.groupRows) else p.groupRows != 0) ||
  decide (p.maxSegs = 0 ∨ 64 < p.maxSegs) || decide (p.fold = 0 ∨ 16 < p.fold) || t % 32 != 0 || l % 16 != 0 || o % 32 != 0 ||
  decide (32 < p.barriers) || nonzeroAt b 41 1 || decide (256 < p.tags) || nonzeroAt b 44 20 ||
  !(inside t (32 * nt) && inside l (16 * nl) && inside o (32 * no)) ||
  rangesMeet t (32 * nt) l (16 * nl) || rangesMeet t (32 * nt) o (32 * no) || rangesMeet l (16 * nl) o (32 * no)

/-- Check 1. -/
def check1 (c : PlanCtx) (room : Nat) : Option Nat :=
  if c.headerBad room then some 0
  else
    (c.badTensor fun i t =>
      decide (4 < t.tier ∨ 3 < t.role ∨ 21 < t.align ∨ t.rows = 0 ∨ t.rowBytes = 0 ∨ t.elems = 0 ∨ 2 ≤ t.len) || !fmtValid t.fmt ||
        nonzeroAt (slice c.b (c.tensorAt i) 32) 28 4).orElse fun _ =>
    (c.badLoop fun i l =>
      decide (4 < l.kind ∨ 8 ≤ l.flags ∨ 4 < l.src ∨ l.extent = 0 ∨ l.step = 0) || (l.causal && !l.keys) ||
        (l.kind == 4 && decide (8192 < l.step)) || ((l.kind == 0 || l.kind == 2) && l.step != 1) ||
        nonzeroAt (slice c.b (c.loopAt i) 16) 12 4).orElse fun _ =>
    c.badOp fun i o =>
      opReserved (slice c.b (c.opAt i) 32) || match o.body with
        | .pass _ _ _ _ _ _ _ ps .. => ps == 0
        | _ => false

/-- Check 2. -/
def check2 (c : PlanCtx) : Option Nat := if (shapeOf c.p.shape).isNone then some 0 else none

/-! ### Check 3: tensor references -/

/-- The tensor exists. -/
def has (c : PlanCtx) (i : Nat) : Bool := decide (i < c.p.tensors.length)
/-- The tensor exists, or is none. -/
def hasOr (c : PlanCtx) (i : Nat) : Bool := i == 0x3F || c.has i
/-- The tensor exists and may be written (its role is output or scratch). -/
def writable (c : PlanCtx) (i : Nat) : Bool := c.has i && decide (2 ≤ (c.ten i).role)

/-- The tensors of an operation are named as its table allows. -/
def refsOk (c : PlanCtx) (o : OpRec) : Bool :=
  match o.body with
  | .pass _ _ _ _ _ bm _ _ _ _ a w m mp .. =>
    c.has a && c.has w && c.hasOr m && (if bm then c.has mp else c.hasOr mp) && ((c.ten a).role == 0 || (c.ten a).role == 3) &&
      (c.ten w).role == 1
  | .conv _ d .. => c.writable d
  | .stream _ sr d ix mp .. => c.has sr && c.writable d && c.hasOr ix && c.hasOr mp
  | .mule op sr d .. => (if op = 0 then c.has sr else c.hasOr sr) && c.writable d
  | .chain _ _ _ _ a b e f g .. => [a, b, e, f, g].all c.hasOr
  | .gmm _ _ _ a b _ _ st => c.has a && c.has b && c.has st
  | .mrs _ _ d .. => c.writable d
  | _ => true

/-- Check 3. -/
def check3 (c : PlanCtx) : Option Nat :=
  (c.badTensor fun _ t => t.bind != 0 && c.scheds.any fun d => !d.slots.any (·.slot == t.bind)).orElse fun _ =>
    (c.badLoop fun _ l => if l.src = 3 then !c.has l.countT else !c.hasOr l.countT).orElse fun _ => c.badOp fun _ o => !c.refsOk o

/-! ### Checks 4 to 6: alignment, size, placement -/

/-- Check 4. -/
def check4 (c : PlanCtx) : Option Nat :=
  c.badTensor fun _ t =>
    let a := 2 ^ t.align
    decide (t.align < if t.tier = 0 then 8 else 6) || t.rowStride % 64 != 0 || (c.bases t).any (· % a != 0) ||
      (t.bind != 0 && t.offset % a != 0) ||
      (t.tier == 3 && ((c.bases t).any (· % 2 ^ 21 != 0) || (!(c.sizes t).isEmpty && (t.align != 21 || t.offset % 2 ^ 21 != 0))))

/-- End of a tier (R87, R155, R167). -/
def tierEnd (pool : Nat) : Nat → Nat
  | 0 => 0x400000
  | 1 => pool
  | 2 => 0x1FFFFFE000
  | 3 => 2 ^ 39
  | _ => 2 ^ 54

/-- Tensors that the row map indexes by row (R100, R119): operand and output rows, chain ports and gathered pieces. -/
def rowTensors (c : PlanCtx) (o : OpRec) : List Nat :=
  match o.body with
  | .pass _ _ _ _ _ _ _ _ _ _ a .. => if c.p.stageT = some a then [] else [a]
  | .conv _ d .. => [d]
  | .chain _ _ _ ix a b e f g .. =>
    let ports := [a, b, e, f, g]
    (((c.chains[ix]?).map (·.instrs)).getD []).filterMap fun i =>
      if [0x01, 0x04, 0x05, 0x06].contains i.opc then (ports[i.port]?).filter (· != 0x3F) else none
  | .gmm _ _ _ a .. => [a]
  | .mrs _ _ d .. => [d]
  | _ => []

/-- Tensors whose row is the index of the G loop (R180). -/
def problemTensors (o : OpRec) : List Nat :=
  match o.body with
  | .stream _ _ _ ix .. => if ix = 0x3F then [] else [ix]
  | _ => []

/-- The far end of the weight tile that a pass reads at the largest indices, from its tensor's base (R91, R440). -/
def tileEnd (c : PlanCtx) (o : OpRec) : Nat :=
  match o.body with
  | .pass _ _ _ _ _ _ _ _ _ _ _ _ _ _ _ ks ns gs =>
    gs * (c.count 0 - 1) + ns * (c.count 1 - 1) + ks * (c.count 3 - 1) + ((c.cfg o).map (·.tileBytes)).getD 0
  | _ => 0

/-- The group slots that `GATHER_T` holds (R114). -/
def gLive (c : PlanCtx) : Nat := min 64 (ceilDiv c.p.maxRows (max c.p.rg 1))

/-- Bytes of one pass's K range of a staged row: the widest of the passes that read `STAGE_T`. -/
def stageRow (c : PlanCtx) (st : Nat) : Nat :=
  (c.p.ops.filterMap fun o => match o.body with
    | .pass _ _ sp af wf _ _ ps _ _ a .. => if a = st then some (rowBytesOf af (c.p.sh.kpp wf sp) (if ps = 1 then 1 else 2)) else none
    | _ => none).foldl max 0

/-- An operation's tensors are large enough. -/
def sizeOk (c : PlanCtx) (o : OpRec) : Bool :=
  (c.rowTensors o).all (fun i => decide (c.p.maxRows ≤ (c.ten i).rows)) &&
  (problemTensors o).all (fun i => decide (c.count 0 ≤ (c.ten i).rows)) &&
  match o.body with
  | .pass _ _ _ _ _ _ _ _ _ _ _ w m .. =>
    decide (c.tileEnd o ≤ (c.ten w).rows * (c.ten w).rowStride) &&
      (m == 0x3F || decide (ceilDiv c.p.maxRows 8 ≤ (c.ten m).rows * (c.ten m).rowStride))
  | .gmm _ n _ _ ga _ pb st =>
    decide (c.gLive * c.p.rg ≤ (c.ten ga).rows) && decide (n * pb ≤ (c.ten ga).rowStride) &&
      decide (2 * c.p.rg ≤ (c.ten st).rows) && decide (c.stageRow st ≤ (c.ten st).rowStride)
  | _ => true

/-- Check 5. -/
def check5 (c : PlanCtx) (pool : Nat) : Option Nat :=
  (c.badTensor fun _ t =>
    decide (t.rowBytes < elemBytes t.fmt t.elems ∨ t.rowStride < t.rowBytes) ||
      (bitOf t.len 0 && decide (t.rows < c.p.maxRows)) ||
      (c.bases t).any (fun b => decide (tierEnd pool t.tier < b + t.rows * t.rowStride)) ||
      (c.sizes t).any fun n => decide (n < t.offset + t.rows * t.rowStride)).orElse fun _ => c.badOp fun _ o => !c.sizeOk o

/-- The tensors that an operation needs in the operand buffer (R22, R39, R132). -/
def nearTensors (o : OpRec) : List Nat :=
  match o.body with
  | .pass _ _ _ _ _ _ _ _ _ _ a w m .. => [a, w, m]
  | .chain _ _ _ _ a b e f g .. => [a, b, e, f, g]
  | _ => []

/-- Check 6. -/
def check6 (c : PlanCtx) : Option Nat :=
  c.badOp fun _ o =>
    (nearTensors o).any (fun i => i != 0x3F && (c.ten i).tier != 0) ||
    match o.body with
    | .pass _ _ sp af wf _ _ ps _ _ a _ _ _ ak .. =>
      let t := c.ten a
      let reach := (t.rows - 1) * t.rowStride + ak * (c.count 3 - 1) + rowBytesOf af (c.p.sh.kpp wf sp) (if ps = 1 then 1 else 2)
      c.p.stageT != some a && (c.bases t).any fun b => decide (0x400000 < b + reach)
    | .chain _ _ _ _ _ _ _ _ _ slot2 en s2 _ => en && decide (128 < slot2 + s2 * (c.p.rg / 64) * (1 + b01 c.p.dbuf))
    | _ => false

/-! ### Checks 7 to 9: loops, extents, units -/

/-- The nest has the form of R94. -/
def nestOk (p : Prog) : Bool :=
  let ks := p.loops.map (·.kind)
  let head := p.loops.takeWhile (·.dispensed)
  let rest := p.loops.drop head.length
  head.all (fun l => decide (l.kind ≤ 2)) && decide (2 ≤ rest.length) && rest.all (!·.dispensed) &&
    (rest.take (rest.length - 2)).all (fun l => decide (l.kind ≤ 1)) && (rest.drop (rest.length - 2)).map (·.kind) == [3, 4] &&
    decide ks.Nodup && (ks.contains 2 == p.msplit)

/-- A loop's `SRC` suits its `KIND` (R88). -/
def srcOk (l : LoopRec) : Bool :=
  match l.src with
  | 0 => true
  | 1 => l.kind == 4
  | 2 => l.keys
  | 3 => l.kind == 0
  | _ => l.kind == 3

/-- Check 7. -/
def check7 (c : PlanCtx) : Option Nat :=
  if !nestOk c.p then some (c.loopAt 0)
  else
    c.badLoop fun _ l =>
      !srcOk l || (l.causal && !c.p.segAlign) || (l.kind == 1 && l.step != c.p.sh.n) ||
        (l.kind == 3 && c.p.ops.any fun o => match o.body with
          | .pass _ _ sp _ wf .. => l.step != c.p.sh.kpp wf sp
          | _ => false) ||
        (l.kind == 3 && ((l.src == 4) != c.p.gmm?.isSome)) ||
        (l.src == 3 && !([1, 2, 4].contains (c.ten l.countT).tier))

/-- Check 8. -/
def check8 (c : PlanCtx) : Option Nat :=
  (c.badLoop fun _ l => (l.kind == 1 || l.kind == 3) && l.extent % l.step != 0).orElse fun _ =>
    c.badOp fun _ o => match o.body with
      | .gmm _ _ _ _ _ pk .. => ((c.p.loop? 3).map (·.step)).any fun st => pk % st != 0
      | _ => false

/-- Check 9. -/
def check9 (c : PlanCtx) : Option Nat :=
  c.badOp fun _ o => match o.body with
    | .pass u .. => decide (c.p.sh.units ≤ u)
    | .conv u .. => decide (c.p.sh.units ≤ u)
    | .chain u .. => decide (c.p.sh.units ≤ u)
    | _ => false

/-! ### Check 10: pass formats -/

/-- Element formats of MAC in floating point. -/
def macFloat (f : Nat) : Bool := [2, 3, 4].contains (field f 0 4)
/-- Element formats of MAC in integers. -/
def macInt (f : Nat) : Bool := [0, 1].contains (field f 0 4)

/-- The formats of a pass keep R38, R46, R47 and R65. -/
def passFmtOk (op : Nat) (sp bm : Bool) (af wf : Nat) : Bool :=
  let plain := blockSize af == 0 && blockSize wf == 0 && !sp && !bm
  let ea := field af 0 4
  let ew := field wf 0 4
  fmtValid af && fmtValid wf && (elemOf af).arrayOperand && (elemOf wf).arrayOperand &&
  if op = 0 then (macFloat af && macFloat wf) || (macInt af && macInt wf)
  else if op < 5 ∨ op = 6 then ea == ew && decide (ea ≤ 4) && plain
  else if op = 5 then ea == 5 && ew == 5 && plain
  else false

/-- A pass keeps R59 in the Virum grid. -/
def virumOk (p : Prog) (op : Nat) (sp : Bool) (af wf ps m : Nat) : Bool :=
  p.shape != virumShape ||
    (op == 0 && !sp && ps == 1 && m == 0x3F && blockSize af == 0 && blockSize wf == 0 && field af 0 4 == field wf 0 4 &&
      (field af 0 4 == 0 || field af 0 4 == 2))

/-- A pass keeps R75 when it has more than one precision pass. -/
def passesOk (p : Prog) (op : Nat) (sp : Bool) (af wf ps : Nat) : Bool :=
  let e4 := fun f => field f 0 4 == 2
  let alongK := fun f => !blockDir f
  ps == 1 || (op == 0 && !sp && !fourBit wf && p.shape != virumShape &&
    ((e4 af && e4 wf && alongK af && (ps == 2 || alongK wf)) ||
     (ps == 2 && field af 0 4 == 0 && field wf 0 4 == 0 && blockSize af == 0 && blockSize wf == 0)))

/-- The blocks of a pass's scales keep R70, and the operand row has room for them (R71). -/
def blocksOk (c : PlanCtx) (sp : Bool) (af wf ps rowsM1 a : Nat) : Bool :=
  let kpp := c.p.sh.kpp wf sp
  let ba := blockSize af
  let bw := blockSize wf
  let t := c.ten a
  (ba == 0 || (if blockDir af then (rowsM1 + 1) % ba == 0 && c.p.rg % ba == 0 else kpp % ba == 0)) &&
  (bw == 0 || (if blockDir wf then c.p.sh.n % bw == 0 else kpp % bw == 0)) &&
  (c.p.stageT == some a || decide (rowBytesOf af t.elems (if ps = 1 then 1 else 2) ≤ t.rowStride) || ba == 0)

/-- Check 10. -/
def check10 (c : PlanCtx) : Option Nat :=
  c.badOp fun i o => match o.body with
    | .pass u op sp af wf bm init ps _ rm a w m .. =>
      let first := !(c.p.ops.take i).any fun q => q.thread == o.thread && q.level == o.level &&
        (match q.body with | .pass u' .. => u' == u | _ => false)
      !passFmtOk op sp bm af wf || !virumOk c.p op sp af wf ps m || !passesOk c.p op sp af wf ps || !c.blocksOk sp af wf ps rm a ||
        (blockSize wf != 0 && decide ((c.ten w).rows * (c.ten w).rowStride < ((c.cfg o).map (·.tileBytes)).getD 0)) ||
        (c.p.paired o && first && !init)
    | _ => false

/-! ### Check 11: conversions -/

/-- The chain format that the passes of a unit leave in its slots is INT32 (R38, R46). -/
def slotInt (c : PlanCtx) (unit : Nat) : Option Bool :=
  ((c.p.ops.filterMap fun o => match o.body with
    | .pass u .. => if u = unit then (c.cfg o).map fun q => !q.isFloat else none
    | _ => none).getLast?)

/-- A conversion word keeps R79; `unit` is the unit whose slots it reads, or none where no one unit is named. -/
def wordOk (c : PlanCtx) (unit : Option Nat) (w : ConvWord) : Bool :=
  let nMax := c.count 1 - 1
  let vec := fun mode off => mode != 2 || (off % 256 == 0 && decide (off + (nMax + 1) * c.p.sh.n * 4 ≤ 0x400000))
  let bound := fun x => val32 (BitVec.ofNat 32 (x * 65536))
  decide (w.outFmt < 16) && (elemOf w.outFmt).convOutput && decide (field w.outFmt 0 4 ≤ 9) && w.scaleMode != 3 && w.biasMode != 3 &&
  w.reserved == 0 && (match unit.bind c.slotInt with | some i => w.src == b01 i | none => true) &&
  (w.outFmt != 9 || (w.src == 1 && w.scaleMode == 0 && w.biasMode == 0 && !w.clipEn)) &&
  !(bound w.clipLo).gt (bound w.clipHi) && vec w.scaleMode w.scale && vec w.biasMode w.bias

/-- Check 11. -/
def check11 (c : PlanCtx) : Option Nat :=
  c.badOp fun _ o => match o.body with
    | .conv u d _ w => !c.wordOk (some u) w || field (c.ten d).fmt 0 4 != w.outFmt || o.level != c.outer
    | .mrs _ _ _ _ w => !c.wordOk none w
    | .chain u _ _ ix _ _ _ _ _ _ _ _ w => (c.chains[ix]?).any (·.kind == 1) && !c.wordOk (some u) w
    | _ => false

/-! ### Checks 12 to 16: slots, tiles, threads, barriers -/

/-- The slot ranges that the records of a program use, with the unit that each is used on (R102, R134). -/
def slotUse (c : PlanCtx) (o : OpRec) : List (Nat × Nat × Nat) :=
  let per := c.p.lambda / max c.p.sh.units 1
  match o.body with
  | .pass _ _ _ _ _ _ _ _ sb .. => (List.range c.p.sh.units).map fun u => (u, sb + u * per, per)
  | .chain _ _ _ _ _ _ _ _ _ slot2 en s2 _ =>
    if en then (List.range c.p.sh.units).map fun u => (u, slot2, s2 * (c.p.rg / 64) * (1 + b01 c.p.dbuf)) else []
  | _ => []

/-- Check 12: units run tiles of their own, so no ordering holds between two of them (R43, R93). -/
def check12 (c : PlanCtx) : Option Nat :=
  c.badOp fun i o => (c.slotUse o).any fun a => ((c.p.ops.take (i + 1)).flatMap c.slotUse).any fun b =>
    a.1 != b.1 && rangesMeet a.2.1 a.2.2 b.2.1 b.2.2

/-- Check 13 (R101). -/
def check13 (c : PlanCtx) : Option Nat :=
  if 128 < c.p.lambda then some 0
  else c.badOp fun _ o => match o.body with
    | .pass _ _ _ _ _ _ _ _ sb .. => decide (128 < sb + c.p.lambda)
    | _ => false

/-- Check 14: the largest T (R103, R104). -/
def check14 (c : PlanCtx) : Option Nat :=
  let t := ((c.p.loops.filter (·.dispensed)).map fun l =>
    if l.kind = 2 ∧ c.p.segAlign then c.count 2 + c.p.maxSegs - 1 else c.count l.kind).foldl (· * ·) 1
  if 2 ^ 32 - 1 < t then some 0 else none

/-- Check 15 (R90). -/
def check15 (c : PlanCtx) : Option Nat :=
  (c.badOp fun _ o => decide (c.p.loops.length < o.level ∨ c.p.nThreads ≤ o.thread)).orElse fun _ =>
    if (List.range c.p.nThreads).all fun t => c.p.ops.any (·.thread == t) then none else some 0

/-- The barrier that an operation signals, at its completion for a stream (R176). -/
def signals (o : OpRec) : Option Nat :=
  match o.body with
  | .signal b => some b
  | .stream _ _ _ _ _ d .. => if d = 0x3F then none else some d
  | .mule _ _ _ d .. => if d = 0x3F then none else some d
  | _ => none

/-- The barrier that an operation waits on. -/
def waits (o : OpRec) : Option Nat :=
  match o.body with
  | .wait b .. => some b
  | _ => none

/-- Check 16 (R205), its conditions in the order in which the rule lists them. -/
def check16 (c : PlanCtx) : Option Nat :=
  let on := fun b => c.p.ops.filter fun q => signals q == some b
  let names := fun o => (signals o).toList ++ (waits o).toList
  let wait := fun (f : Nat → Bool → Nat → Nat → Nat → Bool) => c.badOp fun _ o => match o.body with
    | .wait b _ credit step parts cmax => f b credit step parts cmax
    | _ => false
  let none_ := c.badOp fun _ o => (names o).any fun b => decide (c.p.barriers ≤ b)
  let alone := c.badOp fun _ o => ((signals o).any fun b => !c.p.ops.any fun q => waits q == some b) || ((waits o).any fun b => (on b).isEmpty)
  let differ := wait fun b credit step parts cmax =>
    step == 0 || parts == 0 || (credit && cmax == 0) || (!credit && cmax != 0) ||
      c.p.ops.any fun q => match q.body with
        | .wait b' _ cr _ pa cm => b' == b && (cr != credit || pa != parts || cm != cmax)
        | _ => false
  let phase := wait fun b credit _ parts _ => !credit && ((on b).length != parts || (on b).any fun q => q.level != ((on b).headD q).level)
  let credits := wait fun b credit step _ _ => credit && (step != 1 || (on b).any fun q => match q.body with | .signal _ => false | _ => true)
  none_.orElse fun _ => alone.orElse fun _ => differ.orElse fun _ => phase.orElse fun _ => credits

end PlanCtx

end Sys2Proof.Machine
end

