-- ==== Sys2Proof/Machine/LoadPlan.lean ====
section
/-! DEFINITION. The loader's checks 17 to 22 of a tile program (R119): hazards (R110), aliasing (R109, R442), streams (R196 to R198), chain
operations (R146) and collectives (R111, R114, R116, R118, R258); and the whole of the commit checks (R304). -/

namespace Sys2Proof.Machine

/-! ### Spans of memory -/

/-- Rows of bytes: `rows` stretches of `width` bytes, `stride` apart, counted from the base of a tier or binding slot (R442). -/
structure Span where
  tier : Nat
  bind : Nat
  lo : Nat
  rows : Nat
  stride : Nat
  width : Nat
deriving DecidableEq, Repr

/-- A stretch of `n` bytes from `a` meets a span. -/
def Span.hits (x : Span) (a n : Nat) : Bool :=
  if x.rows = 0 ∨ x.width = 0 ∨ n = 0 ∨ a + n ≤ x.lo then false
  else
    let r := if x.stride = 0 then 0 else min ((a + n - 1 - x.lo) / x.stride) (x.rows - 1)
    decide (a < x.lo + r * x.stride + x.width)

/-- First byte past a span. -/
def Span.last (x : Span) : Nat := x.lo + (x.rows - 1) * x.stride + x.width

/-- Two spans are compared and share a byte (R442). -/
def Span.meets (x y : Span) : Bool :=
  x.tier == y.tier && x.bind == y.bind && decide (x.lo < y.last ∧ y.lo < x.last) &&
    (List.range x.rows).any fun r => y.hits (x.lo + r * x.stride) x.width

/-- The bytes of a span. -/
def Span.bytes (x : Span) : List Nat :=
  (List.range x.rows).flatMap fun r => (List.range x.width).map fun i => x.lo + r * x.stride + i

/-- An access of a tile: the record, its instruction in a chain, whether it writes, and the span. -/
structure PlanAcc where
  op : Nat
  sub : Nat
  write : Bool
  span : Span
deriving DecidableEq, Repr

namespace PlanCtx

/-! ### What a tile reads and writes -/

/-- A span in a tensor. -/
def spanOf (c : PlanCtx) (i lo rows width : Nat) : Span :=
  let t := c.ten i
  ⟨t.tier, t.bind, t.offset + lo, rows, t.rowStride, width⟩

/-- A whole tensor. -/
def whole (c : PlanCtx) (i : Nat) : Span := c.spanOf i 0 (c.ten i).rows (c.ten i).rowBytes

/-- The indices of a loop kind that a tile reaches: its own for a dispensed loop, all for another (R90). -/
def reach (c : PlanCtx) (x : LoopIdx) (kind : Nat) : List Nat :=
  match c.p.loop? kind with
  | none => [0]
  | some l => if l.dispensed then [x.get kind] else List.range (c.count kind)

/-- The first row of a tile's M group and how many it has at `MAX_ROWS` (R95, R103); with per-problem counts each problem has rows of its own. -/
def tileRows (c : PlanCtx) (x : LoopIdx) : Nat × Nat :=
  if c.p.perProblem then ((x.g * c.count 2 + x.mg) * c.p.rg, c.p.rg)
  else (x.mg * c.p.rg, min c.p.rg (c.p.maxRows - x.mg * c.p.rg))

/-- The rows of a tile in a tensor. -/
def rowsIn (c : PlanCtx) (x : LoopIdx) (i col width : Nat) : Span :=
  let r := c.tileRows x
  c.spanOf i (r.1 * (c.ten i).rowStride + col) r.2 width

/-- The block list of a stream. -/
def list (s : State) (c : PlanCtx) (bl : Nat) : List BlEntry := s.blockList (c.g.base + (s.dirRegion c.g 96).1) bl

/-- The spans that one side of an entry reaches; `idx` says that the side is indexed (R179). -/
def entrySpan (c : PlanCtx) (i lo off stride : Nat) (idx : Bool) (e : BlEntry) : Span :=
  let s0 := c.spanOf i (lo + off) (if e.kind = 0 then 1 else if idx then (c.ten i).rows else e.count) e.len
  { s0 with stride := stride }

/-- The indices of a stream's step loop that a tile reaches. -/
def steps (c : PlanCtx) (x : LoopIdx) (stepLoop : Nat) : List Nat :=
  match if stepLoop = 0 then none else c.p.loops[stepLoop - 1]? with
  | some l => c.reach x l.kind
  | none => [0]

/-- The span of a chain instruction's port in a tile, the tile's number giving SELCNT its row (R127, R133, R134, R140). -/
def portSpan (c : PlanCtx) (x : LoopIdx) (num kind t : Nat) (i : ChainInstr) : List Span :=
  let tn := c.ten t
  let cols := fun (col : Nat → Nat) => (c.reach x 1).map fun n => (elemBytes tn.fmt (col n), elemBytes tn.fmt c.p.sh.n)
  let at_ := fun n => if bitOf i.mode 0 then 0 else n * c.p.sh.n + (if i.opc = 1 then 64 * i.imm else 0)
  if i.opc = 0x41 then [c.spanOf t (num * tn.rowStride) 1 tn.rowBytes]
  else if i.opc = 0x03 then [c.whole t]
  else if i.opc = 0x05 ∨ i.opc = 0x06 then [c.rowsIn x t (elemBytes tn.fmt i.imm) (elemBytes tn.fmt 1)]
  else if kind = 0 ∨ blockSize tn.fmt ≠ 0 then
    [if i.opc = 0x02 then c.spanOf t 0 1 tn.rowBytes else c.rowsIn x t 0 tn.rowBytes]
  else (cols at_).map fun q => if i.opc = 0x02 then c.spanOf t q.1 1 q.2 else c.rowsIn x t q.1 q.2

/-- What record `k` reads and writes in a tile. Staging and gathered rows are ordered by arrival bits (R113, R114), and MRS destinations are
written by the reduction (R109): neither is listed. -/
def accesses (s : State) (c : PlanCtx) (num : Nat) (x : LoopIdx) (k : Nat) (o : OpRec) : List PlanAcc :=
  let rd := fun sp => (⟨k, 0, false, sp⟩ : PlanAcc)
  let wr := fun sp => (⟨k, 0, true, sp⟩ : PlanAcc)
  let named := fun i (f : Nat → List PlanAcc) => if i = 0x3F then [] else f i
  match o.body with
  | .pass _ _ sp af wf _ _ ps _ _ a w m mp ak ks ns gs =>
    let kmax := c.count 3 - 1
    (if c.p.stageT = some a then []
     else [rd (c.rowsIn x a 0 (ak * kmax + rowBytesOf af (c.p.sh.kpp wf sp) (if ps = 1 then 1 else 2)))]) ++
    ((c.reach x 0).flatMap fun g => (c.reach x 1).map fun n =>
      rd (c.spanOf w (g * gs + n * ns) 1 (ks * kmax + ((c.cfg o).map (·.tileBytes)).getD 0))) ++
    named m (fun i => [rd (c.spanOf i ((c.tileRows x).1 / 8) 1 (ceilDiv (c.tileRows x).2 8))]) ++ named mp fun i => [rd (c.whole i)]
  | .conv _ d ns w =>
    let n := c.p.sh.n
    ((c.reach x 1).map fun j => wr (c.rowsIn x d (j * ns) (elemBytes (c.ten d).fmt n))) ++
    (if w.scaleMode = 2 then (c.reach x 1).map fun j => rd ⟨0, 0, w.scale + j * n * 4, 1, 0, n * 4⟩ else []) ++
    (if w.biasMode = 2 then (c.reach x 1).map fun j => rd ⟨0, 0, w.bias + j * n * 4, 1, 0, n * 4⟩ else [])
  | .stream _ sr d ix mp _ sl _ bl ss ds =>
    ((c.steps x sl).flatMap fun j => (list s c bl).flatMap fun e =>
      [rd (c.entrySpan sr (j * ss) e.srcOff e.srcStride (e.kind == 2) e), wr (c.entrySpan d (j * ds) e.dstOff e.dstStride (e.kind == 3) e)]) ++
    named ix (fun i => (c.reach x 0).map fun g => rd (c.spanOf i (g * (c.ten i).rowStride) 1 (c.ten i).rowBytes)) ++
    named mp fun i => [rd (c.whole i)]
  | .mule op sr d _ sl arg ss ds =>
    let n := if op = 0 then arg else 4
    (c.steps x sl).flatMap fun j =>
      (if op = 0 then [rd (c.spanOf sr (j * ss) 1 n)] else if op = 2 then [rd (c.spanOf d (j * ds) 1 n)] else []) ++
        [wr (c.spanOf d (j * ds) 1 n)]
  | .chain _ _ _ ix a b e f g .. =>
    match c.chains[ix]? with
    | none => []
    | some ch =>
      ((List.range ch.instrs.length).zip ch.instrs).flatMap fun q =>
        let t := [a, b, e, f, g].getD q.2.port 0x3F
        if (q.2.loads || q.2.stores) && t != 0x3F then
          (c.portSpan x num ch.kind t q.2).map fun sp => ⟨k, q.1, q.2.stores, sp⟩
        else []
  | .gmm _ _ _ a .. => [rd (c.whole a)]
  | _ => []

/-- The tiles of the program at `MAX_ROWS`, with their numbers (R104). -/
def tiles (c : PlanCtx) : List (Nat × LoopIdx) :=
  let all := (c.p.loops.filter (·.dispensed)).foldl (fun (xs : List LoopIdx) l =>
    xs.flatMap fun x => (List.range (c.count l.kind)).map fun v => x.set l.kind v) [LoopIdx.zero]
  (List.range all.length).zip all

/-- Everything that a tile reads and writes. -/
def tileAcc (s : State) (c : PlanCtx) (t : Nat × LoopIdx) : List PlanAcc :=
  ((List.range c.p.ops.length).zip c.p.ops).flatMap fun o => accesses s c t.1 t.2 o.1 o.2

/-! ### Checks 17 and 18 -/

/-- Record a is ordered before record b: by record order in one thread, else by a SIGNAL after a and a WAIT before b; a stream's writes are
signalled by its `DONE_BAR` alone, or by its thread once that has waited for it (R90, R110, R176). -/
def ordered (c : PlanCtx) (a b : Nat) : Bool :=
  match c.p.ops[a]?, c.p.ops[b]? with
  | some oa, some ob =>
    if oa.thread = ob.thread then decide (a < b)
    else
      let idx := (List.range c.p.ops.length).zip c.p.ops
      let own := idx.filter fun q => q.2.thread == oa.thread && decide (a < q.1)
      let isStream := match oa.body with
        | .stream .. => true
        | .mule .. => true
        | _ => false
      let from_ := if isStream then ((own.find? fun q => (waits q.2).isSome && waits q.2 == signals oa).map (·.1)) else some a
      let bars := (if isStream then (signals oa).toList else []) ++
        match from_ with
        | some k => (own.filter fun q => decide (k < q.1)).filterMap fun q => match q.2.body with | .signal x => some x | _ => none
        | none => []
      idx.any fun q => q.2.thread == ob.thread && decide (q.1 < b) && (waits q.2).any bars.contains
  | _, _ => false

/-- Check 17 (R110). -/
def check17 (s : State) (c : PlanCtx) : Option Nat :=
  let accs := c.tiles.map (tileAcc s c)
  c.badOp fun j o => accs.any fun l => (l.filter fun r => r.op == j && !r.write).any fun r =>
    (l.filter fun w => w.write && w.op != j).any fun w =>
      ((c.p.ops[w.op]?).any fun q => q.thread != o.thread) && !c.ordered w.op j && w.span.meets r.span

/-- A read of tier 0 is covered by writes that come before it in its own tile (R109). -/
def ownWrites (c : PlanCtx) (mine all : List PlanAcc) (r : PlanAcc) : Bool :=
  let meet := all.filter fun w => w.write && w.span.meets r.span
  let before := mine.filter fun w => w.write && (if w.op = r.op then decide (w.sub < r.sub) else c.ordered w.op r.op)
  meet.isEmpty || r.span.bytes.all fun a => !(meet.any fun w => w.span.hits a 1) || before.any fun w => w.span.hits a 1

/-- Check 18 (R109, R442). -/
def check18 (s : State) (c : PlanCtx) : Option Nat :=
  let accs := c.tiles.map fun t => (t.1, tileAcc s c t)
  let all := accs.flatMap (·.2)
  c.badOp fun j _ => accs.any fun x => (x.2.filter (·.op == j)).any fun a =>
    if a.span.tier = 0 then !a.write && !c.ownWrites x.2 all a
    else accs.any fun y => y.1 != x.1 && y.2.any fun b => b.write && b.span.meets a.span

/-! ### Check 19: streams -/

/-- An entry of a block list breaks R178, R182 or R198. -/
def entryBad (c : PlanCtx) (last : Bool) (sr d ix mp smax ss ds : Nat) (e : BlEntry) : Bool :=
  let n := max e.count 1 - 1
  let side := fun i off stride step (idx : Bool) =>
    !idx && decide ((c.ten i).rows * (c.ten i).rowStride < off + n * (if e.kind = 0 then 0 else stride) + e.len + smax * step)
  decide (4 < e.kind ∨ 2 ≤ e.flags) || bitOf e.flags 0 != last || e.reserved != 0 || e.len % 4 != 0 || e.len == 0 ||
  (e.kind == 0 && e.count != 1) ||
  ((e.kind == 2 || e.kind == 3) && (ix == 0x3F || (c.ten ix).fmt != 9)) ||
  (e.kind == 4 && (mp == 0x3F || e.srcOff % e.len != 0 || e.srcStride % e.len != 0)) ||
  side sr e.srcOff e.srcStride ss (e.kind == 2) || side d e.dstOff e.dstStride ds (e.kind == 3)

/-- The first fault of a block list, as an offset in the part; none when it is sound (R177, R197, R198). -/
def listFault (s : State) (c : PlanCtx) (recOff sr d ix mp sl bl ss ds : Nat) : Option Nat :=
  let r := s.dirRegion c.g 96
  let at_ := r.1 + bl
  let h := s.part c.g at_ 16
  let n := leAt h 2 2
  let es := list s c bl
  if bl % 16 ≠ 0 ∨ r.2 < bl + 16 ∨ r.2 < bl + 16 + 32 * n then some recOff
  else if leAt h 0 2 ≠ 0x424C ∨ n = 0 ∨ 4096 < n ∨ nonzeroAt h 10 6 then some at_
  else
    (firstBad (((List.range n).zip es).map fun e =>
      (c.entryBad (e.1 + 1 == n) sr d ix mp (c.stepMax sl) ss ds e.2, at_ + 16 + 32 * e.1))).orElse fun _ =>
      let total := (es.map fun e => e.len * e.count).sum
      if total ≠ leAt h 4 6 ∨ 2 ^ 48 ≤ total then some at_ else none

/-- A Mule record breaks R190 or R441 on one tensor. -/
def muleBad (c : PlanCtx) (i n step smax : Nat) : Bool :=
  let t := c.ten i
  let bases := (c.bases t) ++
    (if (c.sizes t).isEmpty then [] else (List.range 256).filterMap fun b => if b % 2 ^ min t.align 8 = 0 then some (b + t.offset) else none)
  t.tier == 3 || decide (t.rows * t.rowStride < smax * step + n) ||
  bases.any fun b => (List.range (min smax 255 + 1)).any fun k =>
    let a := b + k * step
    a % 4 != 0 || decide (256 < a % 256 + n)

/-- The tags that a schedule's persistent streams hold beside its largest program fit (R196). -/
def schedTags (s : State) (c : PlanCtx) (d : Sched) : Bool :=
  let ps := ((d.steps.map (·.prog)).eraseDups).map (s.prog c.g)
  let held := (ps.flatMap (·.ops)).map fun o => match o.body with
    | .stream true _ _ _ _ _ _ n .. => n
    | _ => 0
  decide (held.sum + (ps.map (·.tags)).foldl max 0 ≤ 256)

/-- Check 19, as an offset in the part. -/
def check19 (s : State) (c : PlanCtx) : Option Nat :=
  let used := (c.p.ops.map fun o => match o.body with | .stream _ _ _ _ _ _ _ n .. => n | _ => 0).sum + b01 c.p.gmm?.isSome
  let one := fun (k : Nat) (o : OpRec) =>
    let at_ := c.off + c.opAt k
    let raw := slice c.b (c.opAt k) 32
    match o.body with
    | .stream _ sr d ix mp bar sl n bl ss ds =>
      if field (leAt raw 3 1) 2 2 ≠ 0 ∨ (bar ≠ 0x3F ∧ c.p.barriers ≤ bar) ∨ c.p.loops.length < sl ∨ n = 0 ∨ 256 < n ∨ (c.ten sr).role = 2 then
        some at_
      else listFault s c at_ sr d ix mp sl bl ss ds
    | .mule op sr d bar sl arg ss ds =>
      let len := if op = 0 then arg else 4
      if op = 3 ∨ (op ≠ 0 ∧ sr ≠ 0x3F) ∨ leAt raw 10 2 ≠ 0 ∨ (bar ≠ 0x3F ∧ c.p.barriers ≤ bar) ∨ c.p.loops.length < sl ∨
          (op = 0 ∧ (arg < 4 ∨ 256 < arg ∨ arg % 4 ≠ 0 ∨ (c.ten sr).role = 2 ∨ c.muleBad sr len ss (c.stepMax sl))) ∨
          c.muleBad d len ds (c.stepMax sl) then some at_
      else none
    | _ => none
  (((List.range c.p.ops.length).zip c.p.ops).findSome? fun q => one q.1 q.2).orElse fun _ =>
    if c.p.tags < used ∨ !c.scheds.all (schedTags s c) then some c.off else none

/-! ### Check 20: chain operations -/

/-- Widths of the V registers after each instruction, and whether a width rule of R146 is broken. -/
def chainWidths (w slot2 : Nat) : List ChainInstr → List Nat → Bool
  | [], _ => true
  | i :: is, v =>
    let at_ := fun r => v.getD r w
    let mine := match i.readsV with
      | r :: _ => at_ r
      | [] => if i.loads then (if i.port = 6 then slot2 else w) else w
    let mixed := i.opc != 0x40 && i.opc != 0x70 && (i.readsV.any fun r => at_ r != mine)
    let permBad := i.opc == 0x1C && (if i.mode = 0 then mine % max i.imm 1 != 0 else mine % 2 != 0)
    let quantBad := i.opc == 0x04 && blockSize i.fmt != 0 && (if i.imm = 0 then mine else i.imm) % max (blockSize i.fmt) 1 != 0
    if mixed || permBad || quantBad then false
    else chainWidths w slot2 is (v.mapIdx fun k x => if i.writesV.contains k then mine else x)

/-- A CHAIN record breaks R132 to R136 or R146. -/
def chainBad (s : State) (c : PlanCtx) (k : Nat) (o : OpRec) : Bool :=
  match o.body with
  | .chain u df mean ix a b e f g _ en s2 w =>
    match c.chains[ix]? with
    | none => true
    | some ch =>
      let ports := [a, b, e, f, g]
      let named := fun q => ports.getD q 0x3F != 0x3F
      let used := (ch.instrs.filter fun i => i.loads || i.stores).map (·.port)
      let epi := ch.kind == 1
      let wide := if epi then c.p.sh.n else 256
      let passes := c.p.ops.filterMap fun q => match q.body with | .pass v .. => if v = u then c.cfg q else none | _ => none
      let keys := (c.p.loop? 3).any (·.keys)
      decide (s.nChains c.g ≤ ix) ||
      (List.range 5).any (fun q =>
        (named q && (c.ten (ports.getD q 0)).fmt != ch.portFmt q) || (!named q && (ch.portFmt q != 0xFF || used.contains q))) ||
      (used.contains 6 && !en) || (en && decide (s2 = 0 ∨ 16 < s2)) || (mean && !df) ||
      (if epi then
        o.level != c.outer || !((c.p.ops.take k).any fun q => decide (c.outer < q.level)) || !([8, 9].contains w.outFmt)
       else
        u != 0 || en || df || nonzeroAt (slice c.b (c.opAt k) 32) 16 16 || (named 0 && (c.ten a).elems % 256 != 0)) ||
      (df && (!bitOf ch.statuse 0 || keys || passes.any fun q => decide (1 < q.passes) || q.op != 0)) ||
      !chainWidths wide (s2 * 64) ch.instrs (List.replicate 16 wide)
  | _ => false

/-- Check 20. -/
def check20 (s : State) (c : PlanCtx) : Option Nat := c.badOp (chainBad s c)

/-! ### Checks 21 and 22: collectives -/

/-- A group entry breaks R258 for a collective of P pieces. -/
def groupBad (s : State) (c : PlanCtx) (e pieces : Nat) : Bool :=
  let x := s.groupEntry c.g e
  let dims := field x 0 6
  let mask := field x 8 6
  decide (s.nGroups c.g ≤ e) || !bitOf x 31 || dims == 0 || dims &&& mask != 0 || field x 16 6 &&& (0x3F - mask) != 0 ||
    field x 6 2 != 0 || field x 14 2 != 0 || field x 22 9 != 0 || decide (2 ^ s.dims ≤ dims ∨ 2 ^ s.dims ≤ mask) ||
    pieces != 2 ^ ((List.range 6).filter dims.testBit).length || decide (pieces < 2 ∨ 64 < pieces)

/-- Check 21. -/
def check21 (s : State) (c : PlanCtx) : Option Nat :=
  let lev := if c.p.msplit then c.p.levelOf 2 else 0
  let extent := fun kind => ((c.p.loop? kind).map (·.extent)).getD 0
  c.badOp fun k o =>
    let earlier := fun (f : OpBody → Bool) => (c.p.ops.take k).any fun q => f q.body
    match o.body with
    | .gmm e n _ _ ga pk _ st =>
      earlier (fun b => match b with | .gmm .. => true | _ => false) || o.level != lev || groupBad s c e n ||
        !([1, 2].contains (c.ten ga).tier) || (c.ten st).tier != 0 || n * pk != extent 3
    | .mrs e n d pn w =>
      earlier (fun b => match b with | .mrs .. => true | _ => false) || o.level != lev || groupBad s c e n ||
        !([8, 6].contains w.outFmt) || field (c.ten d).fmt 0 4 != w.outFmt || pn % c.p.sh.n != 0 || n * pn != extent 1
    | _ => false

/-- Check 22 (R118). -/
def check22 (c : PlanCtx) : Option Nat :=
  c.badOp fun _ o => match o.body with
    | .gmm _ _ _ _ _ _ _ st => !c.p.ops.any fun q => match q.body with | .pass _ _ _ _ _ _ _ _ _ _ a .. => a == st | _ => false
    | .mrs .. => !((c.p.ops.any fun q => match q.body with | .conv .. => true | _ => false) &&
        c.p.ops.any fun q => match q.body with | .pass .. => true | _ => false)
    | _ => false

/-! ### The checks in order -/

/-- The first check that a tile program fails: its number and its place in the part (R119). -/
def fault (s : State) (c : PlanCtx) : Option (Nat × Nat) :=
  let say := fun n (o : Option Nat) => o.map fun x => (n, c.off + x)
  let abs := fun n (o : Option Nat) => o.map fun x => (n, x)
  ([fun _ => say 1 (c.check1 (c.g.partBytes - c.off)), fun _ => say 2 c.check2, fun _ => say 3 c.check3, fun _ => say 4 c.check4,
    fun _ => say 5 (c.check5 s.poolEnd), fun _ => say 6 c.check6, fun _ => say 7 c.check7, fun _ => say 8 c.check8,
    fun _ => say 9 c.check9, fun _ => say 10 c.check10, fun _ => say 11 c.check11, fun _ => say 12 c.check12, fun _ => say 13 c.check13,
    fun _ => say 14 c.check14, fun _ => say 15 c.check15, fun _ => say 16 c.check16, fun _ => say 17 (check17 s c),
    fun _ => say 18 (check18 s c), fun _ => abs 19 (check19 s c), fun _ => say 20 (check20 s c), fun _ => say 21 (check21 s c),
    fun _ => say 22 c.check22] : List (Unit → Option (Nat × Nat))).findSome? fun f => f ()

end PlanCtx

/-- R119 on every tile program of an image, in image order. -/
def State.plansFault (s : State) (g : Image) : Option LoadFault :=
  (List.range (s.nProgs g)).findSome? fun k => (PlanCtx.fault s (s.planCtx g k)).map fun f => ⟨St.plan f.1, k, f.2⟩

/-- The checks of R304 in order; `sigOk` is the verdict on the manifest's two signatures (R393). -/
def State.loadFault (s : State) (g : Image) (sigOk : Bool) : Option LoadFault :=
  match (List.range (g.partBytes / 1024)).find? (fun u => !g.got.contains u) with
  | some u => some ⟨St.imageIncomplete, 0, 1024 * u⟩
  | none =>
    if !(s.manifestOk g && sigOk) then some ⟨St.imageSignatureInvalid, 0, 0⟩
    else
      match s.bodyFault g with
      | some o => some ⟨St.imageManifestMismatch, 0, o⟩
      | none =>
        if s.regionsBusy g then some ⟨St.imageRegionBusy, 0, 0⟩
        else (s.layoutFault g).orElse fun _ => (s.chainsFault g).orElse fun _ => s.plansFault g

end Sys2Proof.Machine
end

