-- ==== Sys2Proof/Machine/ChainCalc.lean ====
section
/-! DEFINITION. The arithmetic of chain instructions: FP32 operations (R128), the five approximated functions (R129), reductions (R128),
selection (R139), stage rounding (R131) and quantising stores (R141). -/

namespace Sys2Proof.Machine

/-! ### Lanewise operations (R128) -/

/-- SA + SB. -/
def fAdd (a b : Word) : Word := round32 ((val32 a).add (val32 b))
/-- SA − SB. -/
def fSub (a b : Word) : Word := round32 ((val32 a).sub (val32 b))
/-- SA × SB. -/
def fMul (a b : Word) : Word := round32 ((val32 a).mul (val32 b))
/-- SA × SB + SC with one rounding. -/
def fFma (a b c : Word) : Word := round32 (((val32 a).mul (val32 b)).add (val32 c))
/-- The operand is NaN. -/
def isNan (a : Word) : Bool := val32 a == .nan
/-- The operand itself, or the canonical NaN for any NaN. -/
def fPass (a : Word) : Word := if isNan a then nan32 else a
/-- Maximum: NaN when any operand is NaN, −0 below +0, subnormals unchanged. -/
def fMax (a b : Word) : Word :=
  if isNan a || isNan b then nan32 else if (val32 b).above (val32 a) then b else a
/-- Minimum. -/
def fMin (a b : Word) : Word :=
  if isNan a || isNan b then nan32 else if (val32 a).above (val32 b) then b else a
/-- Sign inverted. -/
def fNeg (a : Word) : Word := if isNan a then nan32 else a ^^^ 0x80000000
/-- Sign cleared. -/
def fAbs (a : Word) : Word := if isNan a then nan32 else a &&& 0x7FFFFFFF
/-- +1. -/
def one32 : Word := 0x3F800000
/-- SA where SC ≠ 0, otherwise SB; a NaN condition differs from 0. -/
def fSel (a b c : Word) : Word := if (val32 c).eqv .zero then fPass b else fPass a
/-- +1 where SA > SB. -/
def fCgt (a b : Word) : Word := if (val32 a).gt (val32 b) then one32 else 0
/-- +1 where SA ≥ SB. -/
def fCge (a b : Word) : Word := if (val32 a).gt (val32 b) || (val32 a).eqv (val32 b) then one32 else 0
/-- +1 where SA = SB. -/
def fCeq (a b : Word) : Word := if (val32 a).eqv (val32 b) then one32 else 0

/-! ### The five functions (R129) -/

/-- Fraction bits of the fixed-point values below. -/
def fixP : Nat := 320

/-- The integer square root, one bit at a time from bit `k − 1`. -/
def isqrt (n : Nat) : Nat → Nat → Nat
  | 0, r => r
  | k + 1, r => if (r + 2 ^ k) * (r + 2 ^ k) ≤ n then isqrt n k (r + 2 ^ k) else isqrt n k r

/-- The sum of `n` terms of the exponential series in fixed point, from term `k` of value `t`. -/
def expSeries (y : Nat) : Nat → Nat → Nat → Nat
  | 0, _, _ => 0
  | n + 1, k, t => t + expSeries y n (k + 1) (t * y / 2 ^ fixP / (k + 1))

/-- Repeated squaring in fixed point. -/
def sqTimes : Nat → Nat → Nat
  | 0, v => v
  | n + 1, v => sqTimes n (v * v / 2 ^ fixP)

/-- e^y for a fixed-point y below 256. -/
def expFix (y : Nat) : Nat := sqTimes 8 (expSeries (y / 256) 64 0 (2 ^ fixP))

/-- The series of ln 2 in fixed point. -/
def ln2Series : Nat → Nat → Nat
  | 0, _ => 0
  | n + 1, k => 2 ^ fixP / (k * 2 ^ k) + ln2Series n (k + 1)

/-- ln 2 in fixed point. -/
def ln2Fix : Nat := ln2Series 330 1

/-- The series of 2·artanh z in fixed point: term 2·z^(2k+1) ÷ (2k + 1) from the odd power `t`. -/
def artanhSeries (z2 : Nat) : Nat → Nat → Nat → Nat
  | 0, _, _ => 0
  | n + 1, k, t => 2 * t / (2 * k + 1) + artanhSeries z2 n (k + 1) (t * z2 / 2 ^ fixP)

/-- A positive value v · 2^e that FP32 does not hold, as the neighbour nearer to zero or the one beyond it (R129), under R83. -/
def neighbour (f : Nat) (x : Word) (neg : Bool) (v : Nat) (e : Int) : Word :=
  let lg := Nat.log2 v
  let n := if 23 ≤ lg then v / 2 ^ (lg - 23) else v * 2 ^ (23 - lg)
  let q : Int := e + lg - 23
  round32 (.fin neg (n + b01 (Config.roundsAway f x)) q)

/-- A finite magnitude as a fixed-point number, its value being below 2^9. -/
def toFix (m : Nat) (e : Int) : Nat :=
  let k : Int := e + fixP
  if 0 ≤ k then m * 2 ^ k.toNat else m / 2 ^ (-k).toNat

/-- A magnitude m · 2^e of at least 2^k. -/
def atLeast (m : Nat) (e : Int) (k : Int) : Bool := m ≠ 0 && decide (k ≤ e + (Nat.log2 m : Nat))

/-- EXP. -/
def fExp (x : Word) : Word :=
  match val32 x with
  | .nan => nan32
  | .inf s => if s then 0 else 0x7F800000
  | .fin s m e =>
    if m = 0 then one32
    else if atLeast m e 7 then (if s then 0 else 0x7F800000)
    else
      let y := expFix (toFix m e)
      if s then neighbour 0 x false (2 ^ (2 * fixP) / y) (-(fixP : Int)) else neighbour 0 x false y (-(fixP : Int))

/-- EXP2. -/
def fExp2 (x : Word) : Word :=
  match val32 x with
  | .nan => nan32
  | .inf s => if s then 0 else Config.unstatedFn 1 x
  | .fin s m e =>
    if m = 0 then one32
    else if atLeast m e 8 then (if s then 0 else 0x7F800000)
    else
      let y := toFix m e
      let whole := y / 2 ^ fixP
      let frac := y % 2 ^ fixP
      if frac = 0 then round32 (.fin false 1 (if s then -(whole : Int) else whole))
      else
        let i : Int := if s then -(whole : Int) - 1 else whole
        let f := if s then 2 ^ fixP - frac else frac
        neighbour 1 x false (expFix (f * ln2Fix / 2 ^ fixP)) (i - fixP)

/-- LOG2. -/
def fLog2 (x : Word) : Word :=
  match val32 x with
  | .nan => nan32
  | .inf s => if s then nan32 else Config.unstatedFn 2 x
  | .fin s m e =>
    if m = 0 then (if s then Config.unstatedFn 2 x else 0xFF800000)
    else if s then nan32
    else
      let lg := Nat.log2 m
      let k : Int := e + lg
      if m = 2 ^ lg then round32 (.ofInt k)
      else
        let z := (m - 2 ^ lg) * 2 ^ fixP / (m + 2 ^ lg)
        let ln := artanhSeries (z * z / 2 ^ fixP) 120 0 z
        let frac := ln * 2 ^ fixP / ln2Fix
        let v : Int := k * ((2 ^ fixP : Nat) : Int) + frac
        neighbour 2 x (decide (v < 0)) v.natAbs (-(fixP : Int))

/-- RSQRT. -/
def fRsqrt (x : Word) : Word :=
  match val32 x with
  | .nan => nan32
  | .inf s => if s then nan32 else 0
  | .fin s m e =>
    if m = 0 then (if s then 0xFF800000 else 0x7F800000)
    else if s then nan32
    else
      let odd := decide (e % 2 ≠ 0)
      let m' := if odd then 2 * m else m
      let e' := if odd then e - 1 else e
      let lg := Nat.log2 m'
      if m' = 2 ^ lg ∧ lg % 2 = 0 then round32 (.fin false 1 (-(e' / 2) - (lg / 2 : Nat)))
      else neighbour 3 x false (isqrt (2 ^ (2 * fixP) / m') (fixP + 1) 0) (-(e' / 2) - fixP)

/-- RCP. -/
def fRcp (x : Word) : Word :=
  match val32 x with
  | .nan => nan32
  | .inf s => if s then 0x80000000 else 0
  | .fin s m e =>
    if m = 0 then (if s then 0xFF800000 else 0x7F800000)
    else
      let lg := Nat.log2 m
      if m = 2 ^ lg then round32 (.fin s 1 (-e - (lg : Nat)))
      else neighbour 4 x s (2 ^ fixP / m) (-e - fixP)

/-! ### Reductions (R128) -/

/-- One level of the binary tree: lane 2i with lane 2i + 1; an odd last lane passes. -/
def pairUp (f : Word → Word → Word) : List Word → List Word
  | a :: b :: t => f a b :: pairUp f t
  | l => l

/-- The fixed binary tree over the lanes; `fuel` is at least the number of levels. -/
def treeReduce (f : Word → Word → Word) : Nat → List Word → Word
  | _, [] => 0
  | _, [a] => a
  | 0, a :: _ => a
  | fuel + 1, l => treeReduce f fuel (pairUp f l)

/-- RSUM. -/
def rSum (l : List Word) : Word := treeReduce fAdd l.length l
/-- RMAX. -/
def rMax (l : List Word) : Word := fPass (treeReduce fMax l.length l)
/-- RMIN. -/
def rMin (l : List Word) : Word := fPass (treeReduce fMin l.length l)
/-- RSSQ: the bits of MUL of SA by itself followed by RSUM. -/
def rSsq (l : List Word) : Word := rSum (l.map fun x => fMul x x)

/-! ### Selection (R139) -/

/-- Candidate a ranks before b: by value, then by ascending column index; a NaN ranks after every number. -/
def topBefore (smallest : Bool) (a b : Word × Word) : Bool :=
  let va := val32 a.1
  let vb := val32 b.1
  let tie := (val32 b.2).gt (val32 a.2)
  if isNan a.1 && isNan b.1 then tie
  else if isNan a.1 then false
  else if isNan b.1 then true
  else
    let better := if smallest then vb.gt va else va.gt vb
    let worse := if smallest then va.gt vb else vb.gt va
    better || (!worse && tie)

/-- Insert a candidate in rank order. -/
def topInsert (smallest : Bool) (x : Word × Word) : List (Word × Word) → List (Word × Word)
  | [] => [x]
  | y :: t => if topBefore smallest x y then x :: y :: t else y :: topInsert smallest x t

/-- The k best candidates, best first. -/
def topK (smallest : Bool) (k : Nat) (l : List (Word × Word)) : List (Word × Word) :=
  (l.foldl (fun acc x => topInsert smallest x acc) []).take k

/-- The FP32 word of a natural number. -/
def natWord (n : Nat) : Word := round32 (.fin false n 0)

/-! ### PERM (R127) -/

/-- Rotate-half in groups of g lanes. -/
def rotateHalf (g : Nat) (l : List Word) : List Word :=
  (List.range l.length).map fun j =>
    let i := j % g
    if i < g / 2 then fNeg (l.getD (j + g / 2) 0) else fPass (l.getD (j - g / 2) 0)

/-- Pair swap. -/
def pairSwap (l : List Word) : List Word :=
  (List.range l.length).map fun j => if j % 2 = 0 then fNeg (l.getD (j + 1) 0) else fPass (l.getD (j - 1) 0)

/-! ### Stores -/

/-- A plain store to an element format (R130): RAW8 rounds to nearest even and saturates at 0 and 255, 0 for NaN. -/
def storeCode (el : Elem) (w : Word) : Nat :=
  match el with
  | .raw8 =>
    match val32 w with
    | .nan => 0
    | .inf s => if s then 0 else 255
    | .fin s m e => if s then 0 else min 255 (roundUnits false m e 0)
  | _ => el.encode false (val32 w)

/-- The value that STG leaves in a lane (R131). -/
def stageLane (el : Elem) (w : Word) : Word := round32 (el.decode (storeCode el w))

/-- e of R141 for an element format. -/
def quantE : Elem → Nat
  | .e4m3 => 8 | .e5m2 => 15 | .e2m1 => 2 | .int8 => 6 | _ => 2

/-- One block of a quantising store: its scale byte and element codes (R141). -/
def quantBlock (el : Elem) (l : List Word) : Nat × List Nat :=
  let vs := l.map val32
  if vs.any (· == .nan) then (0xFF, l.map fun _ => 0)
  else
    let mx := vs.foldl (fun (a : FVal) v =>
      match v with
      | .fin _ m e => if m ≠ 0 ∧ (FVal.fin false m e).gt a then .fin false m e else a
      | _ => a) .zero
    let x : Int :=
      match mx with
      | .fin _ m e => if m = 0 then -127 else max (-127) (min 127 (e + (Nat.log2 m : Nat) - quantE el))
      | _ => -127
    ((x + 127).toNat, vs.map fun v => el.encode false (v.scale (-x)))

end Sys2Proof.Machine
end

