-- ==== Sys2Proof/Machine/Pass.lean ====
section
/-! DEFINITION. The issue of a pass (R37 to R63, R91, R114, R135): its operands, its results, and what it raises. -/

namespace Sys2Proof.Machine

/-! ### Statistic memory (R122) -/

/-- What a statistic field holds after the entry set of R122. -/
def statInit (f : Nat) : Word := if f = 2 then 0xFF800000 else 0

/-- Field f of an entry. -/
def VecState.stat (v : VecState) (e f : Nat) : Word := sget 0#32 v.stats (4 * e + f) ^^^ statInit f

/-- Field f of an entry set. -/
def VecState.setStat (v : VecState) (e f : Nat) (w : Word) : VecState :=
  { v with stats := sset 0#32 v.stats (4 * e + f) (w ^^^ statInit f) }

/-- An entry marked poisoned. -/
def VecState.markBad (v : VecState) (e : Nat) : VecState := { v with statBad := sset false v.statBad e true }

/-! ### Operands of a pass -/

/-- The fields of a PASS record. -/
structure PassRec where
  unit : Nat
  op : Nat
  sparse : Bool
  afmt : Nat
  wfmt : Nat
  bitmap : Bool
  init : Bool
  passes : Nat
  slotBase : Nat
  aT : Nat
  wT : Nat
  maskT : Nat
  mapT : Nat
  aKstep : Nat
  wKstep : Nat
  wNstep : Nat
  wGstep : Nat
deriving DecidableEq, Repr

/-- The PASS record of an operation, if it is one. -/
def OpRec.pass? (o : OpRec) : Option PassRec :=
  match o.body with
  | .pass unit op sparse afmt wfmt bitmap init passes sb _ aT wT maskT mapT ak wk wn wg =>
    some ⟨unit, op, sparse, afmt, wfmt, bitmap, init, passes, sb, aT, wT, maskT, mapT, ak, wk, wn, wg⟩
  | _ => none

/-- The array configuration of a pass on a program's shape. -/
def PassRec.cfg (r : PassRec) (p : Prog) : PassCfg := ⟨r.op, r.sparse, r.afmt, r.wfmt, r.passes, p.sh.n, p.sh.depth⟩

/-- The rows of a pass with their number in the M group: all of the group's, or those of the MI iteration (R90, R94). -/
def OpCtx.passRows (o : OpCtx) : List (Nat × RowInfo) :=
  let g := o.run.group o.at_.2
  let rows := (List.range g.length).zip g
  let lm := o.run.prog.levelOf 4
  if o.rcd.level = lm then
    let st := ((o.run.prog.loop? 4).map (·.step)).getD 64
    (rows.drop (o.at_.2.mi * st)).take st
  else rows

/-- A code of an element width at index k of a run of bytes (R68). -/
def codeAt (w : Nat) (bs : List Byte) (k : Nat) : Nat :=
  if w = 4 then field (byteOf bs (k / 2)) (4 * (k % 2)) 4 else byteOf bs k

/-- Where the parts of an operand row lie: the row's start, the first byte of the pass's elements, K of element 0 of the pass in the
row, and the row whose scales serve it. -/
structure RowPlace where
  start : Nat
  first : Nat
  k0 : Nat
  scaleStart : Nat
  elems : Nat

/-- The place of row (m, r) of a pass (R71, R77, R91, R114). -/
def State.rowPlace (s : State) (o : OpCtx) (q : PassRec) (c m i : Nat) : RowPlace :=
  let p := o.run.prog
  let t := o.tensor q.aT
  let base := o.base s c q.aT
  let kpp := p.sh.kpp q.wfmt q.sparse
  let b := blockSize q.afmt
  if p.stageT = some q.aT then
    let row := fun j => base + ((o.at_.2.k % 2) * p.rg + j) * t.rowStride
    ⟨row m, row m, 0, row (if blockDir q.afmt then m - m % b else m), kpp⟩
  else
    let row := fun j => base + j * t.rowStride
    ⟨row i, row i + o.at_.2.k * q.aKstep, o.at_.2.k * kpp, row (if blockDir q.afmt then i - i % b else i), t.elems⟩

/-- Bytes of one slice's elements and scales in an operand row. -/
def sliceBytes (fmt elems : Nat) : Nat :=
  elems * (elemOf fmt).width / 8 +
    (if blockSize fmt = 0 then 0 else elems / (if blockDir fmt then 8 else blockSize fmt))

/-- Address of the scale byte of K index k of the pass, for slice 0 or 1. -/
def RowPlace.scaleAt (w : RowPlace) (fmt slice k : Nat) : Nat :=
  w.scaleStart + slice * sliceBytes fmt w.elems + w.elems * (elemOf fmt).width / 8 +
    (w.k0 + k) / (if blockDir fmt then 8 else blockSize fmt)

/-- The GMM fields a gather needs. -/
structure GmmRec where
  group : Nat
  pieces : Nat
  kxor : Bool
  srcT : Nat
  gatherT : Nat
  pieceK : Nat
  pieceBytes : Nat
  stageT : Nat

/-- The GMM of a program. -/
def Prog.gmmRec (p : Prog) : Option GmmRec :=
  match p.gmm? with
  | some (_, .gmm g n x src gt pk pb st) => some ⟨g, n, x, src, gt, pk, pb, st⟩
  | _ => none

/-- Rows of an M group. -/
def ProgRun.mgRows (r : ProgRun) (mg : Nat) : List RowInfo := r.group { LoopIdx.zero with mg := mg }

/-- G_live of R114. -/
def Prog.gLive (p : Prog) : Nat := min 64 (ceilDiv p.maxRows (max p.rg 1))

/-- Local address of row m of piece q of an M group in `GATHER_T` (R112, R114). -/
def ProgRun.gatherAddr (r : ProgRun) (dev : Nat) (g : GmmRec) (mg m q : Nat) : Nat :=
  let t := (r.prog.tensor g.gatherT).getD ⟨0, 0, 0, 0, 0, 0, 0, 0, 0, 0, 0⟩
  r.base dev 0 t + ((mg % r.prog.gLive) * r.prog.rg + m) * t.rowStride + q * g.pieceBytes

/-- Copy bytes between places in memory; words of which a source byte is poisoned come out poisoned. -/
def State.copyBytes (s : State) (c to_ from_ n : Nat) : State :=
  if to_ % 4 = 0 ∧ from_ % 4 = 0 ∧ n % 4 = 0 then s.putWords to_ (s.peekWords from_ (n / 4))
  else
    let b := s.peekBytes from_ n
    let s1 := s.putBytes (unitCore c 0x11) (St.islCore c) to_ b.1
    if b.2 then s1.poisonRange (to_ / 4 * 4) (ceilDiv (to_ % 4 + n) 4) else s1

/-- Copy a pass's K range of every row of the M group from `GATHER_T` into its half of `STAGE_T` in core c's operand buffer: the elements,
then their scales, for each slice (R112, R114). -/
def State.stagePass (s : State) (o : OpCtx) (c kpp : Nat) : State :=
  let r := o.run
  match r.prog.gmmRec with
  | none => s
  | some g =>
    let fmt := (o.tensor g.srcT).fmt
    let w := (elemOf fmt).width
    let div := if blockSize fmt = 0 then 0 else if blockDir fmt then 8 else blockSize fmt
    let k := o.at_.2.k
    let per := max (g.pieceK / max kpp 1) 1
    let q := gmmPiece g.kxor (rankOf (sget 0 r.groupDims g.group) s.devIndex) g.pieceK kpp k
    let big := sliceBytes fmt g.pieceK
    let small := sliceBytes fmt kpp
    (List.range (r.mgRows o.at_.2.mg).length).foldl (init := s) fun s m =>
      (List.range (g.pieceBytes / max big 1)).foldl (init := s) fun s sl =>
        let from_ := r.gatherAddr s.devIndex g o.at_.2.mg m q + sl * big
        let to_ := o.base s c g.stageT + ((k % 2) * r.prog.rg + m) * (o.tensor g.stageT).rowStride + sl * small
        let s1 := s.copyBytes c to_ (from_ + (k % per) * (kpp * w / 8)) (kpp * w / 8)
        if div = 0 then s1
        else s1.copyBytes c (to_ + kpp * w / 8) (from_ + g.pieceK * w / 8 + (k % per) * (kpp / div)) (kpp / div)

/-- An operand row as its feeder delivers it, with the addresses of poisoned words met (R60). -/
def State.readRow (s : State) (cfg : PassCfg) (w : RowPlace) : RowIn × List Nat :=
  let wd := (elemOf cfg.afmt).width
  let n := cfg.span * wd / 8
  let lo0 := w.first + sliceBytes cfg.afmt w.elems
  let hi := (s.peekBytes w.first n).1
  let lo := if cfg.passes = 1 then [] else (s.peekBytes lo0 n).1
  let div := if blockDir cfg.afmt then 8 else blockSize cfg.afmt
  let has := decide (blockSize cfg.afmt ≠ 0)
  let scn := if has then (w.k0 + cfg.span - 1) / div - w.k0 / div + 1 else 0
  let sc := fun slice => (s.peekBytes (w.scaleAt cfg.afmt slice 0) scn).1
  let sc0 := sc 0
  let sc1 := sc 1
  let get := fun (l : List Byte) k => if has then some (byteOf l ((w.k0 + k) / div - w.k0 / div)) else none
  let words := fun a n => s.poisonAddrs (a / 4 * 4) (if n = 0 then 0 else (a + n + 3) / 4 - a / 4)
  let bad := words w.first n ++ (if cfg.passes = 1 then [] else words lo0 n) ++ words (w.scaleAt cfg.afmt 0 0) scn ++
    (if cfg.passes = 1 then [] else words (w.scaleAt cfg.afmt 1 0) scn)
  (⟨codeAt wd hi, codeAt wd lo, get sc0, get sc1, w.scaleAt cfg.afmt 0⟩, bad)

/-- Records and counters of reading the parts of an operand row. -/
def State.noteRow (s : State) (cfg : PassCfg) (w : RowPlace) (who : UnitId) (isl : Nat) (cx : Option Ctx) : State :=
  let wd := (elemOf cfg.afmt).width
  let n := cfg.span * wd / 8
  let note := fun (s : State) a n => s.noteWords who isl (a / 4 * 4) (if n = 0 then 0 else (a + n + 3) / 4 - a / 4) cx
  let div := if blockDir cfg.afmt then 8 else blockSize cfg.afmt
  let scn := if blockSize cfg.afmt = 0 then 0 else (w.k0 + cfg.span - 1) / div - w.k0 / div + 1
  let s1 := note (note s w.first n) (w.scaleAt cfg.afmt 0 0) scn
  if cfg.passes = 1 then s1
  else note (note s1 (w.first + sliceBytes cfg.afmt w.elems) n) (w.scaleAt cfg.afmt 1 0) scn

/-- The bit of block (kb, nb) of a weight's block bitmap (R56): row-major over K blocks then N blocks, each problem from a byte
boundary. -/
def State.blockBit (s : State) (o : OpCtx) (c mapT kb nb : Nat) : Bool :=
  let p := o.run.prog
  let nn := (((p.loop? 1).map (·.extent)).getD p.sh.n) / 64
  let nk := ceilDiv (((p.loop? 3).map (·.extent)).getD 64) 64
  let bit := kb * nn + nb
  bitOf (((s.peekBytes (o.base s c mapT + o.at_.2.g * ceilDiv (nk * nn) 8 + bit / 8) 1).1.headD 0).toNat) (bit % 8)

/-- Whether (K index of the pass, column) lies in a zero block. -/
def State.zeroAt (s : State) (o : OpCtx) (q : PassRec) (c k n : Nat) : Bool :=
  let p := o.run.prog
  let kpp := p.sh.kpp q.wfmt q.sparse
  q.bitmap && !s.blockBit o c q.mapT ((o.at_.2.k * kpp + k) / 64) ((o.at_.2.n * p.sh.n + n) / 64)

/-- Every block under the pass's weight tile is zero (R56). -/
def State.allZero (s : State) (o : OpCtx) (q : PassRec) (c : Nat) : Bool :=
  let p := o.run.prog
  let kpp := p.sh.kpp q.wfmt q.sparse
  q.bitmap && (List.range (ceilDiv kpp 64)).all fun kb => (List.range (p.sh.n / 64)).all fun nb =>
    s.zeroAt o q c (64 * kb) (64 * nb)

/-- The tap that a deferred epilogue of the program puts on a unit: whether it also sums values (R135). -/
def Prog.tap (p : Prog) (unit : Nat) : Option Bool :=
  (p.ops.filterMap fun o => match o.body with
    | .chain u defer mean .. => if defer && u == unit then some mean else none
    | _ => none).head?

/-- The pass injects the slot contents (INIT = 0): not the first K iteration, or as a paired record says (R40, R91). -/
def OpCtx.injects (o : OpCtx) (q : PassRec) : Bool :=
  if o.run.prog.paired o.rcd then !q.init else decide (o.at_.2.k ≠ 0)

/-! ### The pass -/

/-- The results of one valid row: the slot rows it will write, whether a step saturated, and its first scale failure. -/
structure RowOut where
  writes : List RowWrite
  sat : Bool
  mx : Option (Nat × Nat)
  poison : Bool
  sums : Word × Word
deriving DecidableEq, Repr

/-- One row through the array (R38 to R41). `dead` poisons every row of the pass; `blank` writes zero data bits with it (R55). -/
def State.rowOut (s : State) (o : OpCtx) (q : PassRec) (c v m : Nat) (i : Nat) (t : TileIn) (dead blank : Bool) : RowOut :=
  let p := o.run.prog
  let cfg := q.cfg p
  let rd := s.readRow cfg (s.rowPlace o q c m i)
  let addr := fun sub => slotRowAddr c (p.slot q.slotBase v o.tile.half (m / 64) sub) (m % 64)
  let inj := o.injects q
  let subs := (List.range (cfg.n / 64)).map fun sub =>
    let old := if inj then s.slotRow c (addr sub) else []
    let outs := (List.range 64).map fun j =>
      columnChain cfg rd.1 t (64 * sub + j) (if inj then (old.getD j ⟨0, false⟩).bits else cfg.identity)
    (addr sub, outs, old.any (·.poison))
  let mx := ((subs.flatMap fun x => x.2.1).filterMap (·.mx)).head?
  let bad := dead || !rd.2.isEmpty || mx.isSome || subs.any (·.2.2)
  { writes := subs.map fun x => ⟨x.1, x.2.1.map fun y => ⟨if blank then 0 else y.c, bad⟩⟩
    sat := subs.any fun x => x.2.1.any (·.sat)
    mx := mx, poison := bad, sums := tapSums cfg rd.1 }

/-- The records of a pass: a 2:4 group that fails (R55), scales out of range (R73, R443), a saturated step (R63), parity (R61). -/
def State.passFaults (s : State) (c u lamb waddr : Nat) (metaOk sat : Bool) (mx : Option (Nat × Nat))
    (par : Option (Fin 8 × Bool)) : State :=
  let s1 := if metaOk then s
    else ((s.ror (.lamb c) 4 4).raiseCore c lamb St.clsConfig St.sparseMetaInvalid waddr 0).failTile c u St.sparseMetaInvalid
  let s2 := match mx with
    | none => s1
    | some (w, a) => (s1.raiseCore c lamb St.clsConfig St.mxScaleRange w a).failTile c u St.mxScaleRange
  let s3 := if !sat then s2
    else
      let s' := s2.ror (.lamb c) 4 2
      let first := (s'.coreCtx c).any fun x => !x.satReported
      if bitOf (s'.rforce (.lamb c) 0xC).toNat 1 && first then
        let s'' := s'.raiseCore c lamb St.clsConfig St.accSaturated 0 0
        match s''.coreSlot c with
        | some k => s''.modCtx k fun x => { x with satReported := true }
        | none => s''
      else s'
  match par with
  | none => s3
  | some (l, rowReg) =>
    let s' := s3.rset (.lamb c) 0x10 (BitVec.ofNat 32 (l.val + 8 + put (b01 rowReg) 4 2))
    let s'' := s'.raiseCore c l.val St.clsUe 0 waddr (b01 rowReg)
    (s''.noteParity c).taintTile c u [waddr]

/-- Update the statistics of the rows under a tap (R135). -/
def State.applyTap (s : State) (c v half : Nat) (p : Prog) (mean : Bool) (rows : List (Nat × RowOut)) : State :=
  s.modCore c fun x => { x with vec := rows.foldl (init := x.vec) fun vec r =>
    let e := p.entry v half r.1
    let v1 := vec.setStat e 0 (fAdd (vec.stat e 0) r.2.sums.1)
    let v2 := if mean then v1.setStat e 1 (fAdd (v1.stat e 1) r.2.sums.2) else v1
    if r.2.poison then v2.markBad e else v2 }

/-- A chain operation issued earlier may still write the slots that an injecting pass of the tile on unit u reads (R134). -/
def CoreState.chainHolds (x : CoreState) (u : Nat) : Bool :=
  (x.vec.queue ++ (match x.vec.run with | some r => [r.op] | none => [])).any fun o => o.unit == u && o.prog.kind == 1

/-- A conversion of the same thread still writes bytes of a tensor that a pass reads. -/
def State.convFeeds (s : State) (o : OpCtx) (c t i : Nat) : Bool :=
  let b := o.base s c i
  let n := (o.tensor i).rows * (o.tensor i).rowStride
  (s.core c).convs.any fun j => j.thread == t && j.dst.any fun d => decide (b ≤ d.1 + 3 ∧ d.1 < b + n)

/-- The gathered piece from which a pass takes its operand rows, if it reads the staging of the program's GMM (R112, R114). -/
def OpCtx.piece (o : OpCtx) (dev : Nat) (q : PassRec) : Option Nat :=
  let p := o.run.prog
  match p.gmm? with
  | some (_, .gmm g _ kxor _ _ pk _ st) =>
    if st = q.aT then some (gmmPiece kxor (rankOf (sget 0 o.run.groupDims g) dev) pk (p.sh.kpp q.wfmt q.sparse) o.at_.2.k) else none
  | _ => none

/-- The piece that a pass needs, if any, has arrived (R113). -/
def OpCtx.pieceHere (o : OpCtx) : Option Nat → Bool
  | none => true
  | some pc => (o.run.gather o.at_.2.mg).any fun g => bitOf g.mask pc

/-- Issue a pass of operation `op` (R46). -/
def State.issuePass (s : State) (op c u t : Nat) (ev : PassEvents) : State :=
  match s.nextOp c u t with
  | none => s
  | some o =>
    match o.rcd.pass? with
    | none => s
    | some q =>
      let p := o.run.prog
      let v := unitAt p q.unit u
      let lambs := lambMask p v
      let x := s.core c
      if q.op ≠ op ∨ !s.mayIssue c ∨ x.flights.any (fun f => f.lambs &&& lambs ≠ 0) then s
      else if (o.injects q && x.chainHolds u) || s.convFeeds o c t q.aT || s.convFeeds o c t q.wT then s
      else
        let piece := o.piece s.devIndex q
        let here := o.pieceHere piece
        if !here then s.register c t 5 (piece.getD 0) 0 false false u
        else if bitOf (s.rforce (.lamb c) 0xC).toNat 0 && o.injects q && s.allZero o q c && (p.tap q.unit).isNone then
          (s.count48 (.lamb c) 0x38 1).advance c u t
        else
          let cfg := q.cfg p
          let s := if p.stageT = some q.aT then s.stagePass o c (p.sh.kpp q.wfmt q.sparse) else s
          let lamb := v * p.sh.lambs
          let who := unitCore c lamb
          let waddr := o.base s c q.wT + o.at_.2.g * q.wGstep + o.at_.2.n * q.wNstep + o.at_.2.k * q.wKstep
          let wn := cfg.tileBytes
          let tb := s.peekBytes waddr wn
          let tile : TileIn := ⟨tb.1, s.zeroAt o q c, waddr⟩
          let wbad := s.poisonAddrs waddr (wn / 4)
          let metaOk := cfg.metaOk tb.1
          let dead := !wbad.isEmpty || !metaOk || ev.parity.isSome
          let rows := o.passRows
          let valid := rows.filter fun r => r.2.valid && s.maskBit o c q.maskT r.2.i
          let outs := valid.map fun r => (r.1, s.rowOut o q c v r.1 r.2.i tile dead !metaOk)
          let rbad := valid.flatMap fun r => (s.readRow cfg (s.rowPlace o q c r.1 r.2.i)).2
          let s1 := valid.foldl (fun s' r => s'.noteRow cfg (s.rowPlace o q c r.1 r.2.i) who (St.islCore c) (s.coreCtx c))
            (s.noteWords who (St.islCore c) waddr (wn / 4) (s.coreCtx c))
          let s2 := s1.taintTile c u (wbad ++ rbad)
          let s3 := s2.passFaults c u lamb waddr metaOk (outs.any (·.2.sat)) ((outs.filterMap (·.2.mx)).head?) ev.parity
          let s4 := match p.tap q.unit with
            | none => s3
            | some mean => s3.applyTap c v o.tile.half p mean outs
          let bub := rows.length - valid.length + ev.feeder + ev.held
          let s5 := ((((s4.count48 (.lamb c) 0x20 1).count48 (.lamb c) 0x30 (bub * p.sh.lambs)).count48 (.lamb c) 0x40
            (floorCycles (p.shape == virumShape) q.passes p.sh.depth rows.length * p.sh.lambs)).count48 (.lamb c) 0x48
              (ev.held * p.sh.lambs)).count48 (.tsq c) 0x40 ev.gmmWait
          let fl : Flight := ⟨v, u, lambs, t, outs.flatMap (·.2.writes), valid.length⟩
          (((s5.modCore c fun y => { y with flights := y.flights ++ [fl] }).ror (.lamb c) 4 (lambs * 256)).advance c u t).openOp c u

/-- The last row of the oldest pass of a unit leaves the array: its final column values replace the slot rows (R40). Answers the unit
whose tile the pass belongs to. -/
def State.drainPass (s : State) (c v : Nat) : Option (State × Nat) :=
  let x := s.core c
  match x.flights.find? (·.unit == v) with
  | none => none
  | some f =>
    let s1 := f.writes.foldl (fun s w => s.putWords w.addr w.words) s
    let s2 := (s1.modCore c fun y => { y with flights := y.flights.eraseP (·.unit == v) }).count48 (.lamb c) 0x28 f.validRows
    some (s2.rclr (.lamb c) 4 (f.lambs * 256), f.tile)

end Sys2Proof.Machine
end

