-- ==== Sys2Proof/Machine/FlitCode.lean ====
section
/-! DEFINITION. The codes of a flit (R237, R240): CRC-32C, and the Reed-Solomon code RS(120,112) over GF(2⁸). -/

namespace Sys2Proof.Machine

/-- One bit of the reflected CRC-32C. -/
def crcBit (c : Nat) : Nat := if c % 2 = 1 then (c / 2) ^^^ 0x82F63B78 else c / 2

/-- CRC-32C of a byte list (R240). -/
def crc32c (bs : List Byte) : Nat :=
  (bs.foldl (fun c b => (List.range 8).foldl (fun c _ => crcBit c) (c ^^^ b.toNat)) 0xFFFFFFFF) ^^^ 0xFFFFFFFF

/-- Multiplication by x modulo 0x11D. -/
def gfDouble (a : Nat) : Nat := if 128 ≤ a then (2 * a) ^^^ 0x11D else 2 * a

/-- Multiplication in GF(2⁸) with primitive polynomial 0x11D (R240). -/
def gfMul (a b : Nat) : Nat :=
  ((List.range 8).foldl (fun (p : Nat × Nat) i => (if b.testBit i then p.1 ^^^ p.2 else p.1, gfDouble p.2)) (0, a)).1

/-- Powers in GF(2⁸). -/
def gfPow (a n : Nat) : Nat := (List.range n).foldl (fun p _ => gfMul p a) 1

/-- The inverse of a nonzero element. -/
def gfInv (a : Nat) : Nat := gfPow a 254

/-- The value at `x` of a polynomial given from its constant term up. -/
def gfEval (p : List Nat) (x : Nat) : Nat := p.foldr (fun c v => c ^^^ gfMul v x) 0

/-- The eight syndromes of a codeword of 120 bytes, first byte the highest term (roots α⁰ to α⁷). -/
def rsSyndromes (cw : List Nat) : List Nat := (List.range 8).map fun i => gfEval cw.reverse (gfPow 2 i)

/-- One step of the Berlekamp-Massey iteration on (Λ, B, L, m, b) at index n. -/
def bmStep (syn : List Nat) (st : List Nat × List Nat × Nat × Nat × Nat) (n : Nat) : List Nat × List Nat × Nat × Nat × Nat :=
  let (lam, bb, l, m, b) := st
  let d := (List.range (l + 1)).foldl (fun a i => a ^^^ gfMul (lam.getD i 0) (syn.getD (n - i) 0)) 0
  if d = 0 then (lam, bb, l, m + 1, b)
  else
    let coef := gfMul d (gfInv b)
    let shifted := List.replicate m 0 ++ bb.map (gfMul coef)
    let lam' := (List.range (max lam.length shifted.length)).map fun i => lam.getD i 0 ^^^ shifted.getD i 0
    if 2 * l ≤ n then (lam', lam, n + 1 - l, 1, d) else (lam', bb, l, m + 1, b)

/-- A codeword with its errors corrected and their number, or none when it is uncorrectable (R240: up to four). -/
def rsDecode (cw : List Nat) : Option (List Nat × Nat) :=
  let syn := rsSyndromes cw
  if syn.all (· == 0) then some (cw, 0)
  else
    let (lam, _, l, _, _) := (List.range 8).foldl (bmStep syn) ([1], [1], 0, 1, 1)
    let roots := (List.range 120).filter fun k => gfEval lam (gfInv (gfPow 2 k)) == 0
    if 4 < l ∨ roots.length ≠ l then none
    else
      let omega := ((List.range 8).map fun i =>
        (List.range (i + 1)).foldl (fun a j => a ^^^ gfMul (lam.getD j 0) (syn.getD (i - j) 0)) 0)
      let deriv := (List.range lam.length).map fun i => if i % 2 = 0 then lam.getD (i + 1) 0 else 0
      let fixed := roots.foldl (init := cw) fun c k =>
        let xi := gfInv (gfPow 2 k)
        let e := gfMul (gfPow 2 k) (gfMul (gfEval omega xi) (gfInv (gfEval deriv xi)))
        c.set (119 - k) (c.getD (119 - k) 0 ^^^ e)
      if (rsSyndromes fixed).all (· == 0) then some (fixed, l) else none

/-- Codeword j of a flit of 360 bytes (R240). -/
def flitCodeword (raw : List Byte) (j : Nat) : List Nat :=
  (List.range 112).map (fun i => (raw.getD (3 * i + j) 0).toNat) ++ (List.range 8).map fun i => (raw.getD (336 + 3 * i + j) 0).toNat

/-- The pre-FEC bytes of a flit after correction, and how many bytes were corrected; none when a codeword is uncorrectable. -/
def flitCorrect (raw : List Byte) : Option (List Byte × Nat) :=
  match rsDecode (flitCodeword raw 0), rsDecode (flitCodeword raw 1), rsDecode (flitCodeword raw 2) with
  | some a, some b, some c =>
    some ((List.range 112).flatMap (fun i => [a, b, c].map fun w => BitVec.ofNat 8 (w.1.getD i 0)), a.2 + b.2 + c.2)
  | _, _, _ => none

/-- The flit passes R240. -/
def flitGood (raw : List Byte) : Bool :=
  match flitCorrect raw with
  | none => false
  | some (bs, _) => crc32c (bs.take 328) == leAt bs 328 4

/-- `SEQ` of a flit's bytes (R237). -/
def flitSeq (bs : List Byte) : Nat := field (leAt bs 328 8) 32 12

end Sys2Proof.Machine
end

