-- ==== Sys2Proof/Machine/Kv.lean ====
section
/-! DEFINITION. The paged KV space (R167 to R171): page table entries, frames, allocation and freeing, and the translation caches. -/

namespace Sys2Proof.Machine

/-- Address of the entry of page p (R167). -/
def pteAddr (p : Nat) : Nat := kvTableBase + 8 * p

/-- An entry's fields (R167). -/
def mkPte (st : Nat) (ro : Bool) (owner frame dev : Nat) : Nat :=
  put st 0 3 + put (b01 ro) 3 1 + put owner 4 16 + put (frame / 2 ^ 21) 21 27 + put dev 48 6

/-- `STATE` of an entry. -/
def pteSt (e : Nat) : Nat := field e 0 3
/-- `RDONLY`. -/
def pteRo (e : Nat) : Bool := bitOf e 3
/-- `OWNER`. -/
def pteOwner (e : Nat) : Nat := field e 4 16
/-- Local address of the frame. -/
def pteFrame (e : Nat) : Nat := field e 21 27 * 2 ^ 21
/-- `DEVICE`. -/
def pteDev (e : Nat) : Nat := field e 48 6
/-- The entry is resident (R168). -/
def pteHere (e : Nat) : Bool := pteSt e == 1 || pteSt e == 2

/-- The entry of page p as delivered, and whether it is poisoned. -/
def State.pte (s : State) (p : Nat) : Nat × Bool :=
  let w := s.peekWords (pteAddr p) 2
  ((w.getD 0 ⟨0, false⟩).bits.toNat + 2 ^ 32 * (w.getD 1 ⟨0, false⟩).bits.toNat, w.any (·.poison))

/-- Every translation cache of the device drops page p (R171). -/
def State.tlbDrop (s : State) (p : Nat) : State :=
  (List.range 48).foldl (init := s) fun s c =>
    if (s.core c).tlb.any (·.1 == p) then s.modCore c fun x => { x with tlb := x.tlb.filter (·.1 != p) } else s

/-- Gander 2 writes the entry of page p; an entry that was resident is dropped from every translation cache (R171). -/
def State.setPte (s : State) (p e : Nat) : State :=
  let s1 := if pteHere (s.pte p).1 then s.tlbDrop p else s
  s1.putWords (pteAddr p) ((words64 e).map fun w => ⟨w, false⟩)
where
  /-- The words of a 64-bit value, low word first. -/
  words64 (x : Nat) : List Word := [BitVec.ofNat 32 x, BitVec.ofNat 32 (x / 2 ^ 32)]

/-- Pages whose entries are not all zero. -/
def State.usedPages (s : State) : List Nat :=
  (((s.mem.cells.map (·.1)).filter fun a => decide (s.phys kvTableBase ≤ a ∧ a < s.phys kvTableBase + 0x200000)).map
    fun a => (a - s.phys kvTableBase) / 8).eraseDups

/-- Frames that hold pages or are being filled. -/
def State.usedFrames (s : State) : List Nat :=
  (s.usedPages.filterMap fun p =>
    let e := (s.pte p).1
    if pteHere e || pteSt e == 5 then some (pteFrame e) else none) ++ (s.svc.fetches.map (·.frame))

/-- The frame at `a` lies whole in a declared KV region and has not been withdrawn (R169, R385). -/
def State.kvFrame (s : State) (g : Image) (a : Nat) : Bool :=
  !s.brd.framesLost.contains a &&
    (s.regions g).any fun r => r.kind == 2 && decide (r.base ≤ a ∧ a + frameBytes ≤ r.base + r.len)

/-- Frames of core c's home region, ascending (R152). -/
def homeFrames (c : Nat) : List Nat := (List.range 40).map fun i => sramBase + (40 * c + i) * frameBytes

/-- Frames of the shared pool, ascending (R152). -/
def poolFrames : List Nat := (List.range 127).map fun i => 0x40F0000000 + i * frameBytes

/-- LPDDR5X frames of the declared KV ranges, ascending. -/
def State.lpFrames (s : State) (g : Image) : List Nat :=
  ((s.regions g).filter fun r => r.kind == 2 && decide (regionOf r.base = .lpddr)).flatMap fun r =>
    (List.range (r.len / frameBytes)).map fun i => r.base + i * frameBytes

/-- The frame that page n of an allocation takes (R169). -/
def State.takeFrame (s : State) (g : Image) (n : Nat) : Option Nat :=
  let used := s.usedFrames
  let free := fun a => s.kvFrame g a && !used.contains a
  let homes := (List.range 48).filterMap fun i => (homeFrames ((n + i) % 48)).find? free
  (homes.head?).orElse fun _ => (poolFrames.find? free).orElse fun _ => (s.lpFrames g).find? fun a => !used.contains a

/-- Allocate the pages of a list for a context (R169); none when the declared frames do not hold them. -/
def State.allocPages (s : State) (g : Image) (owner : Nat) : List Nat → Nat → Option State
  | [], _ => some s
  | p :: ps, n =>
    match s.takeFrame g n with
    | none => none
    | some f =>
      let st := if regionOf f = .lpddr then 2 else 1
      State.allocPages (s.setPte p (mkPte st false owner f 0)) g owner ps (n + 1)

/-- Free every page of a context (R169). -/
def State.freePages (s : State) (owner : Nat) : State :=
  let s1 := s.usedPages.foldl (init := s) fun s p =>
    let e := (s.pte p).1
    if pteSt e ≠ 0 ∧ pteOwner e = owner then s.setPte p 0 else s
  { s1 with svc := { s1.svc with fetches := s1.svc.fetches.filter (·.owner != owner)
                                 hostPages := s1.svc.hostPages.filter (·.2.2 != owner) } }

/-- What translating a tier 3 offset gives a stream (R167, R168). -/
inductive Trans where
  | at_ (addr : Nat)
  | fault (page : Nat)
  | fails (status : Nat)
deriving DecidableEq, Repr

/-- Translate a tier 3 offset for core c's stream engine on behalf of a context (R168): through the translation cache, else from the
table, caching resident entries. A full cache drops an entry that a free value picks. -/
def State.translate (s : State) (c owner : Nat) (write : Bool) (off : Nat) : Trans × State :=
  if 2 ^ 39 ≤ off then (.fails St.addrUnmapped, s)
  else
    let p := off / frameBytes
    let x := s.core c
    let hit := (x.tlb.find? (·.1 == p)).map (·.2)
    let r := match hit with | some e => (e, false) | none => s.pte p
    let e := r.1
    let s0 := if hit.isNone then s.noteWords (unitCore c 0x11) (St.islCore c) (pteAddr p) 2 (s.coreCtx c) else s
    let s1 :=
      if hit.isSome || r.2 || !pteHere e then s0
      else if x.tlb.length < 64 then s0.modCore c fun y => { y with tlb := y.tlb ++ [(p, e)] }
      else (s0.modCore c fun y => { y with tlb := y.tlb.eraseIdx (s0.nextFree % 64) ++ [(p, e)] }).drawFree
    if r.2 then (.fails St.kvPageUnallocated, s1)
    else if pteHere e then
      if pteOwner e ≠ owner then (.fails St.kvPageNotOwned, s1)
      else if write && pteRo e then (.fails St.kvPageReadonly, s1)
      else (.at_ (pteFrame e + off % frameBytes), s1)
    else if pteSt e = 3 ∨ pteSt e = 4 ∨ pteSt e = 5 then (.fault p, s1)
    else (.fails St.kvPageUnallocated, s1)

end Sys2Proof.Machine
end

