-- ==== Sys2Proof/Machine/Reply.lean ====
section
/-! DEFINITION. Replies and notices (R279, R281, R286), the records of sequenced commands (R287, R299), and messages to the head (R243). -/

namespace Sys2Proof.Machine

/-- This device heads the group that it has formed or is to form (R26, R416): its strap says so, and it holds no CALL of a head of lower
index (R434). -/
def State.isHead (s : State) : Bool :=
  if s.grp.formed then s.grp.head == s.devIndex
  else bitOf (s.rget .aon 8).toNat 6 && !(s.grp.called && decide (s.grp.head < s.devIndex))

/-! ### Sessions -/

/-- A session by its ID. -/
def State.session (s : State) (id : Nat) : Option Session := s.svc.sessions.find? (·.id == id)

/-- The state with a function applied to the service data. -/
def State.modSvc (s : State) (f : Service → Service) : State := { s with svc := f s.svc }

/-- The state with a function applied to one session. -/
def State.modSession (s : State) (id : Nat) (f : Session → Session) : State :=
  s.modSvc fun v => { v with sessions := v.sessions.map fun x => if x.id = id then f x else x }

/-- Where a session's notices go (R298). -/
def Session.notifyTo (x : Session) : Nat := x.notify.getD x.lastSrc

/-- The largest payload of one packet (R277). -/
def State.maxLen (s : State) : Nat := s.rfield (.eth 0) 8 0 14 - 96

/-- The packets that a payload takes (R277). -/
def State.packets (s : State) (n : Nat) : Nat := max 1 (ceilDiv n s.maxLen)

/-- A message of `n` bytes leaves in its frames (R277, R331). -/
def State.sent (s : State) (n : Nat) : State := s.count48 (.eth 0) 0x40 (s.packets n)

/-- Send one notice to every session's notify address (R279, R289, R371). -/
def State.notices (s : State) (opcode status : Nat) (payload : List Byte) : State :=
  (s.svc.sessions.filter (!·.closing)).foldl (init := s) fun s x =>
    match s.session x.id with
    | none => s
    | some y =>
      ((s.modSession x.id fun z => { z with noticeCtr := z.noticeCtr + 1, txCtr := z.txCtr + s.packets payload.length }).sent payload.length).emit
        (.notice y.notifyTo y.id (y.noticeCtr + 1) opcode status payload)

/-- The state byte of a group (R299). -/
def State.groupByte (s : State) : Nat :=
  if s.grp.headLost then 3 else if !s.grp.formed then 0 else if s.grp.quiesced || s.grp.joins.any (·.left.isSome) then 2 else 1

/-- A STATE_NOTICE (R295). -/
def State.stateNotice (s : State) (status : Nat) : State :=
  s.notices 0x0051 status [BitVec.ofNat 8 s.groupByte]

/-! ### Replies -/

/-- The 16-byte prefix of a reply (R286). -/
def replyPrefix (gseq : Option Nat) (r : Reply) : List Byte :=
  beBytes 4 (gseq.getD 0) ++ [BitVec.ofNat 8 (b01 gseq.isSome), BitVec.ofNat 8 r.device, 0, 0] ++ beBytes 8 r.detail

/-- A reply in clear: the prefix and nothing more, but for the head address of `NOT_GROUP_HEAD` (R284, R286). -/
def State.clearReply (s : State) (to_ session seq opcode : Nat) (r : Reply) : State :=
  let body := replyPrefix none r ++ r.body
  (s.sent body.length).emit (.reply to_ session seq opcode r.status false false body)

/-- A reply under the session's keys; each of its packets spends one of the session's counter (R277, R281). -/
def State.encReply (s : State) (to_ session seq opcode : Nat) (cached : Bool) (gseq : Option Nat) (r : Reply) : State :=
  match s.session session with
  | none => s
  | some _ =>
    let body := replyPrefix gseq r ++ r.body
    ((s.modSession session fun y => { y with txCtr := y.txCtr + s.packets body.length }).sent body.length).emit
      (.reply to_ session seq opcode r.status true cached body)

/-- The records of a session with a final reply noted (R286). -/
def noteFinal (seq : Nat) (r : Reply) (l : List SeqRec) : List SeqRec :=
  l.map fun x => if x.seq = seq then { x with final := some r } else x

/-! ### Sequenced commands -/

/-- The record of a sequenced command (R299). -/
def State.cmd (s : State) (gseq : Nat) : Option CmdRec := s.svc.cmds.find? (·.gseq == gseq)

/-- The state with a function applied to a command's record. -/
def State.modCmd (s : State) (gseq : Nat) (f : CmdRec → CmdRec) : State :=
  s.modSvc fun v => { v with cmds := v.cmds.map fun x => if x.gseq = gseq then f x else x }

/-- Keep a new record, and of the older ones the last 4,095 (R299) and those not finished. -/
def State.addCmd (s : State) (c : CmdRec) : State :=
  s.modSvc fun v =>
    let n := v.cmds.length - 4095
    { v with cmds := ((v.cmds.take n).filter fun x => !x.ownDone || (s.isHead && !x.final)) ++ v.cmds.drop n ++ [c] }

/-- The items of a SET_CONFIG (R298): IDs and values, with the place at which the list breaks off, if it does. `fuel` is at least the number of
items. Up to three zero bytes after the last item are padding of a COMMAND message. -/
def cfgItems : Nat → List Byte → List (Nat × List Byte) × Bool
  | 0, l => ([], l.isEmpty)
  | fuel + 1, l =>
    if l.length < 4 then ([], l.all (· == 0))
    else
      let n := beAt l 2 2
      if l.length < 4 + n then ([], false)
      else
        let r := cfgItems fuel (l.drop (4 + n))
        ((beAt l 0 2, (l.drop 4).take n) :: r.1, r.2)

/-- The port that a SET_CONFIG sets (R298). -/
def portItem (payload : List Byte) : Option Nat :=
  (((cfgItems payload.length payload).1.filter (·.1 == 2)).getLast?).map fun i => beNat i.2

/-- What follows the final reply of a command: a closed session is gone (R283), and a new port comes into force (R298). -/
def State.afterFinal (s : State) (c : CmdRec) (r : Reply) : State :=
  if c.opcode = 3 then s.modSvc fun v => { v with sessions := v.sessions.filter (·.id != c.session) }
  else if c.opcode = 0x19 ∧ r.status = St.ok then
    match portItem c.payload with
    | some p => (s.rput (.eth 3) 8 0 16 p).takeRws (.eth 3)
    | none => s
  else if c.opcode = 0x22 ∧ r.status ≠ St.ok then
    { s with svc := { s.svc with images := s.svc.images.map fun g => if g.gseq = c.gseq then { g with st := .failed } else g } }
  else s

/-- The final reply of a command is sent by the head and held in its session's reply cache (R286); it is dropped when the session has
ended (R283). -/
def State.finalReply (s : State) (gseq : Nat) (r : Reply) : State :=
  match s.cmd gseq with
  | none => s
  | some c =>
    if c.final then s
    else
      let s1 := s.modCmd gseq fun x => { x with final := true, state := 3, reply := r }
      if !s1.isHead then s1
      else
        let closed := (s1.session c.session).any (·.closing)
        let s2 := s1.modSession c.session fun x => { x with recs := noteFinal c.seq r x.recs }
        let s3 := if closed && c.opcode != 3 then s2 else s2.encReply c.src c.session c.seq c.opcode false (some gseq) r
        s3.afterFinal c r

/-- Send a SYNC message to the head; the head keeps its own news. -/
def State.toHead (s : State) (sub : Nat) (ws : List Word) : State :=
  if s.isHead then s else s.sendSync s.grp.head sub ws

/-- The mask of the members of the group that still serve. -/
def State.memberMask (s : State) : Nat :=
  (List.range 64).foldl (init := 0) fun m d =>
    if s.grp.members.testBit d && !(s.grp.joins.any fun j => j.dev == d && j.left.isSome) then m + 2 ^ d else m

end Sys2Proof.Machine
end

