-- ==== Sys2Proof/Machine/Roce.lean ====
section
/-! DEFINITION. KV egress: connections (R322), the RoCEv2 requester (R323), the writes of a prompt's KV (R324) and its completion record
(R325). -/

namespace Sys2Proof.Machine

/-- A connection by number. -/
def State.conn (s : State) (i : Nat) : Conn := s.svc.conns[min i 63]'(by omega)

/-- The state with a connection replaced; `ETH_RC_STATUS.CONNS` follows (R332). -/
def State.setConn (s : State) (i : Nat) (x : Conn) : State :=
  if h : i < 64 then
    let s1 := s.modSvc fun v => { v with conns := v.conns.set i x h }
    s1.rput (.eth 1) 0 1 7 ((s1.svc.conns.toList.filter fun c => c.st == .ready).length)
  else s

/-- The state with a function applied to a connection. -/
def State.modConn (s : State) (i : Nat) (f : Conn → Conn) : State := s.setConn i (f (s.conn i))

/-- Path MTU (R323): the smaller of 4,096 and the largest IB MTU within `IP_MTU` less 58 bytes. -/
def State.pathMtu (s : State) : Nat :=
  let m := s.rfield (.eth 0) 8 0 14 - 58
  (([4096, 2048, 1024, 512, 256].find? (· ≤ m)).getD 256)

/-- The Ethernet port is up (R331). -/
def State.ethUp (s : State) : Bool := s.rfield (.eth 0) 4 1 2 != 0

/-- KV egress can leave: by the own port, or by the d0 neighbour's under R27, and no PFC pause holds its priority (R313). -/
def State.egressOpen (s : State) : Bool :=
  (s.ethUp && !s.svc.paused.testBit (s.rfield (.eth 0) 0xC 6 3)) || (!s.ethUp && s.svc.relayed)

/-- Packets in flight on a connection. -/
def Conn.inFlight (x : Conn) : Nat := (x.psn + 2 ^ 24 - x.acked) % 2 ^ 24

/-- Send the waiting messages that the window of 1,024 packets allows (R323); `fuel` is at least their number. -/
def State.connDrain (i : Nat) : Nat → State → State
  | 0, s => s
  | fuel + 1, s =>
    let x := s.conn i
    match x.queue with
    | [] => s
    | m :: rest =>
      if x.st ≠ .ready ∨ x.rnrWait ∨ !s.egressOpen ∨ 1024 < x.inFlight + m.packets then s
      else
        let m' := { m with psn := x.psn }
        let s1 := s.setConn i { x with queue := rest, unacked := x.unacked ++ [m'], psn := (x.psn + m.packets) % 2 ^ 24
                                       lastUse := s.aonClk }
        let s2 := if s1.ethUp then (s1.count48 (.eth 0) 0x40 m.packets).emit (.roce i m'.psn m.record m.va m.data)
          else s1.emit (.ask (s1.devIndex ^^^ 1) 0x27 m.data)
        State.connDrain i fuel s2

/-- Send what a connection can send. -/
def State.connGo (s : State) (i : Nat) : State := s.connDrain i (s.conn i).queue.length

/-- Queue a message. -/
def State.connPush (s : State) (i : Nat) (m : RcMsg) : State :=
  s.modConn i fun x => { x with queue := x.queue ++ [m] }

/-- The connection for a receiver, set up if none exists (R322); the one idle longest is closed by DREQ when all are in use. None
when none can be had. -/
def State.connFor (s : State) (rx sid : Nat) : Option (State × Nat) :=
  let idx := List.range 64
  let mine := idx.find? fun i =>
    let x := s.conn i
    (x.st == .ready || x.st == .requested) && x.rxAddr == rx && x.serviceId == sid
  match mine with
  | some i => some (s, i)
  | none =>
    let fresh := fun (s : State) i =>
      ((s.setConn i { Conn.empty with st := .requested, rxAddr := rx, serviceId := sid, reqs := 1, lastUse := s.aonClk
                                      ctrl := s.rget (.eth 1) 4 }).rsetForce (.eth 1) 4 (s.rget (.eth 1) 4)).emit (.cm i 0)
    match idx.find? fun i => (s.conn i).st == .closed || (s.conn i).st == .failed with
    | some i => some (fresh s i, i)
    | none =>
      let idle := idx.filter fun i => (s.conn i).unacked.isEmpty && (s.conn i).queue.isEmpty
      match idle with
      | [] => none
      | j :: js =>
        let k := js.foldl (fun a b => if (s.conn b).lastUse < (s.conn a).lastUse then b else a) j
        some (fresh (s.emit (.cm k 3)) k, k)

/-- Cut a list into parts of at most `n`; `fuel` is at least its length. -/
def cutList {α : Type} (n : Nat) : Nat → List α → List (List α)
  | 0, _ => []
  | _, [] => []
  | fuel + 1, l => l.take (max n 1) :: cutList n fuel (l.drop (max n 1))

/-- `n` bytes of the paged KV space from `off`, as the pages lie, and the addresses of poisoned words; `fuel` bounds the pages. -/
def State.readKv (s : State) : Nat → Nat → Nat → List Byte × List Nat
  | 0, _, _ => ([], [])
  | fuel + 1, off, n =>
    if n = 0 then ([], [])
    else
      let k := min n (frameBytes - off % frameBytes)
      let a := pteFrame (s.pte (off / frameBytes)).1 + off % frameBytes
      let bad := s.poisonAddrs (a / 4 * 4) ((k + a % 4 + 3) / 4)
      let r := State.readKv s fuel (off + k) (n - k)
      ((s.peekBytes a k).1 ++ r.1, bad ++ r.2)

/-- The positions of a prompt that this device sends (R324, R327, R328). -/
def Prompt.positions (p : Prompt) : List Nat := (List.range p.shardCount).map fun i => p.prefixLen + p.shardFirst + i

/-- The remote address of K of layer L, head h, position t (R324). -/
def Prompt.remote (p : Prompt) (va layer h t : Nat) : Nat :=
  va + p.kvOff + layer * p.layerStride + h * p.headStride + t * p.tokStride

/-- What egress of a layer meets. -/
structure LayerOut where
  msgs : List RcMsg
  bad : List Nat
  outside : Bool

/-- The WRITE messages of one layer (R324): by head, then position; runs of positions are cut at 2 MiB, and every token is its own
message when `TOK_STRIDE` exceeds its bytes. -/
def State.layerMsgs (s : State) (d : Descr) (x : Conn) (gseq kvBase layer : Nat) (p : Prompt) : LayerOut :=
  let tok := 2 * d.halfBytes
  let hs := d.heads s.devIndex
  let mtu := s.pathMtu
  let per := if p.tokStride = tok then max (min 0x200000 (1024 * mtu) / max tok 1) 1 else 1
  let parts : List (Nat × List Nat) :=
    (List.range hs.2).flatMap fun h => (cutList per p.shardCount p.positions).map fun ts => (h, ts)
  let made : List (RcMsg × List Nat) := parts.map fun q =>
    let va := p.remote x.va layer (hs.1 + q.1) (q.2.headD 0)
    let pieces := q.2.map fun t => s.readKv 8 (kvBase + Config.kvPlace p.imageId layer q.1 t) tok
    let data := pieces.flatMap (·.1)
    (({ gseq := gseq, record := false, va := va, data := data, psn := 0, packets := max (ceilDiv data.length mtu) 1 } : RcMsg),
      pieces.flatMap (·.2))
  { msgs := made.map (·.1), bad := made.flatMap (·.2)
    outside := made.any fun m => decide (m.1.va < x.va ∨ x.va + x.len < m.1.va + m.1.data.length) }

/-- The completion record of a prompt (R325). -/
def State.recordBytes (s : State) (d : Descr) (gseq : Nat) (p : Prompt) (bytes : Nat) : List Byte :=
  let hs := d.heads s.devIndex
  let total := p.prefixLen + (p.tokens.getD []).length
  let b := leBytes 4 0x5243564B ++ leBytes 1 1 ++ leBytes 1 s.devIndex ++ leBytes 1 s.grp.size ++ leBytes 1 p.shards ++
    leBytes 8 p.requestId ++ leBytes 4 gseq ++ leBytes 4 ((p.firstToken.map Prod.fst).getD 0) ++
    leBytes 4 ((p.firstToken.map Prod.snd).getD (0 : Word)).toNat ++ leBytes 4 total ++ leBytes 4 (p.prefixLen + p.shardFirst) ++
    leBytes 4 p.shardCount ++ leBytes 2 d.layers ++ leBytes 1 hs.1 ++ leBytes 1 hs.2 ++ leBytes 1 d.kvFmt ++ [0#8] ++
    leBytes 2 d.halfBytes ++ leBytes 8 p.kvOff ++ leBytes 4 p.tokStride ++ zeros 4 ++ leBytes 8 p.headStride ++
    leBytes 8 p.layerStride ++ leBytes 8 bytes ++ leBytes 4 p.imageId ++ zeros 32
  b ++ leBytes 4 (crc32c b)

/-- The egress of a prompt. -/
def State.egressOf (s : State) (gseq : Nat) : Option Egress := s.svc.egress.find? (·.gseq == gseq)

/-- The state with a function applied to a prompt's egress. -/
def State.modEgress (s : State) (gseq : Nat) (f : Egress → Egress) : State :=
  s.modSvc fun v => { v with egress := v.egress.map fun e => if e.gseq = gseq then f e else e }

/-- Set up egress for a prompt (R322); none when no connection can be had. -/
def State.openEgress (s : State) (gseq : Nat) (p : Prompt) : Option State :=
  if bitOf p.flags 1 || (s.egressOf gseq).isSome then some s
  else
    match s.connFor p.rxAddr p.serviceId with
    | none => none
    | some (s1, i) => some (s1.modSvc fun v => { v with egress := v.egress ++ [⟨gseq, i, 0, 0, 0, false⟩] })

/-- Messages of a prompt that its connection has not seen acknowledged. -/
def Conn.pendingOf (x : Conn) (gseq : Nat) : Bool := (x.queue ++ x.unacked).any (·.gseq == gseq)

/-- What an attempt at egress finds: nothing to stop it, a write outside the region, or poisoned KV at an address. -/
inductive EgressStop where
  | none | outside | poison (addr : Nat)
deriving DecidableEq, Repr

/-- Queue the layers of a prompt that are complete (R324), and its completion record once its last WRITE is acknowledged and the first
token is known (R324, R325); `layers` of the image's layers are complete, `fuel` bounds their number. -/
def State.pushEgress (gseq kvBase layers : Nat) : Nat → State → State × EgressStop
  | 0, s => (s, .none)
  | fuel + 1, s =>
    match s.egressOf gseq, (s.cmd gseq).bind (·.prompt) with
    | some e, some p =>
      let x := s.conn e.conn
      match (s.image p.imageId).bind s.descr with
      | none => (s, .none)
      | some d =>
        if e.stopped || x.st != .ready then (s, .none)
        else if e.layers < min layers d.layers then
          let o := s.layerMsgs d x gseq kvBase e.layers p
          if o.outside then (s, .outside)
          else
            match o.bad with
            | a :: _ => (s, .poison a)
            | [] =>
              let s1 := o.msgs.foldl (fun s m => s.connPush e.conn m) s
              State.pushEgress gseq kvBase layers fuel
                ((s1.modEgress gseq fun y => { y with layers := y.layers + 1
                                                      bytes := y.bytes + (o.msgs.map (·.data.length)).sum }).connGo e.conn)
        else if e.layers = d.layers ∧ e.record = 0 ∧ p.firstToken.isSome ∧ !x.pendingOf gseq then
          let m : RcMsg := ⟨gseq, true, 0, s.recordBytes d gseq p e.bytes, 0, 1⟩
          (((s.connPush e.conn m).modEgress gseq fun y => { y with record := 1 }).connGo e.conn, .none)
        else (s, .none)
    | _, _ => (s, .none)

/-- Stop a prompt's egress (R35, R319): what waits is dropped and no completion record follows. -/
def State.stopEgress (s : State) (gseq : Nat) : State :=
  match s.egressOf gseq with
  | none => s
  | some e =>
    (s.modEgress gseq fun y => { y with stopped := true }).modConn e.conn fun x =>
      { x with queue := x.queue.filter (·.gseq != gseq) }

/-- Forget a prompt's egress. -/
def State.dropEgress (s : State) (gseq : Nat) : State :=
  (s.stopEgress gseq).modSvc fun v => { v with egress := v.egress.filter (·.gseq != gseq) }

end Sys2Proof.Machine
end

