-- ==== Sys2Proof/Machine/Token.lean ====
section
/-! DEFINITION. The first token (R320), the ranking of SCORE (R330), and sharding (R327). -/

namespace Sys2Proof.Machine

/-- The FP32 quotient, rounded once (R83). -/
def fDiv (a b : Word) : Word :=
  match val32 a, val32 b with
  | .nan, _ => nan32
  | _, .nan => nan32
  | .inf _, .inf _ => nan32
  | .inf n, v => round32 (.inf (n != v.sign))
  | .fin n _ _, .inf m => round32 (.fin (n != m) 0 0)
  | .fin n ma ea, .fin m mb eb =>
    if mb = 0 then (if ma = 0 then nan32 else round32 (.inf (n != m)))
    else
      let q := ma * 2 ^ 80 / mb
      let r := b01 (decide (ma * 2 ^ 80 % mb ≠ 0))
      round32 (.fin (n != m) (2 * q + r) (ea - eb - 81))

/-- Selected candidates in the order of R139, ties to the lower number. -/
def bestOf (smallest : Bool) (k : Nat) (l : List (Word × Nat)) : List (Word × Nat) :=
  (topK smallest k (l.map fun c => (c.1, natWord c.2))).filterMap fun c => l.find? fun d => d.1 == c.1 && natWord d.2 == c.2

/-- The first candidate whose running sum exceeds a bound (R320). -/
def firstOver (bound : Word) : Word → List (Word × Nat) → Option Nat
  | _, [] => none
  | acc, (p, i) :: t =>
    let a := fAdd acc p
    if (val32 a).gt (val32 bound) then some i else firstOver bound a t

/-- The shares p_i of candidates at a temperature (R320). -/
def shares (temp : Word) (l : List (Word × Nat)) : List Word :=
  let v0 := (l.headD (0, 0)).1
  l.map fun c => fExp (fDiv (fSub c.1 v0) temp)

/-- The first token and its log probability from the merged candidates (R320). -/
def pickToken (temp : Word) (k : Nat) (seed : List Byte) (cands : List (Word × Nat)) : Nat × Word :=
  let greedy := (val32 temp).eqv .zero
  let t := if greedy then one32 else temp
  let best := cands.take k
  let ps := shares t best
  let total := ps.foldl fAdd 0
  let draw := beNat ((beBytes 48 (Config.sha384 seed)).take 3)
  let u := round32 (.fin false draw (-24))
  let j :=
    if greedy ∨ k = 1 then 0
    else (firstOver (fMul u total) 0 (ps.zip (List.range ps.length))).getD (ps.length - 1)
  let all := shares t cands
  ((cands.getD j (0, 0)).2, Config.lnShare (fDiv (all.getD j 0) (all.foldl fAdd 0)))

/-- Boards of the group (R327). -/
def State.boards (s : State) : Nat := max (s.grp.size / 16) 1

/-- An FP32 value as an exact fraction over 2¹⁴⁹. -/
def exact149 (w : Word) : Nat :=
  match val32 w with
  | .fin _ m e => (m * 2 ^ (149 + e).toNat)
  | _ => 0

/-- c(0, b) of R327 in units of 2⁻¹⁵⁰. -/
def shardCost (d : Descr) (b : Nat) : Nat := 2 * exact149 d.linCost * b + exact149 d.attCost * b * b

/-- The boundaries s_0 to s_B of R327 for a prompt of `len` positions over `b` boards. -/
def shardBounds (d : Descr) (len b : Nat) : List Nat :=
  (List.range (b + 1)).map fun j =>
    if j = 0 then 0
    else if j = b then len
    else 64 * (((List.range (len / 64 + 2)).find? fun i => decide (j * shardCost d len ≤ b * shardCost d (64 * i))).getD 0)

/-- Each board has positions, and no shard is longer than `maxLen` (R327). -/
def shardsFit (bounds : List Nat) (maxLen : Nat) : Bool :=
  (bounds.zip (bounds.drop 1)).all fun p => decide (p.1 < p.2 ∧ p.2 - p.1 ≤ maxLen)

/-- The longest segment that every program of a schedule takes (R96). -/
def State.schedMaxLen (s : State) (g : Image) (c : Sched) : Nat :=
  (c.steps.map fun t => (s.prog g t.prog).maxLen).foldl min (2 ^ 32)

/-- Devices whose logits count for a prompt: those of the board that holds its last position (R328). -/
def State.logitDevices (s : State) (p : Prompt) : List Nat :=
  (List.range s.grp.size).filter fun d =>
    s.grp.members.testBit d && (p.shards ≤ 1 || d / 16 + 1 == p.shards)

end Sys2Proof.Machine
end

