-- ==== Sys2Proof/Machine/Recover.lean ====
section
/-! DEFINITION. How a command ends on this device and what errors do to it: context reset (R215), failure handling (R380), classification of
damage (R372, R373), recovery (R374 to R379), quiescing (R381) and fencing (R383, R384). -/

namespace Sys2Proof.Machine

/-! ### Collective operations of a context -/

/-- The ID of a collective operation (R260). -/
def opId (gseq prog kind mg reexec : Nat) : Nat :=
  put gseq 0 32 + put prog 32 10 + put kind 42 1 + put mg 44 18 + put reexec 62 2

/-- P of a program's GMM (R111), or 0. -/
def Prog.gmmPieces (p : Prog) : Nat :=
  match p.gmm? with
  | some (_, .gmm _ n ..) => n
  | _ => 0

/-- Every piece of an M group has arrived (R113). -/
def ProgRun.gathered (r : ProgRun) (g : Gather) : Bool := g.mask == 2 ^ r.prog.gmmPieces - 1

/-- The collective operations of a context in flight. -/
def Ctx.ops (x : Ctx) : List Nat :=
  match x.run with
  | none => []
  | some r => (r.gathers.filter fun g => !r.gathered g).map (·.opid) ++ (r.scatters.filter fun g => !g.done).map (·.opid)

/-- The words of an ABORT (R243, R269): cause 0 timeout, 1 context reset, 2 member left, 3 unreachable. -/
def abortWords (opid accuser : Nat) (accused : Option Nat) (cause : Nat) : List Word :=
  words64 opid ++ [BitVec.ofNat 32 (put accuser 0 6 + put (accused.getD 0) 8 6 + put (b01 accused.isSome) 14 1 + put cause 16 3)]

/-- The reduction buffer slots of context slot k become FREE in every router (R261). -/
def State.freeSlots (s : State) (k : Nat) : State :=
  { s with links := { s.links with slots := s.links.slots.filter (·.2.ctx != k)
                                   grants := s.links.grants.filter (fun g => field g.tag 0 2 != k) } }

/-- Note an ABORT that this device holds for an operation; the first one starts the eight ticks of R270. -/
def State.noteAbort (s : State) (a : AbortNote) : State :=
  let l := s.links
  { s with links := { l with
      aborts := l.aborts ++ [a]
      abortDue := if l.abortDue.any (·.1 == a.opid) || l.aborted.contains a.opid then l.abortDue else l.abortDue ++ [(a.opid, 8)] } }

/-- Broadcast an ABORT for an operation and hold it here (R269). -/
def State.sendAbort (s : State) (opid : Nat) (accused : Option Nat) (cause : Nat) : State :=
  (s.broadcast 6 (abortWords opid s.devIndex accused cause)).noteAbort ⟨opid, s.devIndex, accused, cause⟩

/-! ### The power grant of a core -/

/-- The core's grant is released: it is charged at the floor (R339). -/
def State.releaseGrant (s : State) (c : Nat) : State :=
  let s1 := s.modCore c fun x => { x with charge := 0, demoted := none, lent := false }
  { s1 with pwr := { s1.pwr with order := s1.pwr.order.filter (· != c) } }

/-- Waiting leave requests of a context slot are withdrawn (R339). The thread of a core that runs nothing yet is released: with
`BARRIER_BROKEN` when the context is reset, else without a message. -/
def State.withdraw (s : State) (k : Nat) (broken : Bool) : State :=
  let cs := ((s.pwr.queue.filter (·.slot == k)).map (·.core)).filter fun c => (s.core c).run.isNone
  let s1 : State := { s with pwr := { s.pwr with queue := s.pwr.queue.filter (·.slot != k) } }
  cs.foldl (init := s1) fun s c =>
    if broken then (List.range 16).foldl (fun s t => s.fire c t wmBroken) s
    else s.modCore c fun x => { x with threads := x.threads.map fun t => { t with watch := none } }

/-! ### Ending a context -/

/-- A core with nothing of a program left in it; its read cache, fences and lines stay. -/
def CoreState.cleared (x : CoreState) : CoreState :=
  { x with run := none, units := Vector.replicate 8 UnitRun.empty, flights := [], convs := [], vec := ⟨[], none, [], []⟩
           streams := [], mules := []
           threads := x.threads.map fun t => { t with expect := [] } }

/-- R215: the context of slot k is reset. Its objects break, its waiters are released, its collectives abort naming this device, its
requests are withdrawn and its grants released. -/
def State.resetCtx (s : State) (k : Nat) : State :=
  match s.ctx k with
  | none => s
  | some x =>
    let s1 := x.ops.foldl (fun s o => s.sendAbort o (some s.devIndex) 1) s
    let cs := s1.slotCores k
    let s2 := ((s1.breakCtx k).withdraw k true).freeSlots k
    let s3 := cs.foldl (fun s c => (s.modCore c CoreState.cleared).releaseGrant c) s2
    s3.modCtx k fun y => { y with run := none, frozen := false, draining := false }

/-- The context of slot k is gone: its pages are freed (R169), its persistent streams released (R196), its barriers FREE. -/
def State.endCtx (s : State) (k : Nat) : State :=
  match s.ctx k with
  | none => s
  | some x =>
    let s1 := s.freePages x.id
    let s2 := (List.range 48).foldl (init := s1) fun s c =>
      if (s.core c).owner = x.id ∧ (s.core c).run.isNone then s.modCore c fun y => { y with streams := [] } else s
    let s3 := (List.range 16).foldl (fun s i =>
      let b := s.gbar (16 * k + i)
      if b.st = .broken then s else s.setGbar (16 * k + i) { GroupBar.empty with msgs := b.msgs }) s2
    let s4 := if (s3.dsp k).st = .broken then s3 else s3.setDsp k Dispense.empty
    let s5 := s4.setCtx k none
    { s5 with pwr := { s5.pwr with idleFrom := s5.aonClk } }

/-- Commands that a context runs: its own, or every prompt of its chunk (R317). -/
def State.ctxCmds (s : State) (x : Ctx) : List CmdRec :=
  s.svc.cmds.filter fun c => c.gseq == x.gseq || c.prompt.any fun p => p.chunkFirst == x.gseq && p.chunkTokens != 0

/-! ### Final replies -/

/-- The final reply of a PREFILL (R321). -/
def prefillBody (p : Prompt) (recorded : Nat) : List Byte :=
  beBytes 4 ((p.firstToken.map Prod.fst).getD 0) ++ beBytes 4 ((p.firstToken.map Prod.snd).getD (0 : Word)).toNat ++
    beBytes 4 (p.prefixLen + (p.tokens.getD []).length) ++ [BitVec.ofNat 8 p.shards] ++ zeros 3 ++
    beBytes 8 (p.chunkStart - recorded) ++ beBytes 8 (p.chunkEnd - p.chunkStart) ++ beBytes 4 p.chunkFirst ++ beBytes 4 p.chunkTokens

/-- The row number of a candidate position of a SCORE (R329, R330). -/
def scoreRow (payload : List Byte) (pos : Nat) : Nat :=
  if beAt payload 16 4 = 0 then pos
  else beAt payload (64 + beAt payload 12 1 * beAt payload 8 4 + 4 * pos) 4

/-- The final reply of a SCORE: for each query the best `K` of the members' lists (R330). -/
def State.scoreBody (s : State) (c : CmdRec) : List Byte :=
  let k := beAt c.payload 3 1
  let smallest := beAt c.payload 1 1 != 0
  (List.range (beAt c.payload 12 1)).flatMap fun q =>
    let all := ((List.range s.grp.size).filter s.grp.members.testBit).flatMap fun d => Config.scoreList c.gseq d q
    (bestOf smallest k all).flatMap fun r => beBytes 4 (scoreRow c.payload r.2) ++ beBytes 4 r.1.toNat

/-- What the final reply of a command says when every device has finished it well. -/
def State.goodReply (s : State) (c : CmdRec) : Reply :=
  match c.opcode, c.prompt with
  | 0x31, some p => { c.reply with body := prefillBody p c.recordedAt }
  | 0x32, _ => { c.reply with body := s.scoreBody c }
  | _, _ => c.reply

/-- The head's own news of its last chance to reply: the final reply of a command goes out once every member has reported it, and for
a prompt with egress once every completion record is acknowledged (R35, R288). -/
def State.tryFinal (s : State) (gseq : Nat) : State :=
  match s.cmd gseq with
  | none => s
  | some c =>
    let all := s.memberMask
    let recs := match c.prompt with
      | some p => bitOf p.flags 1 || c.recMask &&& all == all
      | none => true
    if s.isHead && c.doneMask &&& all == all && recs then s.finalReply gseq (s.goodReply c) else s

/-- The head gives a sequenced command to every member (R26, R243, R255). -/
def State.sendCommand (s : State) (gseq opcode cls session seq digest : Nat) (payload : List Byte) : State :=
  let ws := [BitVec.ofNat 32 gseq, BitVec.ofNat 32 (put opcode 0 16 + put cls 16 2), BitVec.ofNat 32 session, BitVec.ofNat 32 seq,
      BitVec.ofNat 32 (digest / 2 ^ 32), BitVec.ofNat 32 digest] ++
    (List.range (ceilDiv payload.length 4)).map fun i => BitVec.ofNat 32 (beAt payload (4 * i) 4)
  s.broadcast 1 ws

/-- The next group sequence number, assigned (R287). -/
def State.takeGseq (s : State) : Nat × State :=
  let g := (s.grp.lastGseq + 1) % 2 ^ 32
  let s1 := { s with grp := { s.grp with lastGseq := g } }
  (g, s1.rset (.eth 3) 0xC (BitVec.ofNat 32 g))

/-- After a failure the head has every other member reset the context, by a CANCEL that it sequences itself (R380). -/
def State.cancelOthers (s : State) (gseq : Nat) : State :=
  if s.isHead && s.grp.formed && decide (1 < s.grp.size) then
    let (g, s1) := s.takeGseq
    s1.sendCommand g 0x33 0 0 0 0 (beBytes 4 gseq)
  else s

/-- This device has finished a command, with a status; its completion record has been acknowledged or not (R35, R243). -/
def State.ownFinish (s : State) (gseq : Nat) (r : Reply) (recAck : Bool) : State :=
  match s.cmd gseq with
  | none => s
  | some c =>
    if c.ownDone then s
    else
      let bit := 2 ^ s.devIndex
      let s1 := s.modCmd gseq fun x => { x with ownDone := true, state := 3, doneMask := x.doneMask ||| bit
                                                reply := if r.status = St.ok && x.reply.status == St.debugForced then { r with status := St.debugForced } else r
                                                recMask := if recAck then x.recMask ||| bit else x.recMask }
      if s1.isHead then
        if r.status = St.ok ∨ r.status = St.debugForced then s1.tryFinal gseq
        else if r.status = St.cancelled ∧ r.device = 0xFF then s1.finalReply gseq r
        else (s1.finalReply gseq r).cancelOthers gseq
      else s1.toHead 0xC [BitVec.ofNat 32 gseq, BitVec.ofNat 32 r.status, BitVec.ofNat 32 (b01 recAck)]

/-- A device has applied a management command (R288). At the head its final reply goes out when every member has; a failure is that of the
lowest-numbered failing device (R304). -/
def State.mgmtDone (s : State) (gseq dev : Nat) (r : Reply) : State :=
  match s.cmd gseq with
  | none => s
  | some c =>
    let take := if r.status = St.ok then decide (c.reply.status = St.ok) && !r.body.isEmpty
      else decide (c.reply.status = St.ok ∨ dev < c.reply.device)
    let s1 := s.modCmd gseq fun x => { x with doneMask := x.doneMask ||| 2 ^ dev, reply := if take then r else x.reply }
    let all := s1.memberMask
    match s1.cmd gseq with
    | some d => if s1.isHead && d.doneMask &&& all == all then s1.finalReply gseq d.reply else s1
    | none => s1

/-- This device has applied a management command (R288). -/
def State.mgmtOwn (s : State) (gseq : Nat) (r : Reply) : State :=
  let s1 := s.modCmd gseq fun x => { x with ownDone := true, state := 3, reply := if s.isHead then x.reply else r }
  if s1.isHead then s1.mgmtDone gseq s1.devIndex r
  else s1.toHead 0xC [BitVec.ofNat 32 gseq, BitVec.ofNat 32 r.status, 0]

/-- The commands of a class that have started (R291) grow by one. -/
def State.countStart (s : State) (cls : Nat) : State :=
  s.modSvc fun v => { v with started := v.started.mapIdx fun i x => if i = cls then x + 1 else x }

/-- An EXEC or SCORE that waits here ends because it has failed on another device, where it had started: it counts here too, so that the
context IDs of the devices agree (R207, R291). -/
def State.countElsewhere (s : State) (gseq : Nat) : State :=
  match s.cmd gseq with
  | some c => if c.run && c.state == 0 && c.prompt.isNone then s.countStart c.cls else s
  | none => s

/-- The image that a run command names (R296, R315, R329). -/
def CmdRec.image (c : CmdRec) : Nat := beAt c.payload 4 4

/-- Images to be unloaded go once every earlier run command that names them, and a commit in progress, has finished here (R305). -/
def State.unloadGo (s : State) : State :=
  (s.svc.cmds.filter fun c => c.opcode == 0x24 && !c.ownDone).foldl (init := s) fun s c =>
    let id := beAt c.payload 0 4
    let waits := s.svc.cmds.any fun d => !d.ownDone && serialOlder 32 d.gseq c.gseq &&
      ((d.run && d.image == id) || (d.opcode == 0x22 && beAt d.payload 0 4 == id))
    if waits then s
    else (s.modSvc fun v => { v with images := v.images.filter (·.id != id) }).mgmtOwn c.gseq (Reply.plain St.ok)

/-- Host output ranges that a failed command has written become poison (R380). -/
def State.poisonOutputs (s : State) (x : Ctx) : State :=
  match s.image x.image with
  | none => s
  | some g => x.wrote.foldl (fun s r => if s.regionKind g r.1 = some 4 then s.poisonRange r.1 (r.2 / 4) else s) s

/-- R380: the command of slot k fails. -/
def State.failCtx (s : State) (k : Nat) (r : Reply) : State :=
  match s.ctx k with
  | none => s
  | some x =>
    let cmds := s.ctxCmds x
    let s1 := (s.resetCtx k).count48 .err 0x70 1
    let s2 := s1.poisonOutputs x
    let s3 := cmds.foldl (fun s c => (s.dropEgress c.gseq).ownFinish c.gseq r false) s2
    s3.endCtx k

/-- `RSEQ` of the record of class `cls` that names the damaged word at `cause`, once no queue holds one that is not stored yet. -/
def State.causeSeq (s : State) (cls : Nat) (cause : Option Nat) : Option Nat :=
  cause.bind fun a =>
    if s.err.queues.toList.any fun q => q.entries.any fun r => r.cls == cls && r.addr == s.globalAddr a then none
    else (((s.err.log.map (·.recd)).filter fun r => r.cls == cls && r.addr == s.globalAddr a).map (·.rseq)).max?

/-- A failure whose status is `CANCELLED` names the causing record and its class (R380). Where that record is not stored here yet, its number
is a free value. -/
def State.cancelReply (s : State) (cls : Nat) (cause : Option Nat) : Reply × State :=
  match s.causeSeq cls cause with
  | some n => (⟨St.cancelled, s.devIndex, n + put cls 48 8, []⟩, s)
  | none => (⟨St.cancelled, s.devIndex, s.nextFree % 2 ^ 48 + put cls 48 8, []⟩, s.drawFree)

/-! ### Quiescing (R381) -/

/-- R381: every context is reset and the device starts no tile. -/
def State.quiesce (s : State) : State :=
  let (r, s0) := s.cancelReply St.clsUe none
  let s1 := (List.range 4).foldl (fun s k => s.failCtx k r) s0
  let s2 := ((s1.ror .err 4 2).rput .aon 4 6 1 0).stateNotice St.quiesced
  { s2 with grp := { s2.grp with quiesced := true }, brd := { s2.brd with quiesceSeq := s2.err.nextSeq } }

/-! ### Recovery -/

/-- The order of R378. -/
def Act.weight : Act → Nat
  | .none => 0 | .retry => 1 | .refetch _ => 1 | .twin _ => 1 | .step => 2 | .restart => 3 | .fail _ => 4 | .failUe => 4 | .failImage _ => 4

/-- The heavier of two actions. -/
def Act.max (a b : Act) : Act := if a.weight < b.weight then b else a

/-- A stored fetched page that holds an address (R170, R373). -/
def State.fetchedAt (s : State) (a : Nat) : Option Nat :=
  (s.svc.fetches.find? fun f => f.ready && decide (f.frame ≤ a ∧ a < f.frame + frameBytes)).map (·.page)

/-- The action of R373 for damage at an address, met on behalf of a context. -/
def State.classify (s : State) (x : Ctx) (addr : Nat) : Act :=
  let a := addr % 2 ^ 48
  match regionOf a with
  | .opBuf _ => .retry
  | .accum _ => .retry
  | .redWin => .retry
  | _ =>
    match s.fetchedAt a with
    | some p => .refetch p
    | none =>
      if x.wrote.any fun r => decide (r.1 ≤ a ∧ a < r.1 + r.2) then .restart
      else
        match s.image x.image with
        | none => .failUe
        | some g =>
          if g.base ≤ a ∧ a < g.base + g.partBytes then
            if 16 < s.grp.size ∧ bitOf (s.rforce .err 8).toNat 2 then .twin a else .failImage g.id
          else .failUe

/-- The action of R374 for a failure status of a tile. -/
def State.classifyStatus (s : State) (st : Nat) : Act :=
  if st = St.streamTimeout ∨ st = St.unitFenced ∨ st = St.waitTimeout then .retry
  else if st = St.collectiveAbort then
    (if s.grp.joins.any (·.left.isSome) then .fail st else .step)
  else if st = St.routeDiverged then .restart
  else if st = St.debugForced ∨ st = St.barrierBroken ∨ st = St.streamIndexPoisoned then .none
  else .fail st

/-- The tiles of an M group that this device has not committed (R376). -/
def ProgRun.uncommitted (r : ProgRun) (mg : Nat) : List Nat :=
  (List.range r.live.length).filter fun i => (r.live[i]?).any (·.mg == mg) && !r.committed.contains i

/-- A tile goes back to its counter's reclaim list (R108, R375). -/
def State.reclaimTile (s : State) (k tile : Nat) : State :=
  let d := s.dsp k
  s.setDsp k { d with reclaim := if d.reclaim.contains tile then d.reclaim else d.reclaim ++ [tile]
                      outstanding := d.outstanding.filter (·.2.2 != tile) }

/-- The unit drops its tile, with the watches, passes and conversions that work for it; its open chain operations go too. -/
def State.dropTile (s : State) (c u : Nat) : State :=
  s.modCore c fun x =>
    { (x.setUnit u { x.unit u with cur := none }) with
        flights := x.flights.filter (·.tile != u), convs := x.convs.filter (·.tile != u)
        threads := x.threads.map fun t => match t.watch with
          | some w => if w.unit = u ∧ w.kind ≠ 8 then { t with watch := none } else t
          | none => t
        bars := x.bars.map fun b => { b with waiters := b.waiters.filter fun t =>
          match (x.thread t).watch with
          | some w => w.unit != u
          | none => true }
        vec := { x.vec with queue := x.vec.queue.filter (·.unit != u)
                            run := x.vec.run.bind fun r => if r.op.unit = u then none else some r } }

/-- What an M group's operations hold in the routers is given up: slots, waiting segments and requests (R269, R376). -/
def State.dropOps (s : State) (k mg : Nat) : State :=
  let mine := fun (t : Nat) => field t 0 2 == k && field t 3 6 == mg % 64
  { s with links := { s.links with
      slots := s.links.slots.filter fun e => !mine e.2.tag
      sends := s.links.sends.filter fun e => !mine e.tag
      grants := s.links.grants.filter fun e => !mine e.tag } }

/-- R376 on this device: an M group of the running program is re-executed under the next re-execution count. Tiles not committed are
reclaimed, tiles running stop without commit, and the group's operations start anew. -/
def State.redoStep (s : State) (k prog mg count : Nat) : State :=
  match s.ctx k with
  | none => s
  | some x =>
    match x.run with
    | none => s
    | some r =>
      if r.index ≠ prog then s
      else
        let todo := r.uncommitted mg
        let s1 := (s.slotCores k).foldl (init := s) fun s c =>
          (List.range 8).foldl (init := s) fun s u =>
            match ((s.core c).unit u).cur with
            | some t => if todo.contains t.num then s.dropTile c u else s
            | none => s
        let started := (s1.dsp k).outstanding.map (·.2.2)
        let s2 := (todo.filter started.contains).foldl (fun s t => s.reclaimTile k t) s1
        let s3 := s2.modCtx k fun y => { y with
          reexec := count, recovery := some 2, recTiles := todo
          run := y.run.map fun q => { q with
            gathers := q.gathers.filter (·.mg != mg), stopDispense := false
            scatters := q.scatters.map fun g => if g.mg = mg then { g with written := [], done := false } else g
            again := if (q.gather mg).any (·.launched) || q.scatters.any (·.mg == mg) then q.again ++ [mg] else q.again } }
        (s3.dropOps k mg).count48 .err 0x68 1

/-- The head re-executes one M group's step: it counts it, tells every member and acts itself (R376); past three re-executions the
command fails instead (R378). -/
def State.headStep (s : State) (k prog mg : Nat) : State :=
  match s.ctx k with
  | none => s
  | some x =>
    if x.recovery = some 2 ∧ (x.run.any fun r => r.uncommitted mg == x.recTiles) then s
    else if 3 ≤ x.reexec then
      let (r, s1) := s.cancelReply St.clsTimeout none
      s1.failCtx k r
    else
      let n := x.reexec + 1
      (s.broadcast 0xA [BitVec.ofNat 32 x.gseq, BitVec.ofNat 32 (put n 0 2), BitVec.ofNat 32 (put prog 0 10 + put mg 10 18)]).redoStep
        k prog mg n

/-- A device asks for a collective step (R376 step 1). -/
def State.askStep (s : State) (k prog mg : Nat) : State :=
  match s.ctx k with
  | none => s
  | some x =>
    if s.isHead then s.headStep k prog mg
    else
      (s.modCtx k fun y => { y with recovery := some 2 }).sendSync s.grp.head 9
        [BitVec.ofNat 32 x.gseq, BitVec.ofNat 32 (put prog 0 10 + put mg 10 18)]

/-- R377 on this device: the context is reset but keeps its pages and connections, and is set back to its first program. The run itself
is started by the caller. -/
def State.rewind (s : State) (k count : Nat) : State :=
  ((s.resetCtx k).modCtx k fun y => { y with runPos := 0, run := none, ended := true, reexec := count, recovery := some 3
                                             recTiles := [], cancel := false }).count48 .err 0x68 1

/-- The head restarts a command (R377), or fails it past three re-executions (R378). A member can only ask: the spec lists no message
for it. -/
def State.askRestart (s : State) (k : Nat) : State :=
  match s.ctx k with
  | none => s
  | some x =>
    if !s.isHead then (s.modCtx k fun y => { y with recovery := some 3 }).emit (.ask s.grp.head 0xA (beBytes 4 x.gseq))
    else if 3 ≤ x.reexec then
      let (r, s1) := s.cancelReply St.clsUe none
      s1.failCtx k r
    else
      let n := x.reexec + 1
      (s.broadcast 0xA [BitVec.ofNat 32 x.gseq, BitVec.ofNat 32 (put n 0 2 + 4), 0]).rewind k n

/-- A fetched page is set back to where it came from and its frame freed (R373). -/
def State.unfetch (s : State) (page : Nat) : State :=
  match s.svc.fetches.find? (·.page == page) with
  | none => s
  | some f =>
    let s1 := s.setPte page (mkPte (if f.host then 4 else 3) false f.owner f.addr (if f.host then 0 else f.device))
    s1.modSvc fun v => { v with fetches := v.fetches.filter (·.page != page) }

/-- The lowest-numbered twin (R376): the device of the same place on another board. -/
def State.twin (s : State) : Nat := if s.devIndex < 16 then s.devIndex + 16 else s.devIndex % 16

/-- Gander 2 copies a granule of an image part from the twin over VC2 (R376): a READ of its eight words to the same address. -/
def State.askTwin (s : State) (a : Nat) : State :=
  let g := a / 32 * 32
  s.sendFlit none false
    { ftype := 2, vc := 2, last := true, dst := s.twin, src := s.devIndex, addr := g, tid := 50 * 256, aux := 7
      words := (words64 g).map fun w => ⟨w, false⟩ }

/-- The lowest device known to have left the group, or this one. -/
def State.leftDevice (s : State) : Nat :=
  (((List.range 64).find? fun d => s.grp.joins.any fun j => j.dev == d && j.left.isSome)).getD s.devIndex

/-- An image moves to FAILED (R373, R385). -/
def State.imageFailed (s : State) (id : Nat) : State := s.modSvc fun v => { v with
  images := v.images.map fun g => if g.id = id then { g with st := .failed } else g }

/-- Carry out the action for a tile of slot k that did not commit; `ue` is the damaged word's address where the error is of class CE or UE. -/
def State.act (s : State) (k tile mg : Nat) (a : Act) (ue : Option Nat) : State :=
  match s.ctx k with
  | none => s
  | some x =>
    let coll := x.run.any fun r => r.prog.gmm?.isSome || r.prog.mrs?.isSome
    let prog := ((x.run.map (·.index)).getD 0)
    let redo := fun (s : State) =>
      if coll then s.askStep k prog mg
      else
        ((s.reclaimTile k tile).modCtx k fun y => { y with recovery := some 1, recTiles := y.recTiles ++ [tile] }).count48 .err 0x60 1
    match a with
    | .none => redo s
    | .retry => redo s
    | .refetch p => redo (s.unfetch p)
    | .twin g => redo (s.askTwin g)
    | .step => s.askStep k prog mg
    | .restart => s.askRestart k
    | .fail st => s.failCtx k ⟨st, if st = St.collectiveAbort then s.leftDevice else s.devIndex, 0, []⟩
    | .failUe =>
      let (r, s1) := s.cancelReply (if ue.isSome then St.clsUe else St.clsConfig) ue
      s1.failCtx k r
    | .failImage i =>
      let (r, s1) := (s.imageFailed i).cancelReply St.clsUe ue
      s1.failCtx k r

/-- An error reaches a command while it is in recovery, or while its failure is handled (R379): an escalation. The first fails the
command, the third quiesces the device. -/
def State.escalate (s : State) (gseq k st : Nat) (ue : Option Nat) : State :=
  match s.cmd gseq with
  | none => s
  | some c =>
    if c.final then s
    else
      let n := c.escal + 1
      let s1 := (s.modCmd gseq fun x => { x with escal := n }).count48 .err 0x78 1
      if n = 1 then
        (if ue.isSome then
          let (r, s2) := s1.cancelReply St.clsUe ue
          s2.failCtx k r
        else s1.failCtx k ⟨st, s1.devIndex, 0, []⟩)
      else if 3 ≤ n then (s1.quiesce).modCmd gseq fun x => { x with quiesceAt := some s1.err.nextSeq }
      else s1

/-- An error against the context of slot k (R379, R382): held while it is frozen, an escalation while it is in recovery, else acted on. -/
def State.errorAgainst (s : State) (k tile mg : Nat) (a : Act) (st : Nat) (ue : Option Nat) : State :=
  match s.ctx k with
  | none => s
  | some x =>
    if x.frozen then s.modCtx k fun y => { y with heldErrs := y.heldErrs ++ [⟨tile, mg, a, st, ue⟩] }
    else if x.recovery.isSome ∧ ¬(x.recTiles.isEmpty ∧ x.recovery = some 1) then s.escalate x.gseq k st ue
    else s.act k tile mg a ue

/-- A tile has ended without commit (R372): the heaviest action of its taints and failures is taken. An abort alone is acted on when its
operation stops. -/
def State.tileFailed (s : State) (k : Nat) (t : TileRun) (mg : Nat) : State :=
  match s.ctx k with
  | none => s
  | some x =>
    let acts := t.taints.map (s.classify x) ++ t.fails.map s.classifyStatus
    if t.taints.isEmpty ∧ !t.fails.isEmpty ∧ t.fails.all (· == St.collectiveAbort) then s
    else s.errorAgainst k t.num mg (acts.foldl Act.max .none) (t.fails.headD St.cancelled) (if t.fails.isEmpty then t.taints.head? else none)

/-! ### Fencing (R383, R384) -/

/-- A SERVICE record (R383, R386). -/
def State.serviceRec (s : State) (isl : Nat) (u : UnitId) (st action addr trigger : Nat) : State :=
  s.raise isl { s.newRec St.clsService st u addr trigger with action := action }

/-- The device leaves the group (R386): its group barriers break everywhere and the head is told; a head that leaves is lost. -/
def State.leaveGroup (s : State) (st trigger : Nat) (u : UnitId) : State :=
  if s.grp.left then s
  else
    let s1 := (s.serviceRec St.islAon u st 8 0 trigger).ror .err 4 16
    let s2 := s1.broadcast 0x18 [BitVec.ofNat 32 s1.devIndex, BitVec.ofNat 32 st]
    let s3 := (List.range 64).foldl (fun s g => if (s.gbar g).dims = 0 then s else s.breakGbar g) s2
    let s4 := (List.range 4).foldl (fun s k => s.failCtx k ⟨st, s.devIndex, 0, []⟩) s3
    let s5 := if s4.leftOut then s4 else ((s4.rput .aon 4 6 1 0).toSt 6).startSt st 0
    let s6 := s5.stateNotice (if s5.isHead then St.headLost else St.quiesced)
    { s6 with grp := { s6.grp with left := true, headLost := s6.grp.headLost || s6.isHead } }

/-- A core that is fenced (R384): its work stops, its tiles are reclaimed, and LOCAL_PARTS of each program-end barrier falls by one (R216).
A barrier that this completes releases when it is next looked at. -/
def State.fenceCore (s : State) (c trigger : Nat) : State :=
  if (s.core c).fenced then s
  else
    let x := s.core c
    let k := (s.coreSlot c).getD 4
    let arrived := ((s.ctx k).bind (·.run)).any fun r => r.arrived.contains c
    let tiles := ((s.dsp k).outstanding.filter (·.1 == c)).map (·.2.2)
    let coll := ((s.ctx k).bind (·.run)).any fun r => r.prog.gmm?.isSome || r.prog.mrs?.isSome
    let u : UnitId := unitCore c 0xFF
    let s1 := s.raise (St.islCore c) ({ s.newRec St.clsService St.unitFenced u 0 trigger with action := 6 }.ofCtx (s.coreCtx c))
    let s2 := tiles.foldl (fun s t => s.reclaimTile k t) s1
    let s3 := (s2.setCore c { x.cleared with fenced := true, charge := 0, lent := false, demoted := none, cache := []
                                             bars := Vector.replicate 32 CoreBar.empty, threads := Vector.replicate 16 Thread.empty })
    let s4 := { s3 with pwr := { s3.pwr with order := s3.pwr.order.filter (· != c), queue := s3.pwr.queue.filter (·.core != c) } }
    let s5 := if c < 32 then s4.ror .err 0x20 (2 ^ c) else s4.ror .err 0x24 (2 ^ (c - 32))
    let s6 := (s5.ror (.core c) 4 2).rput (.lamb c) 4 16 8 0xFF
    let s7 := (List.range 4).foldl (init := s6) fun s j =>
      let b := s.gbar (16 * j + 15)
      if b.st = .free ∨ b.localParts = 0 then s
      else s.setGbar (16 * j + 15) { b with localParts := b.localParts - 1, waiters := b.waiters.filter (·.1 != c)
                                            arrived := if j = k ∧ arrived then b.arrived - 1 else b.arrived }
    let mgs := (tiles.filterMap fun t => ((s.ctx k).bind (·.run)).bind fun r => (r.live[t]?).map (·.mg)).eraseDups
    let prog := (((s.ctx k).bind (·.run)).map (·.index)).getD 0
    let s8 := if coll then mgs.foldl (fun s mg => s.askStep k prog mg) s7 else s7
    if ((List.range 48).filter fun d => !(s8.core d).fenced).length < 24 then s8.leaveGroup St.unitFenced 8 u else s8

end Sys2Proof.Machine
end

