-- ==== Sys2Proof/Machine/Collect.lean ====
section
/-! DEFINITION. Collectives: the all-gather of a GMM (R111 to R114, R265), the reduce-scatter of an MRS (R116, R117, R262, R263, R266) and the
cutting of shares into segments (R267). -/

namespace Sys2Proof.Machine

/-- The operation tag of R260. -/
def opTag (slot kind mg step piece seg : Nat) : Nat :=
  put slot 0 2 + put kind 2 1 + put mg 3 6 + put step 9 3 + put piece 12 7 + put seg 19 13

/-- The segments of a share of `n` bytes: offset and length (R267). -/
def segmentsOf (n : Nat) : List (Nat × Nat) :=
  if 0x80000 ≤ n then (List.range (ceilDiv n 0x40000)).map fun i => (i * 0x40000, min 0x40000 (n - i * 0x40000))
  else
    let h := roundUp (ceilDiv n 2) 256
    if n ≤ h then [(0, n)] else [(0, h), (h, n - h)]

/-- The dimensions of a mask, ascending. -/
def dimList (dims : Nat) : List Nat := (List.range 6).filter dims.testBit

/-- The MRS fields a scatter needs. -/
structure MrsRec where
  group : Nat
  pieces : Nat
  dstT : Nat
  pieceN : Nat
  w : ConvWord

/-- The MRS of a program. -/
def Prog.mrsRec (p : Prog) : Option MrsRec :=
  match p.mrs? with
  | some (_, .mrs g n d pn w) => some ⟨g, n, d, pn, w⟩
  | _ => none

/-- First row of an M group in the map. -/
def ProgRun.mgFirst (r : ProgRun) (mg : Nat) : Nat := ((r.mgRows mg).head?.map (·.i)).getD 0

/-- Runs of a piece's bytes from `off` for `n` bytes, cut at rows and at 256 bytes: row, offset in the row, length; `fuel` bounds them. -/
def pieceRuns (rowBytes : Nat) : Nat → Nat → Nat → List (Nat × Nat × Nat)
  | 0, _, _ => []
  | fuel + 1, off, n =>
    if n = 0 then []
    else
      let k := min n (min (rowBytes - off % max rowBytes 1) 256)
      if k = 0 then [] else (off / rowBytes, off % rowBytes, k) :: pieceRuns rowBytes fuel (off + k) (n - k)

/-- Send one piece of an M group over dimension k (R265, R267): its segments as WRITE flits on VC1, each port's share ended by a
PIECE_END. -/
def State.sendPiece (s : State) (slot : Nat) (r : ProgRun) (g : GmmRec) (mg q k : Nat) : State :=
  let rows := (r.mgRows mg).length
  let n := rows * g.pieceBytes
  let dst := s.devIndex ^^^ 2 ^ k
  let segs := segmentsOf n
  let numbered := (List.range segs.length).zip segs
  let s1 := numbered.foldl (init := s) fun s e =>
    (pieceRuns g.pieceBytes (n / 4 + 1) e.2.1 e.2.2).foldl (init := s) fun s w =>
      let a := r.gatherAddr s.devIndex g mg w.1 q + w.2.1
      s.sendOver k (e.1 % 2 == 1)
        { ftype := 1, vc := 1, last := false, dst := dst, src := s.devIndex, addr := a, tid := (56 + 2 * k + e.1 % 2) * 256
          aux := opTag slot 0 mg k q e.1, words := s.peekWords a (ceilDiv w.2.2 4) }
  (if k < 4 then [false, true] else [false]).foldl (init := s1) fun s sel =>
    s.sendOver k sel
      { ftype := 8, vc := 1, last := true, dst := dst, src := s.devIndex, addr := 0, tid := (56 + 2 * k + b01 sel) * 256
        aux := opTag slot 0 mg k q 0, words := [⟨0, false⟩] }

/-- The run of context slot k with a function applied. -/
def State.modRun (s : State) (k : Nat) (f : ProgRun → ProgRun) : State := s.modCtx k fun x => { x with run := x.run.map f }

/-- Replace or add the gather of an M group. -/
def ProgRun.setGather (r : ProgRun) (g : Gather) : ProgRun :=
  { r with gathers := if r.gathers.any (·.mg == g.mg) then r.gathers.map fun h => if h.mg = g.mg then g else h else r.gathers ++ [g] }

/-- Replace or add the scatter of an M group. -/
def ProgRun.setScatter (r : ProgRun) (g : Scatter) : ProgRun :=
  { r with scatters := if r.scatters.any (·.mg == g.mg) then r.scatters.map fun h => if h.mg = g.mg then g else h
                       else r.scatters ++ [g] }

/-- The scatter of an M group, or one in which nothing has been counted. -/
def ProgRun.scatter (r : ProgRun) (mg opid : Nat) : Scatter :=
  (r.scatters.find? (·.mg == mg)).getD ⟨mg, opid, [], [], false⟩

/-- The M group of the tile for which a thread waits. -/
def State.watchMg (s : State) (c : Nat) (w : Watch) : Option Nat :=
  match ((s.core c).unit w.unit).cur, (s.coreCtx c).bind (·.run) with
  | some t, some r => (r.live[t.num]?).map (·.mg)
  | _, _ => none

/-- Wake the threads that watch an arrival bit (R113) or a completion (R117) of an M group of a context slot: `kind` 5 or 6, object `obj`. -/
def State.wakeKind (s : State) (k kind mg obj status : Nat) : State :=
  (s.slotCores k).foldl (init := s) fun s c =>
    (List.range 16).foldl (init := s) fun s t =>
      match ((s.core c).thread t).watch with
      | some w => if w.kind = kind ∧ w.obj = obj ∧ (kind = 6 ∨ s.watchMg c w = some mg) then s.fire c t status else s
      | none => s

/-- Set arrival bit q of an M group and wake what waits for it. -/
def State.pieceHere (s : State) (k mg q : Nat) : State :=
  (s.modRun k fun r =>
    match r.gather mg with
    | some g => r.setGather { g with mask := g.mask ||| 2 ^ q }
    | none => r).wakeKind k 5 mg q wmMet

/-- A port's share of piece q ends (R265): with the shares of both ports, or of the one Ethernet dimension, the piece has arrived. -/
def State.shareEnd (s : State) (k mg q step : Nat) : State :=
  let need := if step < 4 then 2 else 1
  let s1 := s.modRun k fun r =>
    match r.gather mg with
    | some g => r.setGather { g with ends := sset 0 g.ends q (sget 0 g.ends q + 1) }
    | none => r
  match ((s1.ctx k).bind (·.run)).bind (·.gather mg) with
  | some g => if need ≤ sget 0 g.ends q then s1.pieceHere k mg q else s1
  | none => s1

/-- The timer of an operation starts at its first launch here (R268). -/
def State.startTimer (s : State) (opid : Nat) : State :=
  if s.links.timers.any (·.1 == opid) then s
  else { s with links := { s.links with timers := s.links.timers ++ [(opid, max (s.ffield (.lnk 0) 0x100 0 16) 1)] } }

/-- Stop an operation here because an ABORT is held for it (R269 steps 2 to 4): its slots are freed, its watches end, the program
dispenses no further tile, and the abort is acted on (R374). -/
def State.stopOp (s : State) (k opid : Nat) : State :=
  let mg := field opid 44 18
  let kind := field opid 42 1
  let tagged := fun (t : Nat) => field t 0 2 == k && field t 2 1 == kind && field t 3 6 == mg % 64
  let s1 := { s with links := { s.links with
    slots := s.links.slots.filter fun e => !tagged e.2.tag
    sends := s.links.sends.filter fun e => !tagged e.tag
    grants := s.links.grants.filter fun e => !tagged e.tag
    aborted := s.links.aborted ++ [opid] } }
  let s2 := s1.modRun k fun r => { r with stopDispense := true }
  let s3 := (s2.slotCores k).foldl (init := s2) fun s c =>
    (List.range 16).foldl (init := s) fun s t =>
      match ((s.core c).thread t).watch with
      | some w =>
        if w.kind = 5 + kind ∧ (if kind = 0 then s.watchMg c w = some mg else w.obj = mg % 64) then
          s.fire c t wmFailed (some St.collectiveAbort)
        else s
      | none => s
  s3.errorAgainst k 0 mg (s3.classifyStatus St.collectiveAbort) St.collectiveAbort none

/-- Launch the all-gather of an M group (R113, R265): the own piece is copied into `GATHER_T` and sent over every dimension; pieces that
came early are passed on. A launch for which an ABORT is held aborts at once (R271). -/
def State.launchGather (s : State) (k mg : Nat) : State :=
  match s.ctx k with
  | none => s
  | some x =>
    match x.run with
    | none => s
    | some r =>
      match r.prog.gmmRec with
      | none => s
      | some g =>
        if (r.gather mg).any (·.launched) then s
        else
          let dims := sget 0 r.groupDims g.group
          let opid := opId x.gseq r.index 0 mg x.reexec
          let me := rankOf dims s.devIndex
          let src := (r.prog.tensor g.srcT).getD ⟨0, 0, 0, 0, 0, 0, 0, 0, 0, 0, 0⟩
          let rows := (List.range (r.mgRows mg).length).zip (r.mgRows mg)
          let s1 := rows.foldl (init := s) fun s m =>
            let from_ := r.base s.devIndex 0 src + m.2.i * src.rowStride
            s.putWords (r.gatherAddr s.devIndex g mg m.1 me) (s.peekWords from_ (g.pieceBytes / 4))
          let old := (r.gather mg).getD ⟨mg, opid, 0, [], false⟩
          let s2 := (s1.startTimer opid).modRun k fun q => q.setGather { old with mask := old.mask ||| 2 ^ me, launched := true, opid := opid }
          let s3 := (dimList dims).foldl (fun s d => s.sendPiece k r g mg me d) s2
          let mine := s3.links.earlyEnds.filter fun e =>
            field e.1 0 2 == k && field e.1 2 1 == 0 && field e.1 3 6 == mg % 64
          let s4 := { s3 with links := { s3.links with earlyEnds := s3.links.earlyEnds.filter fun e => !mine.contains e } }
          let s5 := mine.foldl (fun s e => s.shareEnd k mg (field e.1 12 7) (field e.1 9 3)) s4
          let got := ((mine.map fun e => (field e.1 12 7, field e.1 9 3)).eraseDups).filter fun e =>
            (((s5.ctx k).bind (·.run)).bind (·.gather mg)).any fun h => h.mask.testBit e.1
          let s6 := got.foldl (init := s5) fun s e =>
            ((dimList dims).filter fun d => decide (e.2 < d)).foldl (fun s d => s.sendPiece k r g mg e.1 d) s
          if s6.links.aborts.any (·.opid == opid) then s6.stopOp k opid else s6

/-! ### Reduce-scatter -/

/-- The sum of two words in the contribution format (R262). -/
def redAdd (bf16 : Bool) (a b : PWord) : PWord :=
  let v := if bf16 then
      let h := fun i => roundIeee ⟨8, 7, 127⟩ true false
        ((Elem.decode .bf16 (field a.bits.toNat (16 * i) 16)).add (Elem.decode .bf16 (field b.bits.toNat (16 * i) 16)))
      BitVec.ofNat 32 (h 0 + 2 ^ 16 * h 1)
    else fAdd a.bits b.bits
  ⟨v, a.poison || b.poison⟩

/-- The contribution format of an MRS is BF16 (R116). -/
def MrsRec.bf16 (m : MrsRec) : Bool := Elem.ofCode (field m.w.outFmt 0 4) == some .bf16

/-- Bytes of one row of a piece. -/
def MrsRec.pieceRow (m : MrsRec) : Nat := m.pieceN * (if m.bf16 then 2 else 4)

/-- The tensor that the program's CONV writes, from which the router reads contributions (R266). -/
def Prog.convDst (p : Prog) : Option Nat :=
  (p.ops.filterMap fun o => match o.body with | .conv _ d .. => some d | _ => none).head?

/-- The words of a segment of a member's contribution to piece q (R266): rows of the CONV destination. -/
def State.contribution (s : State) (r : ProgRun) (m : MrsRec) (mg q off n : Nat) : List PWord :=
  match r.prog.convDst.bind r.prog.tensor with
  | none => []
  | some t =>
    (pieceRuns m.pieceRow (n / 4 + 1) off n).flatMap fun w =>
      s.peekWords (r.base s.devIndex 0 t + (r.mgFirst mg + w.1) * t.rowStride + q * m.pieceRow + w.2.1) (w.2.2 / 4)

/-- Write a segment of the reduced own piece to `DST_T` (R266). -/
def State.writeReduced (s : State) (r : ProgRun) (m : MrsRec) (mg off : Nat) (ws : List PWord) : State :=
  let t := (r.prog.tensor m.dstT).getD ⟨0, 0, 0, 0, 0, 0, 0, 0, 0, 0, 0⟩
  ((pieceRuns m.pieceRow (ws.length + 1) off (4 * ws.length)).foldl (init := (s, ws)) fun p w =>
    let a := r.base p.1.devIndex 0 t + (r.mgFirst mg + w.1) * t.rowStride + w.2.1
    (p.1.putWords a (p.2.take (w.2.2 / 4)), p.2.drop (w.2.2 / 4))).1

/-- A slot of a router that holds a segment with a tag. -/
def State.slotOf (s : State) (port tag : Nat) : Option (Nat × RedSlot) :=
  s.links.slots.find? fun e => e.2.port == port && e.2.tag == tag

/-- A FREE slot of context slot k in a router (R261). -/
def State.freeSlot (s : State) (port k : Nat) : Option Nat :=
  ((List.range 8).map fun i => port * 32 + 8 * k + i).find? fun a => !(s.links.slots.any (·.1 == a))

/-- Put a slot's contents in place. -/
def State.setSlot (s : State) (a : Nat) (x : RedSlot) : State :=
  { s with links := { s.links with slots := (s.links.slots.filter (·.1 != a)) ++ [(a, x)] } }

/-- A key past every slot: where an operand stands that occupies none of a router's slots (R263). -/
def State.offSlot (s : State) : Nat := (s.links.slots.map (·.1 + 1)).foldl max 1024

/-- Give a slot to a segment that is asked for (R263): an operand that this device holds for it comes to stand in the slot. -/
def State.grantSlot (s : State) (a port src tag bytes : Nat) : State :=
  let mine := fun (e : Nat × RedSlot) => e.2.port == port && e.2.tag == tag
  let own := (s.links.slots.find? mine).bind (·.2.own)
  let s1 : State := { s with links := { s.links with slots := s.links.slots.filter fun e => !mine e } }
  (s1.setSlot a ⟨port, field tag 0 2, field tag 9 3, tag, bytes / 4, [], own⟩).sendSync src 5
    [BitVec.ofNat 32 tag, BitVec.ofNat 32 (a % 32)]

/-- Clear a slot; a request that waits for one in that router is granted in arrival order (R263). How many cycles it waited is not in the
model. -/
def State.clearSlot (s : State) (a : Nat) : State :=
  let s1 : State := { s with links := { s.links with slots := s.links.slots.filter (·.1 != a) } }
  let port := a / 32
  let k := a % 32 / 8
  match s1.links.grants.find? fun g => g.port == port && field g.tag 0 2 == k with
  | none => s1
  | some g =>
    let s2 : State := { s1 with links := { s1.links with grants := s1.links.grants.filter (· != g) } }
    let s3 := if port < 8 then (s2.count48 (.lnk port) 0x58 (s2.nextFree % 2 ^ 48)).drawFree else s2
    s3.grantSlot a port g.src g.tag g.bytes

/-- The own piece of an M group is whole in `DST_T`: the MRS completion watches fire (R117). -/
def State.scatterDone (s : State) (k mg : Nat) : State :=
  (s.modRun k fun r => r.setScatter { r.scatter mg 0 with done := true }).wakeKind k 6 mg (mg % 64) wmMet

/-- Take a partial sum of a segment of piece q through the dimensions that remain (R266): sent on after a grant, met with the partner's
segment, kept in a slot, or written to `DST_T`. -/
def State.passOn (k mg q seg : Nat) : List Nat → List PWord → State → State
  | [], ws, s =>
    match s.ctx k with
    | none => s
    | some x =>
      match x.run.bind fun r => r.prog.mrsRec.map fun m => (r, m) with
      | none => s
      | some (r, m) =>
        let segs := segmentsOf ((r.mgRows mg).length * m.pieceRow)
        let off := ((segs[seg]?).map (·.1)).getD 0
        let s1 := s.writeReduced r m mg off ws
        let sc := r.scatter mg (opId x.gseq r.index 1 mg x.reexec)
        let w := if sc.written.contains seg then sc.written else sc.written ++ [seg]
        let s2 := s1.modRun k fun y => y.setScatter { sc with written := w }
        if segs.length ≤ w.length then s2.scatterDone k mg else s2
  | d :: ds, ws, s =>
    match s.ctx k with
    | none => s
    | some x =>
      match x.run.bind fun r => r.prog.mrsRec.map fun m => (r, m) with
      | none => s
      | some (r, m) =>
        let dims := sget 0 r.groupDims m.group
        let me := rankOf dims s.devIndex
        let place := ((dimList dims).idxOf d)
        let port := if d < 4 then 2 * d + seg % 2 else d + 4
        let tag := opTag k 1 mg d q seg
        if q.testBit place != me.testBit place then
          let s1 : State := { s with links := { s.links with sends := s.links.sends ++ [⟨tag, s.devIndex ^^^ 2 ^ d, port, ws⟩] } }
          s1.sendSync (s.devIndex ^^^ 2 ^ d) 4 [BitVec.ofNat 32 tag, 0x1F, BitVec.ofNat 32 (4 * ws.length)]
        else
          match s.slotOf port tag with
          | some (a, sl) =>
            if sl.words.length < sl.len then s.setSlot a { sl with own := some ws }
            else
              let other := (List.range ws.length).map fun i => sget ⟨0, false⟩ sl.words i
              let s1 := s.clearSlot a
              State.passOn k mg q seg ds ((ws.zip other).map fun p => redAdd m.bf16 p.1 p.2)
                (if port < 8 then s1.count48 (.lnk port) 0x50 1 else s1)
          | none =>
            let first := (dimList dims).head? == some d
            let a := if first then s.offSlot else (s.freeSlot port k).getD s.offSlot
            s.setSlot a ⟨port, k, d, tag, ws.length, [], some ws⟩

/-- Launch the reduce-scatter of piece q of an M group (R117, R266, R267); a launch for which an ABORT is held aborts at once (R271). -/
def State.launchScatter (s : State) (k mg q : Nat) : State :=
  match s.ctx k with
  | none => s
  | some x =>
    match x.run.bind fun r => r.prog.mrsRec.map fun m => (r, m) with
    | none => s
    | some (r, m) =>
      let opid := opId x.gseq r.index 1 mg x.reexec
      let segs := segmentsOf ((r.mgRows mg).length * m.pieceRow)
      let s1 := ((List.range segs.length).zip segs).foldl (init := s) fun s e =>
        s.passOn k mg q e.1 (dimList (sget 0 r.groupDims m.group)) (s.contribution r m mg q e.2.1 e.2.2)
      let s2 := s1.startTimer opid
      if s2.links.aborts.any (·.opid == opid) then s2.stopOp k opid else s2

/-- Committed conversions of a tile's M group that make a piece whole (R117). -/
def ProgRun.scatterNeed (r : ProgRun) (m : MrsRec) (idx : LoopIdx) : Nat :=
  m.pieceN / max r.prog.sh.n 1 * ((r.prog.loop? 0).map fun l => r.trip l idx).getD 1

/-- Launch the operations of an M group again under the next operation ID (R376 step 3): the gather, and the scatter of each piece whose
conversions are already committed. -/
def State.relaunch (s : State) (k mg : Nat) : State :=
  match s.ctx k with
  | none => s
  | some x =>
    match x.run with
    | none => s
    | some r =>
      let s1 := s.modRun k fun q => { q with again := q.again.erase mg }
      let s2 := if r.prog.gmmRec.isSome then s1.launchGather k mg else s1
      match r.prog.mrsRec, r.live.find? (·.mg == mg) with
      | some m, some idx =>
        let sc := r.scatter mg 0
        let s3 := s2.modRun k fun q => q.setScatter { sc with opid := opId x.gseq r.index 1 mg x.reexec, written := [], done := false }
        ((List.range m.pieces).filter fun q => r.scatterNeed m idx == sget 0 sc.counts q).foldl (fun s q => s.launchScatter k mg q) s3
      | _, _ => s2

end Sys2Proof.Machine
end

