-- ==== Sys2Proof/Machine/Commands.lean ====
section
/-! DEFINITION. How run commands start, run their schedules and end on this device: the start of a command (R96, R169, R288, R291, R300), of a
program run (R97, R104, R202, R206, R259), pre-emption and resumption (R214, R293), and the end of a program, a chunk and a prompt (R33, R35,
R317 to R321). -/

namespace Sys2Proof.Machine

/-! ### Starting a command -/

/-- The segment table fits a program (R96): none, or the status with which the command fails. -/
def Prog.segFault (p : Prog) (segs : List Seg) : Option Nat :=
  let causal := p.loops.any (·.causal)
  if p.maxSegs < segs.length ∨ segs.isEmpty ∨ segs.any (fun g => g.len = 0 ∨ g.keys = 0 ∨ (causal ∧ g.keys < g.pos + g.len)) then
    some St.segmentTableInvalid
  else if segs.any (fun g => p.maxLen < g.len) ∨ p.maxRows < (segs.map fun g => p.fold * roundUp g.len 64).sum then
    some St.lengthExceedsPlan
  else none

/-- The segment table fits every program of a schedule (R96). -/
def State.segFault (s : State) (g : Image) (c : Sched) (segs : List Seg) : Option Nat :=
  c.steps.findSome? fun t => (s.prog g t.prog).segFault segs

/-- The bases of a command's slots (R307): the host's bindings, the image's own bases, and what Gander firmware fills in. -/
def State.bindsOf (s : State) (g : Image) (c : Sched) (gseq : Nat) (host : List (Nat × Nat)) : List (Nat × Nat) :=
  c.slots.map fun d =>
    let b := match d.source with
      | 0 => ((host.find? (·.1 == d.slot)).map (·.2)).getD 0
      | 1 => d.base
      | _ =>
        if d.service = 1 then Config.kvPage gseq * frameBytes
        else if d.service = 6 then (((s.regions g).find? (·.kind == 6)).map (·.base)).getD 0
        else Config.serviceBase d.service gseq
    (d.slot, b)

/-- What Gander firmware leaves for a program to read at the bases it fills (R307). -/
def State.fillServices (s : State) (c : Sched) (gseq : Nat) : State :=
  (c.slots.filter fun d => d.source == 2 && (d.tier == 1 || d.tier == 2) && [0, 3, 4].contains d.service).foldl (init := s) fun s d =>
    s.putWords (Config.serviceBase d.service gseq) ((List.range (d.base / 4)).map fun i => ⟨Config.serviceWord d.service gseq i, false⟩)

/-- Ranges of the paged KV space that the STREAM records of a program write (R169). -/
def Prog.kvRanges (p : Prog) (binds : List (Nat × Nat)) (segs : List Seg) : List (Nat × Nat) :=
  let rows := (rowMapFrom p.fold 0 0 segs).length
  p.ops.filterMap fun o => match o.body with
    | .stream _ _ d .. =>
      match p.tensor d with
      | some t =>
        if t.tier = 3 then
          let b := if t.bind = 0 then 0 else ((binds.find? (·.1 == t.bind)).map (·.2)).getD 0
          some (b + t.offset, (if bitOf t.len 0 then min rows t.rows else t.rows) * t.rowStride)
        else none
      | none => none
    | _ => none

/-- The pages that a range meets. -/
def pagesOf (r : Nat × Nat) : List Nat :=
  if r.2 = 0 then [] else (List.range ((r.1 + r.2 - 1) / frameBytes - r.1 / frameBytes + 1)).map (· + r.1 / frameBytes)

/-- The pages of a command's KV range that its schedule writes, ascending (R169). -/
def State.writtenPages (s : State) (g : Image) (c : Sched) (binds : List (Nat × Nat)) (segs : List Seg) : List Nat :=
  let ps := (c.runs.flatMap fun r => ((s.prog g r.1.prog).kvRanges (r.1.binds r.2 binds) segs).flatMap pagesOf).eraseDups
  sortBy (fun a b => decide (a ≤ b)) ps

/-- The register pages whose RWS fields come into force when a command begins (R12, R344). -/
def cmdPages : List Page :=
  (List.range 48).flatMap (fun c => [Page.lamb c, .tsq c, .vec c, .str c, .hen c, .cbuf c]) ++ [.heng 0, .lnk 0, .pwr 0]

/-- The pages of earlier boards' shards of a prompt, with the board that holds each (R328). -/
def State.earlierPages (s : State) (d : Descr) (kvBase : Nat) (p : Prompt) : List (Nat × Nat) :=
  let hs := d.heads s.devIndex
  let bounds := shardBounds d (p.tokens.getD []).length p.shards
  ((List.range (s.devIndex / 16)).flatMap fun j =>
    (List.range (bounds.getD (j + 1) 0 - bounds.getD j 0)).flatMap fun i =>
      (List.range d.layers).flatMap fun l => (List.range hs.2).flatMap fun h =>
        (pagesOf (kvBase + Config.kvPlace p.imageId l h (p.prefixLen + bounds.getD j 0 + i), 2 * d.halfBytes)).map fun q => (q, j)).eraseDups

/-- Enter the pages of earlier boards (R328): state 0b011 at the member of the same place; the page's address there is not known here. -/
def State.enterEarlier (s : State) (owner : Nat) (l : List (Nat × Nat)) : State :=
  l.foldl (init := s) fun s e =>
    (s.setPte e.1 (mkPte 3 false owner (s.nextFree * frameBytes) (e.2 * 16 + s.devIndex % 16))).drawFree

/-- A command that fails before it starts any tile: no state of it is applied (R96, R169, R316). It counts as started (R291). -/
def State.failStart (s : State) (gseqs : List Nat) (st detail : Nat) : State :=
  gseqs.foldl (fun s q => (s.dropEgress q).ownFinish q ⟨st, s.devIndex, detail, []⟩ false)
    (s.countStart ((((gseqs.head?).bind s.cmd).map (·.cls)).getD 0))

/-- A running context is pre-empted (R108, R293): its cores complete their current tiles and give back what they have prefetched. -/
def State.preempt (s : State) (k : Nat) : State :=
  let s1 := s.modCtx k fun x => { x with draining := !x.frozen }
  (s1.slotCores k).foldl (init := s1) fun s c =>
    (List.range 8).foldl (init := s) fun s u =>
      match ((s.core c).unit u).prefetched with
      | none => s
      | some n => (s.reclaimTile k n).modCore c fun x => x.setUnit u { x.unit u with prefetched := none }

/-- What a command brings to its start. -/
structure StartArgs where
  gseqs : List Nat
  cls : Nat
  image : Nat
  schedule : Nat
  segs : List Seg
  host : List (Nat × Nat)
  hpages : List (Nat × Nat)

/-- The context of a command that has passed its checks comes up in its class slot: `s0` is the state before its pages were allocated. -/
def State.ctxUp (s s0 : State) (a : StartArgs) (g : Image) (id : Nat) (pages : List Nat) : State :=
  let gseq := a.gseqs.headD 0
  let c := s0.sched g a.schedule
  let kv := Config.kvPage gseq * frameBytes
  let prompts : List Prompt := a.gseqs.filterMap fun q => (s0.cmd q).bind (·.prompt)
  let s3 := match s0.descr g with
    | none => s
    | some d => (prompts.filter fun (p : Prompt) => decide (1 < p.shards)).foldl
        (fun (s : State) (p : Prompt) => s.enterEarlier id ((s.earlierPages d kv p).filter fun e => !pages.contains e.1)) s
  let s4 := s3.fillServices c gseq
  let s5 := (List.range 48).foldl (fun s c => s.invalidate c) s4
  let s6 := cmdPages.foldl (fun s p => s.takeRws p) s5
  let s7 := (List.range 4).foldl (fun s j => if a.cls < j then s.preempt j else s) s6
  let cx : Ctx :=
    { id := id, gseq := gseq, cls := a.cls, image := a.image, schedule := a.schedule, runPos := 0, run := none
      binds := s0.bindsOf g c gseq a.host, segs := a.segs, draining := false, frozen := false, forced := false, satReported := false, rangeReported := false
      kvBase := kv, reexec := 0, recovery := none, ended := true, cancel := false, recTiles := [], heldErrs := []
      rws := [], wrote := [] }
  let s8 := ((s7.setCtx a.cls (some cx)).countStart a.cls).modSvc fun v => { v with
    hostPages := v.hostPages ++ a.hpages.map fun (h : Nat × Nat) => (h.1, h.2, id) }
  let s9 := a.gseqs.foldl (fun s q => s.modCmd q fun r => { r with state := 1, context := id }) s8
  s9.rput (.pwr 0) 4 1 2 0

/-- Start a command in its class slot (R227, R291 to R293, R300); none, with a status, when it fails its checks. A device whose own copy of
the image has moved to FAILED (R373) reports IMAGE_NOT_ACTIVE. The context's first program
run is started by the caller. -/
def State.openCtx (s : State) (a : StartArgs) : Except Nat State :=
  let gseq := a.gseqs.headD 0
  match s.image a.image with
  | none => .error St.imageNotActive
  | some g =>
    let c := s.sched g a.schedule
    match (if g.st = .failed then some St.imageNotActive else s.segFault g c a.segs) with
    | some st => .error st
    | none =>
      let n := s.svc.started.toList.getD a.cls 0
      let id := a.cls * 0x4000 + n % 0x3FFF
      let binds := s.bindsOf g c gseq a.host
      let pages := s.writtenPages g c binds a.segs
      if a.hpages.any fun h => pages.contains h.1 then .error St.paramInvalid
      else
        let s1 := a.hpages.foldl (fun s h => s.setPte h.1 (mkPte 4 false id 0 0)) s
        match s1.allocPages g id pages 0 with
        | none => .error St.kvSpaceExhausted
        | some s2 =>
          .ok (s2.ctxUp s a g id pages)

/-! ### Starting a program run -/

/-- The cores that are not fenced. -/
def State.liveCores (s : State) : List Nat := (List.range 48).filter fun c => !(s.core c).fenced

/-- The row counts that a program reads at its start (R97); a count vector on another device holds what that device has there. None when a
word is poisoned. -/
def State.readCounts (s : State) (r : ProgRun) (l : LoopRec) : Option (List Nat) :=
  let n := ceilDiv l.extent (max l.step 1)
  match r.prog.tensor l.countT with
  | none => some []
  | some t =>
    let a := r.base s.devIndex 0 t
    if t.tier = 4 ∧ a / 2 ^ 48 ≠ s.devIndex then some ((List.range n).map fun i => Config.free (s.freeCtr + i) % 2 ^ 32)
    else
      let ws := s.peekWords (a % 2 ^ 48) n
      if ws.any (·.poison) then none else some (ws.map fun w => w.bits.toNat)

/-- Collective groups that a program names: entry and `DIMS`; none on a device outside a sub-block (R259). -/
def State.progGroups (s : State) (g : Image) (p : Prog) : Option (List (Nat × Nat)) :=
  let names := p.ops.filterMap fun o => match o.body with
    | .gmm e .. => some e
    | .mrs e .. => some e
    | _ => none
  names.mapM fun e => (groupDims s.devIndex (s.groupEntry g e)).map fun d => (e, d)

/-- The program run at a place in a context's schedule, and the dimensions of its end barrier; none when its row counts are refused
(R97, R104, R259). -/
def State.progRun (s : State) (g : Image) (x : Ctx) (t : SchedStep) (rep : Nat) : Option ProgRun :=
  let p := s.prog g t.prog
  let groups := s.progGroups g p
  let r0 : ProgRun :=
    { index := t.prog, prog := p, binds := t.binds rep x.binds, segs := x.segs, counts := [], live := [], gathers := [], scatters := [], again := []
      committed := [], stopDispense := false, chains := s.chains g, blBase := g.base + (s.dirRegion g 96).1
      groupDims := groups.getD [], arrived := [], inBlock := groups.isSome }
  let counts := match p.loop? 0 with
    | some l => if l.src = 3 then s.readCounts r0 l else some []
    | none => some []
  match counts with
  | none => none
  | some cs =>
    if p.perProblem && decide (p.maxRows < (cs.map fun c => roundUp c 64).sum) then none
    else
      let r1 := { r0 with counts := cs }
      some { r1 with live := if r1.inBlock then r1.liveTiles else [] }

/-- What a group barrier's step leaves to be done: a program-end barrier that released ends its context's run. -/
def noteEnd (g : Nat) (r : State × Bool) : State :=
  if r.2 && g % 16 == 15 then r.1.modCtx (g / 16) fun x => { x with ended := true } else r.1

/-- Start the run at `runPos` of slot k's schedule (R104, R202, R206). -/
def State.startRun (s : State) (k : Nat) : State :=
  match s.ctx k with
  | none => s
  | some x =>
    match s.image x.image with
    | none => s.failCtx k ⟨St.imageNotActive, s.devIndex, 0, []⟩
    | some g =>
      match (s.sched g x.schedule).runs[x.runPos]? with
      | none => s
      | some (t, rep) =>
        match s.progRun g x t rep with
        | none => s.failCtx k ⟨St.rowCountsInvalid, s.devIndex, 0, []⟩
        | some r =>
          let old := s.gbar (16 * k + 15)
          let n := s.liveCores.length
          let gb : GroupBar :=
            { st := .open, gen := if old.st = .open then old.gen else 0, dims := t.dims, localParts := n
              arrived := if r.inBlock then 0 else n, sent := 0, msgs := old.msgs, done := 0, own := false, context := x.id, waiters := [] }
          let s1 := (s.modCtx k fun y => { y with run := some r, ended := false }).setDsp k ⟨.open, r.live.length, 0, [], [], t.prog, x.id⟩
          let s2 := { s1 with freeCtr := s1.freeCtr + r.counts.length }
          noteEnd (16 * k + 15) ((s2.setGbar (16 * k + 15) gb).gStep (16 * k + 15))

/-! ### The end of a run on the cores -/

/-- A core at the end of a program run (R196, R202): its slice is FREE and its grant goes; persistent streams stay armed. -/
def CoreState.runEnd (x : CoreState) : CoreState :=
  { x with run := none, units := Vector.replicate 8 UnitRun.empty, bars := Vector.replicate 32 CoreBar.empty
           vec := ⟨[], none, [], []⟩, streams := x.streams.filter fun e => e.2.persist && !e.2.running
           threads := x.threads.map fun t => { t with watch := none, expect := [] } }

/-- Fence a core (R384); a program-end barrier that this completes releases (R216). -/
def State.fenceUnit (s : State) (c trigger : Nat) : State :=
  (List.range 4).foldl (fun s j => noteEnd (16 * j + 15) (s.gStep (16 * j + 15))) (s.fenceCore c trigger)

/-- The cores of a context slot end their run. -/
def State.coresEnd (s : State) (k : Nat) : State :=
  (s.slotCores k).foldl (fun s c => (s.modCore c CoreState.runEnd).releaseGrant c) s

/-! ### Pre-emption and resumption (R214) -/

/-- The active slot (R293): the highest class with a started, unfinished command. -/
def State.activeSlot (s : State) : Option Nat := (List.range 4).find? fun k => (s.ctx k).isSome

/-- The notices of a freeze or a thaw (R270): `sub` 7 or 8. -/
def State.freezeNotices (s : State) (k sub : Nat) : State :=
  match s.ctx k with
  | none => s
  | some x => x.ops.foldl (fun s o => s.broadcast sub (words64 o ++ [BitVec.ofNat 32 x.id])) s

/-- Freeze the context of slot k once its cores have drained (R214): its slices are saved and cleared. -/
def State.freezeCtx (s : State) (k : Nat) : State :=
  match s.ctx k with
  | none => s
  | some x =>
    let s1 := s.freezeNotices k 7
    let s2 := (s1.slotCores k).foldl (init := s1) fun s c =>
      ((s.modCore c fun y =>
        { y.runEnd with
            saved := y.saved.filter (·.1 != k) ++ [(k, (y.bars.toList.map fun b => if b.st = .open then { b with st := .frozen } else b,
              y.threads.toList))]
            streams := y.streams }).releaseGrant c)
    let s3 := (List.range 16).foldl (fun s i =>
      let b := s.gbar (16 * k + i)
      if b.st = .open then s.setGbar (16 * k + i) { b with st := .frozen } else s) s2
    let d := s3.dsp k
    let s4 := if d.st = .open then s3.setDsp k { d with st := .frozen } else s3
    let s5 := (s4.withdraw k false).modCtx k fun y => { y with frozen := true, draining := false, rws := s.force }
    (s.ctxCmds x).foldl (fun s c => s.modCmd c.gseq fun r => { r with state := 2 }) s5

/-- A restored watch on an operation that was aborted while its context was frozen ends (R271). -/
def State.endAborted (s : State) (k c t : Nat) : State :=
  match ((s.core c).thread t).watch, (s.ctx k).bind fun x => x.run.map fun r => (x, r) with
  | some w, some (x, r) =>
    let mg := (s.watchMg c w).getD 0
    if (w.kind = 5 ∨ w.kind = 6) ∧ s.links.aborted.contains (opId x.gseq r.index (w.kind - 5) mg x.reexec) then
      s.fire c t wmFailed (some St.collectiveAbort)
    else s
  | _, _ => s

/-- Resume the frozen context of slot k (R214): saved slices come back, its objects thaw, and errors held against it are handled (R382). -/
def State.thawCtx (s : State) (k : Nat) : State :=
  match s.ctx k with
  | none => s
  | some x =>
    let s0 := cmdPages.foldl (fun s p => s.restoreRws p x.rws) s
    let prog := (x.run.map (·.index)).getD 0
    let back := fun (y : CoreState) (bs : List CoreBar) (ts : List Thread) =>
      { y with run := some (k, prog), owner := x.id, lent := true, charge := 0, saved := y.saved.filter (·.1 != k)
               bars := y.bars.mapIdx fun i b => let o := bs.getD i b; if o.st = .frozen then { o with st := .open } else o
               threads := y.threads.mapIdx fun i t => ts.getD i t }
    let s1 := (List.range 48).foldl (init := s0) fun s c =>
      match (s.core c).saved.find? (·.1 == k) with
      | none => s
      | some e =>
        let s' := s.modCore c fun y => back y e.2.1 e.2.2
        if (x.run.any fun r => r.arrived.contains c) then
          s'.modCore c fun y => { y with units := y.units.map fun u => { u with exhausted := true } }
        else s'
    let d := s1.dsp k
    let s2 := if d.st = .frozen then s1.setDsp k { d with st := .open } else s1
    let s3 := s2.modCtx k fun y => { y with frozen := false, heldErrs := [] }
    let s4 := (List.range 16).foldl (fun s i =>
      let b := s.gbar (16 * k + i)
      if b.st = .frozen then noteEnd (16 * k + i) ((s.setGbar (16 * k + i) { b with st := .open }).gStep (16 * k + i)) else s) s3
    let s5 := (s.ctxCmds x).foldl (fun s c => s.modCmd c.gseq fun r => { r with state := 1 }) s4
    let s6 := s5.freezeNotices k 8
    let s7 := (s6.slotCores k).foldl (init := s6) fun s c => (List.range 16).foldl (init := s) fun s t => s.endAborted k c t
    x.heldErrs.foldl (init := s7) fun s e =>
      s.errorAgainst k e.tile e.mg e.act e.status e.ue

/-! ### Ends of prompts, chunks and commands -/

/-- Every run of the context's schedule is over. -/
def State.tilesOver (s : State) (x : Ctx) : Bool :=
  match s.image x.image with
  | none => true
  | some g => decide ((s.sched g x.schedule).runs.length ≤ x.runPos)

/-- The context whose chunk holds a prompt. -/
def State.promptCtx (s : State) (gseq : Nat) : Option (Nat × Ctx) :=
  (List.range 4).findSome? fun k =>
    match s.ctx k with
    | some x => if (s.ctxCmds x).any (·.gseq == gseq) then some (k, x) else none
    | none => none

/-- A prompt or command ends without success on this device (R35, R316, R319, R380): one prompt of several leaves its chunk, else the context is
reset; one that waits leaves its queue. -/
def State.endCommand (s : State) (gseq : Nat) (r : Reply) : State :=
  match s.promptCtx gseq with
  | some (k, x) =>
    if decide (1 < ((s.ctxCmds x).filter (!·.ownDone)).length) then
      let s1 := s.modCmd gseq fun y => { y with prompt := y.prompt.map fun q => { q with cancelled := true } }
      (s1.dropEgress gseq).ownFinish gseq r false
    else s.failCtx k r
  | none =>
    let s1 := s.modSvc fun v => { v with queues := v.queues.map fun q => q.filter (· != gseq) }
    ((s1.countElsewhere gseq).dropEgress gseq).ownFinish gseq r false

/-- A prompt fails on this device. -/
def State.failPrompt (s : State) (gseq st detail : Nat) : State := s.endCommand gseq ⟨st, s.devIndex, detail, []⟩

/-- Take a prompt as far as it goes: send the layers that are complete and the completion record, and finish it once its record is
acknowledged, or with `NO_EGRESS` once the first token is chosen (R35, R321, R324). -/
def State.promptGo (s : State) (gseq : Nat) : State :=
  match s.promptCtx gseq, (s.cmd gseq).bind fun c => c.prompt.map fun p => (c, p) with
  | some (k, x), some (c, p) =>
    if c.ownDone then s
    else
      let done := s.tilesOver x
      let ok : Reply := ⟨if x.forced then St.debugForced else St.ok, s.devIndex, 0, []⟩
      if bitOf p.flags 1 then
        if done && p.firstToken.isSome then
          let s1 := s.ownFinish gseq ok false
          if s1.isHead then
            match s1.cmd gseq with
            | some c1 => s1.finalReply gseq (s1.goodReply c1)
            | none => s1
          else s1
        else s
      else
        let n := if done then 2 ^ 16 else Config.layersDone p.imageId x.runPos
        match s.pushEgress gseq x.kvBase n (2 ^ 16 + 2) with
        | (s1, .outside) => s1.failPrompt gseq St.paramInvalid 0
        | (s1, .poison a) => s1.errorAgainst k 0 0 .restart St.cancelled (some a)
        | (s1, .none) =>
          if done && (s1.egressOf gseq).any (·.record == 2) then
            ((s1.modSvc fun v => { v with egress := v.egress.filter (·.gseq != gseq) }).ownFinish gseq ok true)
          else s1
  | _, _ => s

/-- The prompts of a slot's chunk go on; when each has finished here, the context ends. -/
def State.chunkGo (s : State) (k : Nat) : State :=
  match s.ctx k with
  | none => s
  | some x =>
    let cmds := s.ctxCmds x
    let s1 := cmds.foldl (fun s c => s.promptGo c.gseq) s
    match s1.ctx k with
    | none => s1
    | some y => if y.gseq = x.gseq && s1.tilesOver y && (s1.ctxCmds y).all (·.ownDone) then s1.endCtx k else s1

/-- The head chooses the first token of a prompt and tells every device (R320, R328). -/
def State.chooseToken (s : State) (gseq : Nat) : State :=
  match (s.cmd gseq).bind (·.prompt) with
  | none => s
  | some p =>
    let cands := bestOf false 64 ((s.logitDevices p).flatMap (Config.topLogits gseq))
    let t := pickToken p.temp p.sampleK p.seed cands
    (s.modCmd gseq fun c => { c with prompt := c.prompt.map fun q => { q with firstToken := some t } }).broadcast 0xD
      [BitVec.ofNat 32 gseq, BitVec.ofNat 32 t.1, t.2]

/-- The head compares a layer's digests (R33): a mismatch raises its record and restarts the command. -/
def State.checkDigests (s : State) (k gseq layer : Nat) : State :=
  let ds := s.grp.digests.filter fun e => e.1 == gseq && e.2.1 == layer
  match ds with
  | [] => s
  | d :: rest =>
    if rest.any fun e => e.2.2.2 ≠ d.2.2.2 then
      let cx := s.ctx k
      let s1 := s.raise (St.islGander 0) ((s.newRec St.clsProtocol St.routeDiverged (unitGander 0) 0 layer).ofCtx cx)
      let s2 : State := { s1 with grp := { s1.grp with digests := s1.grp.digests.filter fun e => e.1 != gseq } }
      s2.errorAgainst k 0 0 .restart St.routeDiverged none
    else s

/-- A digest reaches the head (R33). -/
def State.takeDigest (s : State) (gseq layer dev dig : Nat) : State :=
  let l := s.grp.digests.filter (fun e => !(e.1 == gseq && e.2.1 == layer && e.2.2.1 == dev)) ++ [(gseq, layer, dev, dig)]
  let s1 : State := { s with grp := { s.grp with digests := l } }
  match s1.promptCtx gseq with
  | some (k, _) => s1.checkDigests k gseq layer
  | none => s1

/-- The last program run of a context is over: an EXEC or SCORE has finished here; a chunk's selections are compared and its first tokens
chosen (R33, R320, R324). -/
def State.tilesDone (s : State) (k : Nat) : State :=
  match s.ctx k with
  | none => s
  | some x =>
    let cmds := s.ctxCmds x
    let s0 := s.modCtx k fun y => { y with run := none, recovery := none }
    if cmds.all (·.prompt.isNone) then
      (s0.ownFinish x.gseq ⟨if x.forced then St.debugForced else St.ok, s.devIndex, 0, []⟩ false).endCtx k
    else
      let layers := (((s.image x.image).bind s.descr).map (·.layers)).getD 0
      let s1 := cmds.foldl (fun s c => s.modCmd c.gseq fun r =>
        { r with prompt := r.prompt.map fun p => { p with chunkEnd := s.aonClk } }) s0
      let s2 := (List.range layers).foldl (init := s1) fun s l =>
        let d := Config.routeDigest x.gseq l
        if s.isHead then s.takeDigest x.gseq l s.devIndex d else s.toHead 0xE [BitVec.ofNat 32 x.gseq, BitVec.ofNat 32 l, BitVec.ofNat 32 d]
      match s2.ctx k with
      | none => s2
      | some y =>
        if !s2.tilesOver y then s2
        else
          let s3 := if s2.isHead then cmds.foldl (fun s c => s.chooseToken c.gseq) s2 else s2
          s3.chunkGo k

/-! ### What follows of itself -/

/-- One step of what follows of itself: the next program run after a program's end, a cancelled context reset at its tile boundary
(R294), a frozen context resumed when no higher class has work (R293). None when nothing follows. -/
def State.settle1 (s : State) : Option State :=
  match (List.range 4).find? fun k => (s.ctx k).any fun x => x.ended && !x.frozen with
  | some k =>
    match s.ctx k with
    | none => none
    | some x =>
      let pos := if x.run.isNone then x.runPos else x.runPos + 1
      let s1 := (s.coresEnd k).modCtx k fun y => { y with runPos := pos, ended := false, run := none
                                                          recovery := if y.recovery = some 3 && y.run.isSome then none else y.recovery }
      match s1.ctx k with
      | none => none
      | some y => some (if s1.tilesOver y then s1.tilesDone k else (s1.startRun k).chunkGo k)
  | none =>
  match (List.range 4).find? fun k => (s.ctx k).any fun x => !x.frozen && x.run.any fun r => !r.again.isEmpty with
  | some k => some (s.relaunch k ((((s.ctx k).bind (·.run)).bind (·.again.head?)).getD 0))
  | none =>
    match (List.range 4).find? fun k => (s.ctx k).any fun x => x.cancel && (x.frozen || (s.dsp k).outstanding.isEmpty) with
    | some k => some (s.failCtx k (Reply.plain St.cancelled))
    | none =>
      match s.activeSlot with
      | some k => if (s.ctx k).any (·.frozen) then some (s.thawCtx k) else none
      | none => none

/-- Everything that follows of itself, as many times as `fuel` allows. -/
def State.settleFor : Nat → State → State
  | 0, s => s
  | fuel + 1, s =>
    match s.settle1 with
    | none => s
    | some s1 => State.settleFor fuel s1

/-- The program runs left in a context's schedule. -/
def State.runsLeft (s : State) (k : Nat) : Nat :=
  match s.ctx k with
  | some x => (((s.image x.image).map fun g => (s.sched g x.schedule).runs.length).getD 0) + 8
  | none => 8

/-- Everything that follows of itself. -/
def State.settle (s : State) : State := (s.settleFor (s.runsLeft 0 + s.runsLeft 1 + s.runsLeft 2 + s.runsLeft 3)).unloadGo

/-- The answer of a command after which the schedules of the contexts may move on. -/
def settled (s : State) : Host.Outcome State Fault Refusal := .next s.settle

/-- Start a command, or fail it (R96). -/
def State.startCmd (s : State) (a : StartArgs) : State :=
  match s.openCtx a with
  | .error st => s.failStart a.gseqs st 0
  | .ok s1 => s1

end Sys2Proof.Machine
end

