-- ==== Sys2Proof/Machine/Tile.lean ====
section
/-! DEFINITION. Tiles: their dispensing (R104 to R106, R113), their start, end and commit (R107, R117, R206, R372), and the commands that wait
for, signal and hand out work: WAIT and SIGNAL (R201 to R204), GMM and MRS (R111, R116), dispense requests, and the starts of commands and
chunks (R292, R317). -/

namespace Sys2Proof.Machine

/-! ### The end of a tile -/

/-- The problem and N indices that a tile's K loops run for. -/
def ProgRun.innerGN (r : ProgRun) (x : LoopIdx) : List (Nat × Nat) :=
  let gs := match r.prog.loop? 0 with
    | some l => if l.dispensed then [x.g] else r.iters l x
    | none => [0]
  gs.flatMap fun g =>
    let y := { x with g := g }
    let ns := match r.prog.loop? 1 with
      | some l => if l.dispensed then [x.n] else r.iters l y
      | none => [0]
    ns.map fun n => (g, n)

/-- Count a tile's committed conversions for the MRS of the program and launch the pieces that are complete (R117). -/
def State.countConversions (s : State) (k : Nat) (r : ProgRun) (idx : LoopIdx) : State :=
  match r.prog.mrsRec, s.ctx k with
  | some m, some x =>
    let need := r.scatterNeed m idx
    (r.innerGN idx).foldl (init := s) fun s gn =>
      let q := gn.2 * r.prog.sh.n / max m.pieceN 1
      let opid := opId x.gseq r.index 1 idx.mg x.reexec
      let s1 := s.modRun k fun y =>
        let sc := y.scatter idx.mg opid
        y.setScatter { sc with counts := sset 0 sc.counts q (sget 0 sc.counts q + 1), opid := opid }
      let n := (((s1.ctx k).bind (·.run)).map fun y => sget 0 (y.scatter idx.mg opid).counts q).getD 0
      if n = need then s1.launchScatter k idx.mg q else s1
  | _, _ => s

/-- A core whose units have all received EXHAUSTED, and whose tiles have all committed, arrives at its program-end barrier, with an acquire
watch (R206, R227). While the reclaim list holds a tile its counter is not exhausted. -/
def State.arriveEnd (s : State) (c : Nat) : State :=
  match s.coreSlot c, (s.coreCtx c).bind (·.run) with
  | some k, some r =>
    let x := s.core c
    let idle := (List.range r.prog.sh.units).all fun u =>
      (x.unit u).exhausted && (x.unit u).cur.isNone && (x.unit u).prefetched.isNone
    if !idle || !(s.dsp k).reclaim.isEmpty || (s.dsp k).outstanding.any (·.1 == c) || r.arrived.contains c then s
    else
      let g := 16 * k + 15
      let t := ((List.range 16).find? fun t => (x.thread t).watch.isNone).getD 0
      let s1 := (s.modRun k fun y => { y with arrived := y.arrived ++ [c] }).register c t 1 g (((s.gbar g).gen + 1) % 65536) true false 8
      let b := s1.gbar g
      noteEnd g ((s1.setGbar g { b with waiters := b.waiters ++ [(c, t)] }).gArrive g)
  | _, _ => s

/-- A tile commits (R107). -/
def State.commit (s : State) (c k : Nat) (r : ProgRun) (t : TileRun) (idx : LoopIdx) : State :=
  let d := s.dsp k
  let s1 := (s.setDsp k { d with outstanding := d.outstanding.filter (·.2.2 != t.num) }).count48 (.tsq c) 0x20 1
  let s2 := s1.modCtx k fun x =>
    let left := x.recTiles.filter (· != t.num)
    { x with run := x.run.map fun y => { y with committed := if y.committed.contains t.num then y.committed else y.committed ++ [t.num] }
             recTiles := left
             recovery := match x.recovery with
               | some 1 => if left.isEmpty then none else some 1
               | some 2 => if left.isEmpty then none else some 2
               | y => y }
  let s3 := s2.countConversions k r idx
  if bitOf (s3.rforce (.tsq c) 8).toNat 1 then s3.ror (.tsq c) 4 16 else s3

/-- The core is held by `TILE_STEP` (R120). -/
def State.stepHeld (s : State) (c : Nat) : Bool :=
  bitOf (s.rforce (.tsq c) 8).toNat 1 && bitOf (s.rget (.tsq c) 4).toNat 4

/-- The statistic entries of a tile's rows take the entry set of R122, on the tile's unit and on those that its CHAIN records name. -/
def State.resetStats (s : State) (c u half : Nat) (p : Prog) : State :=
  let us := u :: p.ops.filterMap fun o => match o.body with | .chain v .. => some (unitAt p v u) | _ => none
  let mine := fun e => us.any fun v => decide (p.entry v half 0 ≤ e) && decide (e < p.entry v half 0 + p.rg)
  s.modCore c fun x => { x with vec := { x.vec with stats := sdrop (fun k => mine (k / 4)) x.vec.stats
                                                    statBad := sdrop mine x.vec.statBad } }

/-- Begin a tile on a unit, counting what it skips and the runs of a K loop after the first (R98, R102, R103). -/
def State.startTile (s : State) (c u k num : Nat) : State :=
  match (s.ctx k).bind (·.run) with
  | none => s
  | some r =>
    match r.live[num]? with
    | none => s
    | some idx =>
      let half := if r.prog.dbuf then ((s.core c).unit u).half else 0
      let s1 := (s.modCore c fun x =>
        let un := x.unit u
        x.setUnit u { un with cur := some ⟨num, half, [], 0, [], [], []⟩, prefetched := none, half := 1 - un.half }).resetStats c u half
          r.prog
      let again := r.prog.msplit && (List.range (s.dsp k).next).any fun j =>
        j != num && (r.live[j]?).any fun y => y.g == idx.g && y.n == idx.n && y.mg < idx.mg
      let s2 := s1.count48 (.tsq c) 0x28 (r.skips .length r.prog.loops idx)
      let s3 := s2.count48 (.tsq c) 0x30 (r.skips .causal r.prog.loops idx)
      if again || r.committed.contains num then s3.count48 (.tsq c) 0x38 (r.innerGN idx).length else s3

/-- A unit whose tile has ended begins the tile it has prefetched, unless it is held or being pre-empted (R106, R120). -/
def State.startNext (s : State) (c u k : Nat) : State :=
  match ((s.core c).unit u).prefetched with
  | some n => if s.stepHeld c || ((s.core c).unit u).cur.isSome then s else s.startTile c u k n
  | none => s

/-- Every operation of the tile on a unit has been issued and is complete. -/
def State.tileOver (s : State) (c u : Nat) (r : ProgRun) (t : TileRun) (idx : LoopIdx) : Bool :=
  t.open_ == 0 && (List.range r.prog.nThreads).all fun th =>
    decide ((r.sequence idx th).length ≤ sget 0 t.pos th) &&
      !(((s.core c).thread th).watch.any fun w => w.unit == u && w.kind != 8 && w.kind != 4)

/-- The tile on a unit ends if it is over: it commits, or, tainted or failed, is recovered (R107, R372). -/
def State.tryEnd (s : State) (c u : Nat) : State :=
  match s.coreSlot c, (s.coreCtx c).bind (·.run), ((s.core c).unit u).cur with
  | some k, some r, some t =>
    match r.live[t.num]? with
    | none => s
    | some idx =>
      if !s.tileOver c u r t idx then s
      else
        let s1 := s.modCore c fun x => x.setUnit u { x.unit u with cur := none }
        let s2 := if t.taints.isEmpty && t.fails.isEmpty then s1.commit c k r t idx else s1.tileFailed k t idx.mg
        if s2.coreSlot c = some k then (s2.startNext c u k).arriveEnd c else s2
  | _, _, _ => s

/-- An operation of the tile on unit u is complete. -/
def State.closeOp (s : State) (c u : Nat) : State :=
  (s.modTile c u fun t => { t with open_ := t.open_ - 1 }).tryEnd c u

/-! ### Dispensing -/

/-- The last K iteration of the tile on a unit has begun (R106). -/
def State.lastK (s : State) (c u : Nat) (r : ProgRun) : Bool :=
  match ((s.core c).unit u).cur with
  | none => false
  | some t =>
    match r.live[t.num]? with
    | none => false
    | some idx =>
      let seqs := (List.range r.prog.nThreads).map fun th => (th, (r.sequence idx th).filter fun o =>
        (r.prog.ops[o.1]?).any fun q => match q.body with | .pass .. => true | _ => false)
      let top := ((seqs.flatMap (·.2)).map (·.2.k)).foldl max 0
      (List.range r.prog.nThreads).any fun th =>
        ((r.sequence idx th).take (sget 0 t.pos th)).any fun o => decide (o.2.k = top)

/-- A dispense of a tile would open a 65th M group in flight, or a group on a slot of `GATHER_T` still held (R113, R114). -/
def ProgRun.mustHold (r : ProgRun) (num : Nat) : Bool :=
  match r.prog.gmm?, r.live[num]? with
  | some _, some idx =>
    let busy := (r.gathers.map (·.mg)).filter fun m => !(r.uncommitted m).isEmpty
    !busy.contains idx.mg && (decide (64 ≤ busy.length) || busy.any fun m => m % r.prog.gLive == idx.mg % r.prog.gLive)
  | _, _ => false

/-- The thread of a core that waits for the dispense answer of a unit. -/
def CoreState.dispWaiter (x : CoreState) (u : Nat) : Option Nat :=
  (List.range 16).find? fun t => (x.thread t).watch.any fun w => w.kind == 4 && w.unit == u

/-- A core that had arrived at the program-end barrier takes work again, so its arrival no longer counts. -/
def State.unarrive (s : State) (c k : Nat) : State :=
  match (s.ctx k).bind (·.run) with
  | none => s
  | some r =>
    if !r.arrived.contains c then s
    else
      let b := s.gbar (16 * k + 15)
      let s1 := s.setGbar (16 * k + 15) { b with arrived := b.arrived - 1, waiters := b.waiters.filter (·.1 != c) }
      let s2 := s1.modRun k fun y => { y with arrived := y.arrived.filter (· != c) }
      s2.modCore c fun x => { x with threads := x.threads.map fun t =>
        match t.watch with
        | some w => if w.kind = 1 then { t with watch := none } else t
        | none => t }

/-- The answer to a unit's request (R105): a tile taken from the reclaim list, else the next index, else none for EXHAUSTED. -/
def Dispense.answer (d : Dispense) : Option (Nat × Dispense) :=
  if d.st ≠ .open then none
  else
    match d.reclaim with
    | j :: rest => some (j, { d with reclaim := rest })
    | [] => if d.next < d.count then some (d.next, { d with next := d.next + 1 }) else none

/-- A unit's request is served (R105, R106, R113). `waited` is the core clock cycles the unit waited for the answer. -/
def State.serveRequest (s : State) (c u k waited : Nat) (r : ProgRun) : State :=
  let wake := fun (s : State) =>
    let s1 := s.count48 (.tsq c) 0x48 waited
    match (s1.core c).dispWaiter u with
    | some t => s1.fire c t wmMet
    | none => s1
  match (s.dsp k).answer with
  | none => (wake (s.modCore c fun x => x.setUnit u { x.unit u with exhausted := true })).arriveEnd c
  | some (j, d) =>
    if r.mustHold j then
      match (s.core c).dispWaiter u, (List.range 16).find? fun t => ((s.core c).thread t).watch.isNone with
      | none, some t => s.register c t 4 k 0 false false u
      | _, _ => s
    else
      let s1 := (wake (s.setDsp k { d with outstanding := d.outstanding ++ [(c, u, j)] })).rset (.tsq c) 0x14 (BitVec.ofNat 32 j)
      let s2 := (s1.unarrive c k).modCore c fun x => x.setUnit u { x.unit u with prefetched := some j, exhausted := false }
      let s3 := match r.prog.gmm?, r.live[j]? with
        | some _, some idx => s2.launchGather k idx.mg
        | _, _ => s2
      (s3.startNext c u k).tryEnd c u

/-- A unit requests a tile (R105, R106). -/
def execDispenseRequest (core : Fin 48) (unit : Fin 8) (waited : Nat) (s : State) : Host.Outcome State Fault Refusal :=
  match s.coreSlot core, s.coreCtx core with
  | some k, some x =>
    match x.run with
    | none => .next s
    | some r =>
      let un := (s.core core).unit unit
      if (s.core core).fenced || x.frozen || x.draining || x.cancel || s.grp.quiesced || s.stepHeld core || (s.dsp k).st == .frozen ||
          decide (r.prog.sh.units ≤ unit.val) || r.stopDispense then .next s
      else
        match un.cur, un.prefetched with
        | none, some _ => settled (s.startNext core unit k)
        | none, none => settled (s.serveRequest core unit k waited r)
        | some _, none =>
          if bitOf (s.rforce (.tsq core) 8).toNat 0 && s.lastK core unit r && !un.exhausted then
            settled (s.serveRequest core unit k waited r)
          else .next s
        | some _, some _ => .next s
  | _, _ => .next s

/-! ### WAIT and SIGNAL -/

/-- A thread waits at a core barrier: it registers a watch and joins the barrier's waiters (R203, R204). -/
def State.waitAt (s : State) (c t b want : Nat) (acq signaller : Bool) (u : Nat) : State :=
  let s1 := s.register c t 0 b want acq signaller u
  s1.modCore c fun x => x.setBar b { x.bar b with waiters := (x.bar b).waiters ++ [t] }

/-- A WAIT on a phase barrier with step `step` (R203). -/
def State.phaseWait (s : State) (c u t b step : Nat) (acq : Bool) : State :=
  let x := s.core c
  let bar := x.bar b
  if bar.st = .broken then s.failTile c u St.barrierBroken
  else
    let th := x.thread t
    let e := (sget 0 th.expect b + step) % 65536
    let s1 := s.setCore c (x.setThread t { th with expect := sset 0 th.expect b e })
    let d := genDist bar.gen e
    if d < 32768 then (if acq then s1.invalidate c else s1)
    else if d = 32768 then s1.failTile c u St.barrierGenStale
    else s1.waitAt c t b e acq false u

/-- A WAIT on a phase barrier. -/
def execPhaseWait (core : Fin 48) (unit : Fin 8) (thread : Fin 16) (s : State) : Host.Outcome State Fault Refusal :=
  match s.nextOp core unit thread with
  | none => .next s
  | some o =>
    match o.rcd.body with
    | .wait b acq false step _ _ => settled (((s.advance core unit thread).phaseWait core unit thread b step acq).tryEnd core unit)
    | _ => .next s

/-- A WAIT on a credit barrier (R204): an item is taken, which may make room for a signaller, or the thread waits. -/
def State.creditWait (s : State) (c u t b : Nat) (acq : Bool) : State :=
  let x := s.core c
  let bar := x.bar b
  if bar.st = .broken then s.failTile c u St.barrierBroken
  else if bar.consumed < bar.arrived then
    let s1 := (s.setCore c (x.setBar b bar.consume)).serve c b
    if acq then s1.invalidate c else s1
  else s.waitAt c t b 0 acq false u

/-- A WAIT on a credit barrier. -/
def execCreditWait (core : Fin 48) (unit : Fin 8) (thread : Fin 16) (s : State) : Host.Outcome State Fault Refusal :=
  match s.nextOp core unit thread with
  | none => .next s
  | some o =>
    match o.rcd.body with
    | .wait b acq true _ _ _ => settled (((s.advance core unit thread).creditWait core unit thread b acq).tryEnd core unit)
    | _ => .next s

/-- A SIGNAL (R203, R204). -/
def State.signal (s : State) (c u t b : Nat) : State :=
  let x := s.core c
  let bar := x.bar b
  if bar.st = .broken then s.failTile c u St.barrierBroken
  else if !bar.credit then s.arrivePhase c b
  else if bar.arrived < bar.consumed + bar.cmax then (s.setCore c (x.setBar b { bar with arrived := bar.arrived + 1 })).serve c b
  else s.waitAt c t b 0 false true u

/-- A SIGNAL. -/
def execSignal (core : Fin 48) (unit : Fin 8) (thread : Fin 16) (s : State) : Host.Outcome State Fault Refusal :=
  match s.nextOp core unit thread with
  | none => .next s
  | some o =>
    match o.rcd.body with
    | .signal b => settled (((s.advance core unit thread).signal core unit thread b).tryEnd core unit)
    | _ => .next s

/-! ### GMM and MRS -/

/-- A GMM record (R111): the gather of its M group is in flight, and the thread goes on. -/
def execGmm (core : Fin 48) (unit : Fin 8) (thread : Fin 16) (s : State) : Host.Outcome State Fault Refusal :=
  match s.nextOp core unit thread with
  | none => .next s
  | some o =>
    match o.rcd.body with
    | .gmm .. => settled (((s.advance core unit thread).launchGather o.slot o.at_.2.mg).tryEnd core unit)
    | _ => .next s

/-- An MRS record (R116): the conversions of its M group are counted as their tiles commit, and the thread goes on. -/
def execMrs (core : Fin 48) (unit : Fin 8) (thread : Fin 16) (s : State) : Host.Outcome State Fault Refusal :=
  match s.nextOp core unit thread with
  | none => .next s
  | some o =>
    match o.rcd.body with
    | .mrs .. => settled ((s.advance core unit thread).tryEnd core unit)
    | _ => .next s

/-! ### Starts of commands and chunks -/

/-- The queue of a class on this device. -/
def State.classQueue (s : State) (cls : Nat) : List Nat := s.svc.queues.toList.getD cls []

/-- Take commands from the front of a class's queue. -/
def State.popQueue (s : State) (cls n : Nat) : State :=
  s.modSvc fun v => { v with queues := v.queues.mapIdx fun i q => if i = cls then q.drop n else q }

/-- The segments of an EXEC payload (R296). -/
def payloadSegs (p : List Byte) : List Seg :=
  let nb := beAt p 10 1
  (List.range (beAt p 11 1)).map fun i => let o := 16 * (1 + nb + i); ⟨beAt p o 4, beAt p (o + 4) 4, beAt p (o + 8) 4⟩

/-- The bindings of an EXEC payload (R296). -/
def payloadBinds (p : List Byte) : List (Nat × Nat) :=
  (List.range (beAt p 10 1)).map fun i => let o := 16 * (1 + i); (beAt p o 1, beAt p (o + 8) 8)

/-- The host pages of an EXEC payload (R296). -/
def payloadPages (p : List Byte) : List (Nat × Nat) :=
  (List.range (beAt p 12 2)).map fun i =>
    let o := 16 * (1 + beAt p 10 1 + beAt p 11 1 + i); (beAt p o 4, beAt p (o + 8) 8)

/-- Run commands can start: the device serves and is awake. -/
def State.mayStart (s : State) : Bool := !s.grp.quiesced && !s.grp.left && !s.grp.headLost && s.rfield (.pwr 0) 4 1 2 != 2

/-- Start the EXEC or SCORE at the front of a class's queue (R292). -/
def State.startFront (s : State) (cls : Nat) : State :=
  match (s.classQueue cls).head?.bind s.cmd with
  | none => s
  | some c =>
    if c.prompt.isSome || (s.ctx cls).isSome || !s.mayStart then s
    else
      let p := c.payload
      let a : StartArgs :=
        if c.opcode = 0x30 then ⟨[c.gseq], cls, beAt p 4 4, beAt p 8 2, payloadSegs p, payloadBinds p, payloadPages p⟩
        else
          let n := beAt p 12 1
          ⟨[c.gseq], cls, beAt p 4 4, (((s.image (beAt p 4 4)).bind s.descr).map (·.scoreSchedule)).getD 0, [⟨n, 0, n⟩], [], []⟩
      (s.popQueue cls 1).startCmd a

/-- A queued run command starts in its class slot (R292). -/
def execCommandStart (cls : Fin 4) (s : State) : Host.Outcome State Fault Refusal := settled (s.startFront cls)

/-- Over how many boards a prompt is sharded (R327). -/
def State.shardsOf (s : State) (d : Descr) (p : Prompt) : Nat :=
  if 1 < s.boards && decide (d.shardMin ≤ (p.tokens.getD []).length) && !bitOf p.flags 2 then s.boards else 1

/-- A prompt with its place in a chunk: what this device holds of it (R317, R327, R328). -/
def State.placePrompt (s : State) (d : Descr) (first total : Nat) (p : Prompt) : Prompt :=
  let len := (p.tokens.getD []).length
  let b := s.shardsOf d p
  let bounds := if b = 1 then [0, len] else shardBounds d len b
  let j := if b = 1 then 0 else s.devIndex / 16
  { p with chunkFirst := first, chunkTokens := total, chunkStart := s.aonClk, shards := b, shardFirst := bounds.getD j 0
           shardCount := bounds.getD (j + 1) 0 - bounds.getD j 0, lastShard := decide (j + 1 = b) }

/-- The segment of a placed prompt (R317, R328). -/
def Prompt.seg (p : Prompt) : Seg :=
  let pos := p.prefixLen + p.shardFirst
  ⟨p.shardCount, pos, pos + p.shardCount⟩

/-- How many prompts of a list the head folds into one chunk (R317). -/
def State.foldCount (s : State) (g : Image) (d : Descr) : List Prompt → List Seg → Nat
  | [], segs => segs.length
  | p :: ps, segs =>
    let q := s.placePrompt d 0 0 p
    let more := segs ++ [q.seg]
    if p.tokens.isNone || p.imageId != g.id then segs.length
    else if segs.isEmpty && decide (1 < q.shards) then 1
    else if decide (1 < q.shards) || (!segs.isEmpty && (s.segFault g (s.sched g d.schedule) more).isSome) then segs.length
    else State.foldCount s g d ps more

/-- Start a chunk of `n` prompts from the front of a class's queue (R317). -/
def State.startChunk (s : State) (cls n : Nat) (g : Image) (d : Descr) : State :=
  let gseqs := (s.classQueue cls).take n
  let ps : List Prompt := gseqs.filterMap fun q => (s.cmd q).bind (·.prompt)
  let total := (ps.map fun p => (p.tokens.getD []).length).sum
  let s1 := gseqs.foldl (fun s q => s.modCmd q fun c => { c with prompt := c.prompt.map (s.placePrompt d (gseqs.headD 0) total) }) s
  let placed : List Prompt := gseqs.filterMap fun q => (s1.cmd q).bind (·.prompt)
  (s1.popQueue cls n).startCmd ⟨gseqs, cls, g.id, d.schedule, placed.map Prompt.seg, [], placed.flatMap (·.pages)⟩

/-- The prompts at the front of a class's queue, up to the first command of another kind. -/
def State.frontPrompts (s : State) (cls : Nat) : List Prompt :=
  (((s.classQueue cls).map s.cmd).takeWhile fun c => c.any (·.prompt.isSome)).filterMap fun c => c.bind (·.prompt)

/-- Form a chunk (R317): the head when its conditions hold, a member with as many prompts as the head took. -/
def State.formChunk (s : State) (cls prompts : Nat) : State :=
  match s.frontPrompts cls with
  | [] => s.startFront cls
  | p :: ps =>
    if (s.ctx cls).isSome || !s.mayStart then s
    else
      match s.image p.imageId with
      | none => (s.popQueue cls 1).failStart ((s.classQueue cls).take 1) St.imageNotActive 0
      | some g =>
        match s.descr g with
        | none => (s.popQueue cls 1).failStart ((s.classQueue cls).take 1) St.imageNotActive 0
        | some d =>
          if s.isHead then
            let all := p :: ps
            let tokens := (all.map fun p => (p.tokens.getD []).length).sum
            let due := decide (d.chunkTarget ≤ tokens) || all.any (·.expired)
            if due then s.startChunk cls (s.foldCount g d all []) g d else s
          else s.startChunk cls (min (max prompts 1) (ps.length + 1)) g d

/-- The head folds queued prompts into a chunk (R317). -/
def execChunkStart (cls : Fin 4) (prompts : Nat) (s : State) : Host.Outcome State Fault Refusal := settled (s.formChunk cls prompts)

/-- The hold of a queued prompt expires, which starts a chunk (R317). -/
def execMaxHold (gseq : Nat) (s : State) : Host.Outcome State Fault Refusal :=
  match s.cmd gseq with
  | none => .next s
  | some c =>
    if c.prompt.isNone || c.state != 0 then .next s
    else settled ((s.modCmd gseq fun x => { x with prompt := x.prompt.map fun p => { p with expired := true } }).formChunk c.cls 1)

/-- The last core has drained, and the context freezes (R214). -/
def execContextFreeze (slot : Fin 4) (s : State) : Host.Outcome State Fault Refusal :=
  match s.ctx slot with
  | none => .next s
  | some x =>
    let busy := (s.slotCores slot).any fun c => (List.range 8).any fun u => ((s.core c).unit u).cur.isSome
    if !x.draining || x.frozen || busy then .next s else settled (s.freezeCtx slot)

end Sys2Proof.Machine
end

