-- ==== Sys2Proof/Machine/Lamb.lean ====
section
/-! DEFINITION. Passes (R37 to R63, R91) and conversions (R79 to R82, R92). -/

namespace Sys2Proof.Machine

/-! ### Passes -/

/-- Issue a pass, and end its tile when that was its last operation and it was skipped. -/
def State.runPass (s : State) (op c u t : Nat) (ev : PassEvents) : Host.Outcome State Fault Refusal :=
  settled ((s.issuePass op c u t ev).tryEnd c u)

/-- MAC (R46). -/
def execMac (core : Fin 48) (unit : Fin 8) (thread : Fin 16) (ev : PassEvents) (s : State) : Host.Outcome State Fault Refusal :=
  s.runPass 0 core unit thread ev

/-- L2SQ (R46, R48). -/
def execL2sq (core : Fin 48) (unit : Fin 8) (thread : Fin 16) (ev : PassEvents) (s : State) : Host.Outcome State Fault Refusal :=
  s.runPass 1 core unit thread ev

/-- L1 (R46, R48). -/
def execL1 (core : Fin 48) (unit : Fin 8) (thread : Fin 16) (ev : PassEvents) (s : State) : Host.Outcome State Fault Refusal :=
  s.runPass 2 core unit thread ev

/-- MAXPLUS (R46, R48). -/
def execMaxplus (core : Fin 48) (unit : Fin 8) (thread : Fin 16) (ev : PassEvents) (s : State) : Host.Outcome State Fault Refusal :=
  s.runPass 3 core unit thread ev

/-- MINPLUS (R46, R48). -/
def execMinplus (core : Fin 48) (unit : Fin 8) (thread : Fin 16) (ev : PassEvents) (s : State) : Host.Outcome State Fault Refusal :=
  s.runPass 4 core unit thread ev

/-- HAMMING (R46, R48). -/
def execHamming (core : Fin 48) (unit : Fin 8) (thread : Fin 16) (ev : PassEvents) (s : State) : Host.Outcome State Fault Refusal :=
  s.runPass 5 core unit thread ev

/-- GTCOUNT (R46, R48). -/
def execGtcount (core : Fin 48) (unit : Fin 8) (thread : Fin 16) (ev : PassEvents) (s : State) : Host.Outcome State Fault Refusal :=
  s.runPass 6 core unit thread ev

/-- The last row slot of a unit's oldest pass leaves the array (R40). -/
def execPassComplete (core : Fin 48) (unit : Fin 8) (s : State) : Host.Outcome State Fault Refusal :=
  match s.drainPass core unit with
  | none => .next s
  | some (s1, u) => settled (s1.closeOp core u)

/-! ### Conversions -/

/-- The fields of a CONV record (R92). -/
structure ConvRec where
  unit : Nat
  dstT : Nat
  nstep : Nat
  w : ConvWord

/-- The CONV record of an operation, if it is one. -/
def OpRec.conv? (o : OpRec) : Option ConvRec :=
  match o.body with
  | .conv unit d ns w => some ⟨unit, d, ns, w⟩
  | _ => none

/-- The FP32 word of a slot value (R80 step 1). -/
def convIn (src : Nat) (x : Word) : Word := if src = 1 then round32 (.ofInt x.toInt) else x

/-- The BF16 clip bound as FP32. -/
def clipWord (b : Nat) : Word := BitVec.ofNat 32 (b * 2 ^ 16)

/-- max(lo, min(hi, y)); a NaN passes unchanged (R80 step 3). -/
def clipTo (lo hi : Nat) (y : Word) : Word :=
  if isNan y then y
  else
    let z := if (val32 (clipWord hi)).gt (val32 y) then y else clipWord hi
    if (val32 z).gt (val32 (clipWord lo)) then z else clipWord lo

/-- One slot value through the converter (R80, R81): the code written. -/
def convValue (w : ConvWord) (scale bias x : Word) : Nat :=
  match elemOf w.outFmt with
  | .int32 => x.toNat
  | el =>
    let x1 := convIn w.src x
    let s := if w.scaleMode = 0 then one32 else scale
    let b := if w.biasMode = 0 then 0 else bias
    let y := fFma x1 s b
    let z := if w.clipEn then clipTo w.clipLo w.clipHi y else y
    el.encode w.rmode (val32 z)

/-- A per-column or per-tensor factor for column j of a tile, and whether it is poisoned (R80, R82, R92). -/
def State.convFactor (s : State) (c mode v n width j : Nat) : PWord :=
  if mode = 2 then (s.peekWords (opBufBase c + v + (n * width + j) * 4) 1).getD 0 ⟨0, false⟩
  else ⟨BitVec.ofNat 32 v, false⟩

/-- Pack codes of an element width into words (R68), each with the poison of any code in it. -/
def packCodes (w : Nat) (l : List (Nat × Bool)) : List PWord :=
  let per := 32 / w
  (List.range (ceilDiv l.length per)).map fun i =>
    let part := (l.drop (i * per)).take per
    ⟨BitVec.ofNat 32 (((List.range part.length).zip part).foldl (fun a p => a + p.2.1 % 2 ^ w * 2 ^ (w * p.1)) 0), part.any (·.2)⟩

/-- One row of a slot read-out, converted (R80, R82). -/
def convRow (w : ConvWord) (factors : List (PWord × PWord)) (row : List PWord) : List PWord :=
  let bad := row.any (·.poison)
  packCodes (elemOf w.outFmt).width ((factors.zip row).map fun p =>
    (convValue w p.1.1.bits p.1.2.bits p.2.bits, bad || p.1.1.poison || p.1.2.poison))

/-- The words that a row which is not valid leaves: undefined (R100). -/
def State.freeWords (s : State) (n : Nat) : List PWord := (List.range n).map fun i => ⟨BitVec.ofNat 32 (Config.free (s.freeCtr + i)), false⟩

/-- Read every slot of the current M group through the converter (R80, R82, R92): the rows with their addresses, the addresses of poisoned
words read, and the state after reading. -/
def State.readOut (s : State) (o : OpCtx) (q : ConvRec) (c v : Nat) : List (Nat × List PWord) × List Nat × State :=
  let p := o.run.prog
  let width := p.sh.n
  let n := o.at_.2.n
  let t := o.tensor q.dstT
  let base := o.base s c q.dstT
  let sb := p.slotBaseOf q.unit
  let factors := (List.range width).map fun j =>
    (s.convFactor c q.w.scaleMode q.w.scale n width j, s.convFactor c q.w.biasMode q.w.bias n width j)
  let g := o.run.group o.at_.2
  let rows := (List.range g.length).zip g
  rows.foldl (init := ([], [], s)) fun acc r =>
    let st := acc.2.2
    let subs := (List.range (width / 64)).map fun sub => slotRowAddr c (p.slot sb v o.tile.half (r.1 / 64) sub) (r.1 % 64)
    let row := subs.flatMap fun a => st.slotRow c a
    let ws := convRow q.w factors row
    let dst := base + r.2.i * t.rowStride + n * q.nstep
    if r.2.valid then
      let bad := subs.filter fun a => (st.slotRow c a).any (·.poison)
      (acc.1 ++ [(dst, ws)], acc.2.1 ++ bad, subs.foldl (fun st a => st.noteWords (unitCore c 0x13) (St.islCore c) a 64 (s.coreCtx c)) st)
    else (acc.1 ++ [(dst, st.freeWords ws.length)], acc.2.1, { st with freeCtr := st.freeCtr + ws.length })

/-- Issue a conversion (R92): what it will write is fixed now, so later passes do not disturb it (R82). -/
def State.issueConv (s : State) (c u t : Nat) : State :=
  match s.nextOp c u t with
  | none => s
  | some o =>
    match o.rcd.conv? with
    | none => s
    | some q =>
      let x := s.core c
      if x.convs.any (·.unit == unitAt o.run.prog q.unit u) || x.chainHolds u then s
      else
        let v := unitAt o.run.prog q.unit u
        let (rows, bad, s1) := s.readOut o q c v
        let refused := rows.findSome? fun r => s.refusalRange true r.1 (4 * r.2.length)
        let per := fun (r : Nat × List PWord) => ((List.range r.2.length).zip r.2).map fun p => (r.1 + 4 * p.1, p.2)
        let job : ConvJob := ⟨v, u, t, (o.tensor q.dstT).tier, if refused.isSome then [] else rows.flatMap per, o.at_.2, refused⟩
        (((s1.modCore c fun y => { y with convs := y.convs ++ [job] }).taintTile c u bad).advance c u t).openOp c u

/-- A CONV record (R92). -/
def execConv (core : Fin 48) (unit : Fin 8) (thread : Fin 16) (s : State) : Host.Outcome State Fault Refusal :=
  .next (s.issueConv core unit thread)

/-- Runs of words at consecutive addresses are written together; `fuel` is at least their number. -/
def wordRuns : Nat → List (Nat × PWord) → List (Nat × List PWord)
  | 0, _ => []
  | _, [] => []
  | fuel + 1, (a, w) :: t =>
    match wordRuns fuel t with
    | (b, ws) :: rest => if b = a + 4 then (a, w :: ws) :: rest else (a, [w]) :: (b, ws) :: rest
    | [] => [(a, [w])]

/-- The converter of a unit has written its rows (R80). -/
def execConvComplete (core : Fin 48) (unit : Fin 8) (s : State) : Host.Outcome State Fault Refusal :=
  match (s.core core).convs.find? (·.unit == unit.val) with
  | none => .next s
  | some j =>
    let s1 := (wordRuns j.dst.length j.dst).foldl (fun s r => s.putWords r.1 r.2) s
    let s2 := s1.modCore core fun x => { x with convs := x.convs.eraseP (·.unit == unit.val) }
    let s3 := match j.status with
      | some st => s2.failTile core j.tile st
      | none => s2
    settled (s3.closeOp core j.tile)

end Sys2Proof.Machine
end

