-- ==== Sys2Proof/Machine/Chain.lean ====
section
/-! DEFINITION. Chain operations on the vector engine: their issue, their instructions one row at a time, and their completion (R121 to R145). -/

namespace Sys2Proof.Machine

/-! ### The running operation -/

/-- The fields of a CHAIN record (R132). -/
structure ChainRec where
  unit : Nat
  idx : Nat
  ports : List Nat
  slot2 : Nat
  s2 : Nat
  w : ConvWord

/-- The CHAIN record of an operation, if it is one. -/
def OpRec.chain? (o : OpRec) : Option ChainRec :=
  match o.body with
  | .chain unit _ _ idx inT outT a0 a1 a2 slot2 _ s2 w => some ⟨unit, idx, [inT, outT, a0, a1, a2], slot2, s2, w⟩
  | _ => none

/-- The operation context of a chain operation in the engine of core c: the tile of its unit and its record. -/
def State.chainCtx (s : State) (c : Nat) (op : ChainOp) : Option (OpCtx × ChainRec) :=
  match s.coreSlot c, (s.coreCtx c).bind (·.run), ((s.core c).unit op.unit).cur with
  | some k, some r, some tl =>
    match r.live[tl.num]?, r.prog.ops[op.op]? with
    | some ti, some q => q.chain?.map fun h => (⟨k, r, tl, ti, q, (op.op, op.idx)⟩, h)
    | _, _ => none
  | _, _, _ => none

/-- The unit of the vector engine in records (R364). -/
def vecSub : Nat := 0x10

/-- Local address of chain program `idx` of the image that a context runs. -/
def State.chainAddr (s : State) (x : Ctx) (idx : Nat) : Nat :=
  match s.image x.image with
  | some g => g.base + s.chainOff g idx
  | none => 0

/-- The rows that a chain runs over (R133, R134): the valid rows of the M group that no pass mask of its unit marks invalid. -/
def State.chainRows (s : State) (c : Nat) (o : OpCtx) (q : ChainRec) : List (Nat × RowInfo) :=
  let g := o.run.group o.at_.2
  let masks := o.run.prog.ops.filterMap fun r => (r.pass?.bind fun p => if p.unit = q.unit then some p.maskT else none)
  ((List.range g.length).zip g).filter fun r => r.2.valid && masks.all fun t => s.maskBit o c t r.2.i

/-- Chunks of 256 elements that a row-chunk chain cuts a row into (R133). -/
def OpCtx.chunks (o : OpCtx) (q : ChainRec) (kind : Nat) : Nat :=
  if kind = 1 then 1 else max 1 (((q.ports.find? (· != 0x3F)).map fun t => (o.tensor t).elems / 256).getD 1)

/-- Set the count row of the tile to zero for each tensor that SELCNT names for the first time in it (R140). -/
def State.zeroCounts (s : State) (c : Nat) (op : ChainOp) (o : OpCtx) (q : ChainRec) : State :=
  let ts := (op.prog.instrs.filter (·.opc == 0x41)).map fun i => q.ports.getD i.port 0x3F
  ts.foldl (init := s) fun s t =>
    let done := (((s.core c).unit op.unit).cur.map (·.countRows)).getD []
    if done.contains t then s
    else
      let tn := o.tensor t
      (s.putWords (o.base s c t + op.tile * tn.rowStride) (List.replicate tn.elems ⟨0, false⟩)).modTile c op.unit fun y =>
        { y with countRows := y.countRows ++ [t] }

/-- Present the row the engine has come to, if there is one (R123, R142): its T registers hold nothing that the spec states. -/
def State.presentRow (s : State) (c : Nat) (r : ChainRun) : State :=
  let set := fun (s : State) (r : ChainRun) => s.modCore c fun x => { x with vec := { x.vec with run := some r } }
  if r.row < r.rows.length then
    let bad := r.badRows.contains r.row
    let r1 := { r with chunk := 0, sweep := 0, pc := 0, v := [], poison := bad
                       t := (List.range 16).map fun i => (i, BitVec.ofNat 32 (Config.free (s.freeCtr + i))) }
    let s1 := (set { s with freeCtr := s.freeCtr + 16 } r1).count48 (.vec c) 0x28 1
    if bad then (s1.count48 (.vec c) 0x40 1).ror (.vec c) 4 8 else s1
  else set s { r with v := [], t := [] }

/-- A parity error of the engine (R143): recorded, and the tile is tainted by damage that lies in the core. -/
def State.vecParity (s : State) (c kind unit idx addr : Nat) : State :=
  let s1 := s.rset (.vec c) 0x10 (BitVec.ofNat 32 (1 + 2 * kind))
  let s2 := s1.raiseCore c vecSub St.clsUe 0 addr (kind + put idx 16 10)
  (s2.noteParity c).taintTile c unit [accBase c]

/-- The engine starts a chain operation (R123, R140, R147). -/
def State.beginChain (s : State) (c : Nat) (op : ChainOp) : State :=
  let cx := (s.coreCtx c).map (·.id)
  match s.chainCtx c op with
  | none => s.presentRow c ⟨op, [], 1, 0, 0, 0, 0, [], [], false, [], [], 0⟩
  | some (o, q) =>
    let rows := s.chainRows c o q
    let addr := ((s.coreCtx c).map fun x => s.chainAddr x q.idx).getD 0
    let consts := (List.range op.prog.consts.length).filter fun i => !(s.poisonAddrs (addr + 32 + 4 * i) 1).isEmpty
    let s1 := (s.zeroCounts c op o q).rset (.vec c) 0xC (BitVec.ofNat 32 (put q.idx 0 10 + put (cx.getD 0) 16 16))
    let badRows := match op.parity with
      | some 0 => List.range rows.length
      | some 1 => if rows.isEmpty then [] else [s1.nextFree % rows.length]
      | _ => []
    let s2 := match op.parity with
      | some 0 => s1.vecParity c 0 op.unit q.idx addr
      | some 1 => s1.drawFree.vecParity c 1 op.unit q.idx addr
      | _ => s1
    (s2.ror (.vec c) 4 4).presentRow c ⟨op, rows, o.chunks q op.prog.kind, 0, 0, 0, 0, [], [], false, badRows, consts, 0⟩

/-- Issue a CHAIN (R123, R132): it starts at once on an idle engine; otherwise it is queued and its thread waits on a watch. -/
def State.issueChain (s : State) (c u t : Nat) (parity : Option Nat) : State :=
  match s.nextOp c u t with
  | none => s
  | some o =>
    match o.rcd.chain? with
    | none => s
    | some q =>
      if !s.mayIssue c then s
      else
        let op : ChainOp := ⟨t, u, o.tile.half, o.tile.num, o.at_.1, o.at_.2, (o.run.chains[q.idx]?).getD ⟨0, 0, 0, [], [], []⟩, parity⟩
        let s1 := (s.advance c u t).openOp c u
        match (s1.core c).vec.run with
        | none => s1.beginChain c op
        | some _ =>
          (s1.modCore c fun x => { x with vec := { x.vec with queue := x.vec.queue ++ [op] } }).register c t 7 0 0 false false u

/-- A CHAIN record. -/
def execChain (core : Fin 48) (unit : Fin 8) (thread : Fin 16) (parity : Option (Fin 4)) (s : State) :
    Host.Outcome State Fault Refusal :=
  .next (s.issueChain core unit thread (parity.map (·.val)))

/-- The engine takes the next queued operation, waking its thread (R123). -/
def State.nextChain (s : State) (c : Nat) : State :=
  match (s.core c).vec.queue with
  | [] => s
  | op :: rest =>
    let s1 := s.modCore c fun x => { x with vec := { x.vec with queue := rest } }
    let s2 := if ((s1.core c).thread op.thread).watch.any (·.kind == 7) then s1.fire c op.thread wmMet else s1
    s2.beginChain c op

/-- The engine finishes a chain operation whose rows are done, and starts the next one (R123). `stall` is the cycles lost to the ports and
to the slot interlock. -/
def execChainComplete (core : Fin 48) (stall : Nat) (s : State) : Host.Outcome State Fault Refusal :=
  match (s.core core).vec.run with
  | none => .next s
  | some r =>
    if r.row < r.rows.length then .next s
    else
      let s1 := s.modCore core fun x => { x with vec := { x.vec with run := none } }
      let s2 := ((s1.count48 (.vec core) 0x20 1).count48 (.vec core) 0x30 (ceilDiv r.slots 256)).count48 (.vec core) 0x38 stall
      settled (((s2.rclr (.vec core) 4 4).nextChain core).closeOp core r.op.unit)

/-! ### One instruction -/

/-- An instruction about to take effect: the engine's operation, its context and record, the instruction, and the row with its number in the
M group. -/
structure ChainEnv where
  c : Nat
  r : ChainRun
  o : OpCtx
  q : ChainRec
  ins : ChainInstr
  m : Nat
  w : RowInfo

/-- The instruction that core c's engine has come to, if its operation code is `opc`. -/
def State.chainEnv (s : State) (c opc : Nat) : Option ChainEnv :=
  match (s.core c).vec.run with
  | none => none
  | some r =>
    match s.chainCtx c r.op, r.rows[r.row]?, r.op.prog.instrs[r.pc]? with
    | some (o, q), some (m, w), some i => if i.opc = opc then some ⟨c, r, o, q, i, m, w⟩ else none
    | _, _, _ => none

/-- The chain is an epilogue (R134). -/
def ChainEnv.epilogue (e : ChainEnv) : Bool := e.r.op.prog.kind == 1
/-- Width of every port but SLOT2 (R132). -/
def ChainEnv.width (e : ChainEnv) : Nat := if e.epilogue then e.o.run.prog.sh.n else 256
/-- Width of a port (R132). -/
def ChainEnv.portWidth (e : ChainEnv) : Nat := if e.ins.port = 6 then e.q.s2 * 64 else e.width
/-- The port is SLOT or SLOT2. -/
def ChainEnv.onSlot (e : ChainEnv) : Bool := e.ins.port == 5 || e.ins.port == 6
/-- The current column position (R133, R134). -/
def ChainEnv.col (e : ChainEnv) : Nat := if e.epilogue then e.o.at_.2.n * e.o.run.prog.sh.n else e.r.chunk * 256
/-- The unit whose slots and entries the chain uses. -/
def ChainEnv.v (e : ChainEnv) : Nat := unitAt e.o.run.prog e.q.unit e.r.op.unit
/-- The statistic entry of the row (R122). -/
def ChainEnv.entry (e : ChainEnv) : Nat := e.o.run.prog.entry e.v e.r.op.half e.m
/-- The tensor of the instruction's port. -/
def ChainEnv.tensorNo (e : ChainEnv) : Nat := e.q.ports.getD e.ins.port 0x3F
/-- The tensor record of the instruction's port. -/
def ChainEnv.tensor (e : ChainEnv) : Tensor := e.o.tensor e.tensorNo
/-- The base of the instruction's port. -/
def ChainEnv.base (e : ChainEnv) (s : State) : Nat := e.o.base s e.c e.tensorNo

/-- −∞ and +∞ as FP32. -/
def negInf32 : Word := 0xFF800000
/-- +∞ as FP32. -/
def posInf32 : Word := 0x7F800000

/-- A scalar operand (R126), and whether it reads poisoned. -/
def ChainEnv.scalar (e : ChainEnv) (s : State) (a : Nat) : Word × Bool :=
  let x := a % 16
  match a / 16 with
  | 0 => ((sget [] e.r.v x).headD 0, false)
  | 1 => (sget 0#32 e.r.t x, false)
  | 2 => (e.r.op.prog.consts.getD x 0, e.r.badConsts.contains x)
  | _ =>
    if x < 4 then ((s.core e.c).vec.stat e.entry x, sget false (s.core e.c).vec.statBad e.entry)
    else if x = 4 then (natWord e.w.pos, false)
    else if x = 5 then (natWord e.col, false)
    else if x = 6 then (natWord e.w.keys, false)
    else if x = 8 then (negInf32, false)
    else if x = 9 then (one32, false)
    else (0, false)

/-- A lanewise operand over n lanes (R126): a V register, each lane's column for COL, else the same value in every lane. -/
def ChainEnv.lanes (e : ChainEnv) (s : State) (n a : Nat) : List Word × Bool :=
  if a < 16 then (sget [] e.r.v a, false)
  else if a = 0x35 then ((List.range n).map fun i => natWord (e.col + i), false)
  else
    let v := e.scalar s a
    (List.replicate n v.1, v.2)

/-- The width of a lanewise instruction: that of the V registers it reads, or of the ports. -/
def ChainEnv.laneWidth (e : ChainEnv) (as : List Nat) : Nat :=
  match as.find? (· < 16) with
  | some a => (sget [] e.r.v a).length
  | none => e.width

/-- The row is poisoned from here on (R142). -/
def State.poisonRow (s : State) (e : ChainEnv) (bad : Bool) : State :=
  match (s.core e.c).vec.run with
  | some r =>
    if bad && !r.poison then
      ((s.modCore e.c fun x => { x with vec := { x.vec with run := some { r with poison := true } } }).count48 (.vec e.c) 0x40 1).ror
        (.vec e.c) 4 8
    else s
  | none => s

/-- The row that the engine runs is poisoned. -/
def State.rowPoisoned (s : State) (c : Nat) : Bool := (s.core c).vec.run.any (·.poison)

/-- Change the running operation of core c's engine. -/
def State.modChain (s : State) (c : Nat) (f : ChainRun → ChainRun) : State :=
  s.modCore c fun x => { x with vec := { x.vec with run := x.vec.run.map f } }

/-- Write a V register. -/
def State.putV (s : State) (c i : Nat) (l : List Word) : State := s.modChain c fun r => { r with v := sset [] r.v (i % 16) l }

/-- Write a T register or a statistic field (R126); a field that a poisoned row writes poisons its entry (R142). -/
def State.putScalar (s : State) (e : ChainEnv) (d : Nat) (w : Word) : State :=
  if d / 16 = 1 then s.modChain e.c fun r => { r with t := (r.t.filter (·.1 != d % 16)) ++ [(d % 16, w)] }
  else if d / 16 = 3 then
    let bad := s.rowPoisoned e.c
    s.modCore e.c fun x =>
      let v := x.vec.setStat e.entry (d % 4) w
      { x with vec := if bad then v.markBad e.entry else v }
  else s.putV e.c d [w]

/-- The engine moves past an instruction that used `slots` lane-slots: to the next instruction, chunk, sweep or row (R133). -/
def State.stepChain (s : State) (c slots : Nat) (ends : Bool) : State :=
  match (s.core c).vec.run with
  | none => s
  | some r0 =>
    let r := { r0 with slots := r0.slots + slots }
    let split := r.op.prog.split
    let set := fun (r : ChainRun) => s.modCore c fun x => { x with vec := { x.vec with run := some r } }
    if ends || (split != 0 && r.sweep == 0 && r.pc + 1 == split) then
      if r.chunk + 1 < r.chunks then set { r with chunk := r.chunk + 1, pc := if r.sweep = 0 then 0 else split, v := [] }
      else if split ≠ 0 ∧ r.sweep = 0 then set { r with sweep := 1, chunk := 0, pc := split, v := [] }
      else s.presentRow c { r with row := r.row + 1 }
    else set { r with pc := r.pc + 1 }

/-! ### Ports -/

/-- An element loaded (R130): exact, a scaled value rounded once. -/
def loadCode (el : Elem) (scale : Option Nat) (code : Nat) : Word :=
  match scale with
  | some 255 => nan32
  | some k => round32 ((el.decode code).scale ((k : Int) - 127))
  | none =>
    match el with
    | .fp32 => fPass (BitVec.ofNat 32 code)
    | .bf16 => fPass (BitVec.ofNat 32 (code * 2 ^ 16))
    | _ => round32 (el.decode code)

/-- A code of w bits, 4, 8, 16 or 32, at index k of a run of bytes (R68). -/
def elemAt (w : Nat) (bs : List Byte) (k : Nat) : Nat :=
  if w = 4 then codeAt 4 bs k else leAt bs (k * (w / 8)) (w / 8)

/-- Byte places of n elements from column `col` of row `row` of a tensor, and of their scales (R71, R130). -/
def Tensor.places (t : Tensor) (base row col n : Nat) : (Nat × Nat) × Option (Nat × Nat × Nat) :=
  let w := (elemOf t.fmt).width
  let b := blockSize t.fmt
  let start := base + row * t.rowStride
  let per := if blockDir t.fmt then 8 else b
  let first := (if blockDir t.fmt then base + (row - row % max b 1) * t.rowStride else start) + t.elems * w / 8
  ((start + col * w / 8, ceilDiv (n * w) 8),
    if b = 0 then none else some (first + col / per, (col + n - 1) / per - col / per + 1, per))

/-- Load n elements of a tensor row, with the addresses of poisoned words among them (R130). -/
def State.loadTensor (s : State) (t : Tensor) (base row col n : Nat) : List Word × List Nat :=
  let (d, sc) := t.places base row col n
  let el := elemOf t.fmt
  let words := fun (p : Nat × Nat) => s.poisonAddrs (p.1 / 4 * 4) (ceilDiv (p.1 % 4 + p.2) 4)
  let bs := (s.peekBytes d.1 d.2).1
  match sc with
  | none => ((List.range n).map fun k => loadCode el none (elemAt el.width bs k), words d)
  | some (a, m, per) =>
    let ss := (s.peekBytes a m).1
    ((List.range n).map fun k => loadCode el (some (byteOf ss ((col + k) / per - col / per))) (elemAt el.width bs k),
      words d ++ words (a, m))

/-- The records of a load. -/
def State.noteTensor (s : State) (c : Nat) (t : Tensor) (base row col n : Nat) : State :=
  let (d, sc) := t.places base row col n
  let note := fun (s : State) (p : Nat × Nat) =>
    s.noteWords (unitCore c vecSub) (St.islCore c) (p.1 / 4 * 4) (ceilDiv (p.1 % 4 + p.2) 4) (s.coreCtx c)
  match sc with
  | none => note s d
  | some (a, m, _) => note (note s d) (a, m)

/-- Store bytes, every word poisoned when the row is (R142). -/
def State.storeBytes (s : State) (c a : Nat) (bs : List Byte) (bad : Bool) : State :=
  if bad then s.poisonRange (a / 4 * 4) (ceilDiv (a % 4 + bs.length) 4)
  else s.putBytes (unitCore c vecSub) (St.islCore c) a bs

/-- Codes of w bits as bytes (R68). -/
def packBytes (w : Nat) (l : List Nat) : List Byte :=
  if w = 4 then (List.range (ceilDiv l.length 2)).map fun i => BitVec.ofNat 8 (l.getD (2 * i) 0 % 16 + 16 * (l.getD (2 * i + 1) 0 % 16))
  else l.flatMap fun x => leBytes (w / 8) x

/-- Cut a list into pieces of n lanes; `fuel` is at least its length. -/
def cutLanes (n : Nat) : Nat → List Word → List (List Word)
  | 0, _ => []
  | _, [] => []
  | fuel + 1, l => l.take n :: cutLanes n fuel (l.drop n)

/-- Store lanes to a tensor row from column `col` in a format: rounded (R130), or quantised when it carries a block size (R141). -/
def State.storeTensor (s : State) (c : Nat) (t : Tensor) (base row col fmt : Nat) (l : List Word) (bad : Bool) : State :=
  let el := elemOf fmt
  let start := base + row * t.rowStride
  let at_ := start + col * el.width / 8
  let b := blockSize fmt
  if b = 0 then s.storeBytes c at_ (packBytes el.width (l.map (storeCode el))) bad
  else
    let blocks := (cutLanes b l.length l).map (quantBlock el)
    (s.storeBytes c at_ (packBytes el.width (blocks.flatMap (·.2))) bad).storeBytes c (start + t.elems * el.width / 8 + col / b)
      (blocks.map fun x => BitVec.ofNat 8 x.1) bad

/-- Address of a lane of the row's slots at port SLOT or SLOT2 (R102, R134); `m` is the row's number in the M group. -/
def ChainEnv.slotAddr (e : ChainEnv) (m lane : Nat) : Nat :=
  let p := e.o.run.prog
  let slot := if e.ins.port = 6 then p.slot2 e.q.slot2 e.q.s2 e.r.op.half (m / 64) (lane / 64)
    else p.slot (p.slotBaseOf e.q.unit) e.v e.r.op.half (m / 64) (lane / 64)
  slotRowAddr e.c slot (m % 64)

/-- n lanes of a slot row from lane `col`, through the conversion word at port SLOT (R134), with the addresses of poisoned words. -/
def ChainEnv.loadSlot (e : ChainEnv) (s : State) (m col n : Nat) : List Word × List Nat :=
  let subs := (List.range ((col + n + 63) / 64 - col / 64)).map fun i => e.slotAddr m ((col / 64 + i) * 64)
  let ws := ((subs.flatMap fun a => s.slotRow e.c a).drop (col % 64)).take n
  let bad := subs.filter fun a => (s.slotRow e.c a).any (·.poison)
  if e.ins.port = 6 then (ws.map (·.bits), bad)
  else
    let fac := fun mode x j => s.convFactor e.c mode x e.o.at_.2.n e.width j
    let w := e.q.w
    let lane := fun (p : Nat × PWord) =>
      loadCode (elemOf w.outFmt) none (convValue w (fac w.scaleMode w.scale (col + p.1)).bits (fac w.biasMode w.bias (col + p.1)).bits
        p.2.bits)
    let facBad := (List.range n).any fun j =>
      (fac w.scaleMode w.scale (col + j)).poison || (fac w.biasMode w.bias (col + j)).poison
    (((List.range ws.length).zip ws).map lane, if facBad then bad ++ [opBufBase e.c + w.scale] else bad)

/-- Write lanes of a slot row from lane `col` (R134): FP32 bits, or INT32 where the slot holds INT32. -/
def ChainEnv.storeSlot (e : ChainEnv) (s : State) (col : Nat) (l : List Word) (bad : Bool) : State :=
  let int := e.ins.port == 5 && e.q.w.src == 1
  ((List.range l.length).zip l).foldl (init := s) fun s p =>
    let j := col + p.1
    let w := if int then BitVec.ofNat 32 (storeCode .int32 p.2) else p.2
    s.putWords (e.slotAddr e.m j + 4 * (j % 64)) [⟨w, bad⟩]

/-- A pass in flight still writes the slot row of the port (R134): the instruction waits. -/
def ChainEnv.slotBusy (e : ChainEnv) (s : State) : Bool :=
  let subs := (List.range (e.portWidth / 64)).map fun i => e.slotAddr e.m (i * 64)
  e.onSlot && (s.core e.c).flights.any fun f => f.writes.any fun w => subs.contains w.addr

/-- Load n lanes of row `row` of the instruction's port from column `col`: the lanes and the state after the read, in which a poisoned word
taints the tile and poisons the row (R142, R372). -/
def ChainEnv.load (e : ChainEnv) (s : State) (row col n : Nat) : List Word × State :=
  let (ws, bad, s1) :=
    if e.onSlot then
      let x := e.loadSlot s row col n
      let subs := (List.range ((col + n + 63) / 64 - col / 64)).map fun i => e.slotAddr row ((col / 64 + i) * 64)
      (x.1, x.2, subs.foldl (fun s a => s.noteWords (unitCore e.c vecSub) (St.islCore e.c) a 64 (s.coreCtx e.c)) s)
    else
      let x := s.loadTensor e.tensor (e.base s) row col n
      (x.1, x.2, s.noteTensor e.c e.tensor (e.base s) row col n)
  (ws, (s1.taintTile e.c e.r.op.unit bad).poisonRow e (!bad.isEmpty))

/-- Store lanes to the current row of the instruction's port from column `col` in a format. -/
def ChainEnv.store (e : ChainEnv) (s : State) (col fmt : Nat) (l : List Word) : State :=
  let bad := s.rowPoisoned e.c
  if e.onSlot then e.storeSlot s col l bad else s.storeTensor e.c e.tensor (e.base s) e.w.i col fmt l bad

/-- The first range error of a command is reported when `RANGE_REPORT` is set; each sets INDEX_RANGE (R144, R366). -/
def State.rangeError (s : State) (e : ChainEnv) (addr sel : Nat) (value : Word) : State :=
  let s1 := s.ror (.vec e.c) 4 2
  let first := (s1.coreCtx e.c).any fun x => !x.rangeReported
  if bitOf (s1.rforce (.vec e.c) 8).toNat 0 && first then
    (s1.raiseCore e.c vecSub St.clsConfig St.chainIndexRange addr
      (put e.q.idx 0 10 + put e.r.pc 10 8 + put sel 18 1 + put value.toNat 32 32)).modCtx e.o.slot fun x => { x with rangeReported := true }
  else s1

/-- An instruction takes effect: `f` gives the state after it and its lane-slots. Nothing happens when the engine has not come to it or when
it waits for a pass (R134). -/
def State.chainStep (s : State) (c opc : Nat) (f : ChainEnv → State → State × Nat) : Host.Outcome State Fault Refusal :=
  match s.chainEnv c opc with
  | none => .next s
  | some e =>
    if e.slotBusy s then .next s
    else
      let r := f e s
      .next (r.1.stepChain c r.2 false)

/-! ### Loads and stores -/

/-- The column at which LD and ST act (R127): slot ports hold the current columns from lane 0. -/
def ChainEnv.column (e : ChainEnv) : Nat := if bitOf e.ins.mode 0 || e.onSlot then 0 else e.col

/-- LD: the current row of a port (R127). -/
def execLd (core : Fin 48) (s : State) : Host.Outcome State Fault Refusal :=
  s.chainStep core 0x01 fun e s =>
    let x := e.load s (if e.onSlot then e.m else e.w.i) (e.column + e.ins.imm * 64) e.portWidth
    (x.2.putV e.c e.ins.dst x.1, e.portWidth)

/-- LDV: row 0 of a port (R127). -/
def execLdv (core : Fin 48) (s : State) : Host.Outcome State Fault Refusal :=
  s.chainStep core 0x02 fun e s =>
    let x := e.load s 0 (if e.onSlot then 0 else e.col) e.portWidth
    (x.2.putV e.c e.ins.dst x.1, e.portWidth)

/-- LDP: row POS of a port; past its rows it loads NaN into every lane (R127, R144). -/
def execLdp (core : Fin 48) (s : State) : Host.Outcome State Fault Refusal :=
  s.chainStep core 0x03 fun e s =>
    let rows := if e.onSlot then (e.o.run.group e.o.at_.2).length else e.tensor.rows
    if rows ≤ e.w.pos then
      ((s.rangeError e (e.base s + e.w.pos * e.tensor.rowStride) 0 (natWord e.w.pos)).putV e.c e.ins.dst
        (List.replicate e.portWidth nan32), e.portWidth)
    else
      let x := e.load s e.w.pos (if e.onSlot then 0 else e.col) e.portWidth
      (x.2.putV e.c e.ins.dst x.1, e.portWidth)

/-- ST: lanes to the current row of a port, rounded or quantised (R127, R130, R141). -/
def execSt (core : Fin 48) (s : State) : Host.Outcome State Fault Refusal :=
  s.chainStep core 0x04 fun e s =>
    let a := e.lanes s e.portWidth e.ins.sa
    let n := if e.ins.imm = 0 then a.1.length else e.ins.imm
    let s1 := s.poisonRow e a.2
    (e.store s1 e.column e.ins.fmt (a.1.take n), if blockSize e.ins.fmt = 0 then a.1.length else 2 * a.1.length)

/-- LDQ: one element of the current row of a port (R127). -/
def execLdq (core : Fin 48) (s : State) : Host.Outcome State Fault Refusal :=
  s.chainStep core 0x05 fun e s =>
    let x := e.load s (if e.onSlot then e.m else e.w.i) e.ins.imm 1
    (x.2.putScalar e e.ins.dst (x.1.headD 0), 16)

/-- STQ: one element of the current row of a port, in the port's format (R127). -/
def execStq (core : Fin 48) (s : State) : Host.Outcome State Fault Refusal :=
  s.chainStep core 0x06 fun e s =>
    let a := e.scalar s e.ins.sa
    (e.store (s.poisonRow e a.2) e.ins.imm e.tensor.fmt [a.1], 16)

/-! ### Arithmetic -/

/-- A lanewise or scalar instruction of the sources `as` (R126 to R128): scalar when its destination is no V register. -/
def ChainEnv.arith (e : ChainEnv) (as : List Nat) (f : List Word → Word) (s : State) : State × Nat :=
  if e.ins.dst < 16 then
    let n := e.laneWidth as
    let xs := as.map (e.lanes s n)
    ((s.poisonRow e (xs.any (·.2))).putV e.c e.ins.dst ((List.range n).map fun i => f (xs.map fun l => l.1.getD i 0)), n)
  else
    let xs := as.map (e.scalar s)
    ((s.poisonRow e (xs.any (·.2))).putScalar e e.ins.dst (f (xs.map (·.1))), 16)

/-- A one-operand instruction. -/
def ChainEnv.unary (e : ChainEnv) (f : Word → Word) (s : State) : State × Nat :=
  e.arith [e.ins.sa] (fun l => f (l.getD 0 0)) s

/-- A two-operand instruction. -/
def ChainEnv.binary (e : ChainEnv) (f : Word → Word → Word) (s : State) : State × Nat :=
  e.arith [e.ins.sa, e.ins.sb] (fun l => f (l.getD 0 0) (l.getD 1 0)) s

/-- A three-operand instruction. -/
def ChainEnv.ternary (e : ChainEnv) (f : Word → Word → Word → Word) (s : State) : State × Nat :=
  e.arith [e.ins.sa, e.ins.sb, e.ins.sc] (fun l => f (l.getD 0 0) (l.getD 1 0) (l.getD 2 0)) s

/-- ADD (R127). -/
def execAdd (core : Fin 48) (s : State) : Host.Outcome State Fault Refusal := s.chainStep core 0x10 fun e => e.binary fAdd
/-- SUB (R127). -/
def execSub (core : Fin 48) (s : State) : Host.Outcome State Fault Refusal := s.chainStep core 0x11 fun e => e.binary fSub
/-- MUL (R127). -/
def execMul (core : Fin 48) (s : State) : Host.Outcome State Fault Refusal := s.chainStep core 0x12 fun e => e.binary fMul
/-- FMA (R127). -/
def execFma (core : Fin 48) (s : State) : Host.Outcome State Fault Refusal := s.chainStep core 0x13 fun e => e.ternary fFma
/-- MAX (R127, R128). -/
def execMax (core : Fin 48) (s : State) : Host.Outcome State Fault Refusal := s.chainStep core 0x14 fun e => e.binary fMax
/-- MIN (R127, R128). -/
def execMin (core : Fin 48) (s : State) : Host.Outcome State Fault Refusal := s.chainStep core 0x15 fun e => e.binary fMin
/-- NEG (R127, R128). -/
def execNeg (core : Fin 48) (s : State) : Host.Outcome State Fault Refusal := s.chainStep core 0x16 fun e => e.unary fNeg
/-- ABS (R127, R128). -/
def execAbs (core : Fin 48) (s : State) : Host.Outcome State Fault Refusal := s.chainStep core 0x17 fun e => e.unary fAbs
/-- SEL (R127, R128). -/
def execSel (core : Fin 48) (s : State) : Host.Outcome State Fault Refusal := s.chainStep core 0x18 fun e => e.ternary fSel
/-- CGT (R127, R128). -/
def execCgt (core : Fin 48) (s : State) : Host.Outcome State Fault Refusal := s.chainStep core 0x19 fun e => e.binary fCgt
/-- CGE (R127, R128). -/
def execCge (core : Fin 48) (s : State) : Host.Outcome State Fault Refusal := s.chainStep core 0x1A fun e => e.binary fCge
/-- CEQ (R127, R128). -/
def execCeq (core : Fin 48) (s : State) : Host.Outcome State Fault Refusal := s.chainStep core 0x1B fun e => e.binary fCeq
/-- EXP (R129). -/
def execExp (core : Fin 48) (s : State) : Host.Outcome State Fault Refusal := s.chainStep core 0x20 fun e => e.unary fExp
/-- EXP2 (R129). -/
def execExp2 (core : Fin 48) (s : State) : Host.Outcome State Fault Refusal := s.chainStep core 0x21 fun e => e.unary fExp2
/-- LOG2 (R129). -/
def execLog2 (core : Fin 48) (s : State) : Host.Outcome State Fault Refusal := s.chainStep core 0x22 fun e => e.unary fLog2
/-- RSQRT (R129). -/
def execRsqrt (core : Fin 48) (s : State) : Host.Outcome State Fault Refusal := s.chainStep core 0x23 fun e => e.unary fRsqrt
/-- RCP (R129). -/
def execRcp (core : Fin 48) (s : State) : Host.Outcome State Fault Refusal := s.chainStep core 0x24 fun e => e.unary fRcp

/-- PERM in one of its modes (R127). -/
def State.perm (s : State) (c mode : Nat) (f : Nat → List Word → List Word) : Host.Outcome State Fault Refusal :=
  match s.chainEnv c 0x1C with
  | none => .next s
  | some e =>
    if e.ins.mode ≠ mode then .next s
    else
      let a := e.lanes s (e.laneWidth [e.ins.sa]) e.ins.sa
      .next (((s.poisonRow e a.2).putV c e.ins.dst (f e.ins.imm a.1)).stepChain c a.1.length false)

/-- PERM, rotate-half (R127). -/
def execPermRotateHalf (core : Fin 48) (s : State) : Host.Outcome State Fault Refusal := s.perm core 0 rotateHalf

/-- PERM, pair swap (R127). -/
def execPermPairSwap (core : Fin 48) (s : State) : Host.Outcome State Fault Refusal := s.perm core 1 fun _ => pairSwap

/-! ### Reductions, selection and stage ends -/

/-- A row reduction: one value per row to a T register or a statistic field (R126, R128). -/
def ChainEnv.reduce (e : ChainEnv) (f : List Word → Word) (s : State) : State × Nat :=
  let a := sget [] e.r.v (e.ins.sa % 16)
  (s.putScalar e e.ins.dst (f a), a.length)

/-- RSUM (R128). -/
def execRsum (core : Fin 48) (s : State) : Host.Outcome State Fault Refusal := s.chainStep core 0x30 fun e => e.reduce rSum
/-- RMAX (R128). -/
def execRmax (core : Fin 48) (s : State) : Host.Outcome State Fault Refusal := s.chainStep core 0x31 fun e => e.reduce rMax
/-- RMIN (R128). -/
def execRmin (core : Fin 48) (s : State) : Host.Outcome State Fault Refusal := s.chainStep core 0x32 fun e => e.reduce rMin
/-- RSSQ (R128). -/
def execRssq (core : Fin 48) (s : State) : Host.Outcome State Fault Refusal := s.chainStep core 0x33 fun e => e.reduce rSsq

/-- α of R138 from the old and the new maximum. -/
def osmAlpha (old new : Word) : Word :=
  if old = negInf32 ∨ (val32 new).eqv (val32 old) then one32 else fExp (fSub old new)

/-- OSM: the running maximum in SB is updated and α goes to DST (R138). -/
def execOsm (core : Fin 48) (s : State) : Host.Outcome State Fault Refusal :=
  s.chainStep core 0x38 fun e s =>
    let a := sget [] e.r.v (e.ins.sa % 16)
    let old := e.scalar s e.ins.sb
    let new := fMax old.1 (rMax a)
    let al := osmAlpha old.1 new
    let s1 := ((s.poisonRow e old.2).putScalar e e.ins.sb new).putScalar e e.ins.dst al
    (if al = one32 then s1 else s1.count48 (.vec e.c) 0x48 1, a.length)

/-- −1 as FP32. -/
def negOne32 : Word := 0xBF800000

/-- Lanes filled up to n. -/
def fillLanes (n : Nat) (x : Word) (l : List Word) : List Word := l ++ List.replicate (n - l.length) x

/-- TOPK in one of its orders (R139). -/
def State.topk (s : State) (c : Nat) (smallest : Bool) : Host.Outcome State Fault Refusal :=
  match s.chainEnv c 0x40 with
  | none => .next s
  | some e =>
    if bitOf e.ins.mode 0 != smallest then .next s
    else
      let k := e.ins.imm % 128
      let a := sget [] e.r.v (e.ins.sa % 16)
      let own := ((List.range a.length).zip a).map fun p => (p.2, natWord (e.col + p.1))
      let merge := bitOf e.ins.mode 1
      let held := if merge && e.col != 0 then
          ((sget [] e.r.v (e.ins.sb % 16)).take k).zip ((sget [] e.r.v (e.ins.sc % 16)).take k)
        else []
      let best := topK smallest k (own ++ held)
      let vals := fillLanes a.length (if smallest then posInf32 else negInf32) (best.map (·.1))
      let idxs := fillLanes a.length negOne32 (best.map (·.2))
      .next (((s.putV c e.ins.dst vals).putV c (e.ins.dst + 1) idxs).stepChain c
        (if merge then 4 * (a.length + k) else 4 * a.length) false)

/-- TOPK of the largest values. -/
def execTopkLargest (core : Fin 48) (s : State) : Host.Outcome State Fault Refusal := s.topk core false

/-- TOPK of the smallest values. -/
def execTopkSmallest (core : Fin 48) (s : State) : Host.Outcome State Fault Refusal := s.topk core true

/-- A lane value as an element index: a whole number that is not negative. -/
def asIndex (w : Word) : Option Nat :=
  match val32 w with
  | .fin neg m e =>
    if m = 0 then some 0
    else if neg then none
    else if 0 ≤ e then some (m * 2 ^ e.toNat)
    else if m % 2 ^ (-e).toNat = 0 then some (m / 2 ^ (-e).toNat)
    else none
  | _ => none

/-- Add 1 to one element of a count row; an index outside the tensor drops the increment (R140, R144). -/
def State.countOne (s : State) (e : ChainEnv) (row : Nat) (lane : Word) : State :=
  match asIndex lane with
  | none => s.rangeError e row 1 lane
  | some i =>
    if e.tensor.elems ≤ i then s.rangeError e row 1 lane
    else
      let a := row + 4 * i
      let old := (s.peekWords a 1).headD ⟨0, false⟩
      (s.noteWords (unitCore e.c vecSub) (St.islCore e.c) a 1 (s.coreCtx e.c)).putWords a [⟨old.bits + 1, old.poison⟩]

/-- SELCNT: counts in the tile's row; a poisoned row poisons the whole of it (R140, R142). -/
def execSelcnt (core : Fin 48) (s : State) : Host.Outcome State Fault Refusal :=
  s.chainStep core 0x41 fun e s =>
    let k := e.ins.imm % 128
    let row := e.base s + e.r.op.tile * e.tensor.rowStride
    let s1 := ((sget [] e.r.v (e.ins.sa % 16)).take k).foldl (fun s w => s.countOne e row w) s
    (if s.rowPoisoned e.c then s1.poisonRange row e.tensor.elems else s1, 16 * k)

/-- STG: each V register of the mask is rounded to the stage's format (R131). -/
def execStg (core : Fin 48) (s : State) : Host.Outcome State Fault Refusal :=
  s.chainStep core 0x70 fun e s =>
    let regs := (List.range 16).filter fun i => bitOf e.ins.imm i
    (regs.foldl (fun s i => s.putV e.c i ((sget [] e.r.v i).map (stageLane (elemOf e.ins.fmt)))) s,
      (regs.map fun i => (sget [] e.r.v i).length).sum)

/-- END: the body is over for this chunk or row (R127, R133). -/
def execEnd (core : Fin 48) (s : State) : Host.Outcome State Fault Refusal :=
  match s.chainEnv core 0x7F with
  | none => .next s
  | some _ => .next (s.stepChain core 0 true)

end Sys2Proof.Machine
end

