-- ==== Sys2Proof/Machine/Streams.lean ====
section
/-! DEFINITION. Streams (R175 to R189, R195), Mule transfers (R190, R191), and the loads and stores of threads (R149, R164 to R166). -/

namespace Sys2Proof.Machine

/-! ### The streams of a core -/

/-- A stream context of a core. -/
def CoreState.stream (x : CoreState) (k : Nat) : Option StreamCtx := (x.streams.find? (·.1 == k)).map (·.2)

/-- A core with one stream context replaced or added. -/
def CoreState.setStream (x : CoreState) (k : Nat) (v : StreamCtx) : CoreState :=
  { x with streams := x.streams.filter (·.1 != k) ++ [(k, v)] }

/-- Change a stream context of core c. -/
def State.modStream (s : State) (c k : Nat) (f : StreamCtx → StreamCtx) : State :=
  s.modCore c fun x => { x with streams := x.streams.map fun e => if e.1 = k then (k, f e.2) else e }

/-- The unit of the stream engine in records (R364). -/
def strSub : Nat := 0x11

/-- The context that owns a stream. -/
def StreamCtx.owner (s : State) (st : StreamCtx) : Nat := ((s.ctx st.slot).map (·.id)).getD 0xFFFF

/-- The lowest free tag of a core (R184). -/
def CoreState.freeTag (x : CoreState) : Option Nat :=
  let used := x.streams.flatMap fun e => e.2.segs.map (·.tag)
  (List.range 256).find? fun t => !used.contains t

/-- The lowest free stream context of a core (R176). -/
def CoreState.freeStream (x : CoreState) : Option Nat := (List.range 64).find? fun k => (x.stream k).isNone

/-- Wake the threads that wait for a stream context or a Mule slot (R209), counting what they waited (R176): how many cycles is not in the
model. -/
def State.wakeFor (s : State) (c kind obj : Nat) : State :=
  match (List.range 16).find? fun t => ((s.core c).thread t).watch.any fun w => w.kind == kind && (w.obj == obj || w.obj == 0x3F) with
  | some t => ((s.count48 (.str c) 0x50 (s.nextFree % 2 ^ 48)).drawFree).fire c t wmMet
  | none => s

/-- Bytes that the running command of a slot has written in stacked SRAM or LPDDR5X (R373). -/
def State.noteWrote (s : State) (k a n : Nat) : State :=
  match regionOf a with
  | .lpddr | .home | .pool =>
    s.modCtx k fun x =>
      if x.wrote.any fun r => decide (r.1 ≤ a ∧ a + n ≤ r.1 + r.2) then x
      else match x.wrote.reverse with
        | (b, m) :: t => if b + m = a then { x with wrote := (((b, m + n)) :: t).reverse } else { x with wrote := x.wrote ++ [(a, n)] }
        | [] => { x with wrote := [(a, n)] }
  | _ => s

/-- A stream is over (R187, R188): it signals `DONE_BAR`, its context is freed or, persistent, kept, and its failure goes to its tile. -/
def State.endStream (s : State) (c k : Nat) (st : StreamCtx) : State :=
  let s1 := match st.failed with
    | some f => if f = St.streamIndexPoisoned then s else s.failTile c st.unit f
    | none => s
  let s2 := s1.modCore c fun x =>
    if st.persist then { x with streams := x.streams.map fun e => if e.1 = k then (k, { e.2 with running := false, halted := none }) else e }
    else { x with streams := x.streams.filter (·.1 != k) }
  ((s2.signalDone c st.doneBar st.failed).wakeFor c 2 k).closeOp c st.unit

/-- Every entry of a stream has been issued (R187). -/
def StreamCtx.issued (st : StreamCtx) : Bool := decide (st.entries.length ≤ st.entry)

/-- End a stream that has nothing left in flight and nothing to issue, or that has failed. -/
def State.endIfOver (s : State) (c k : Nat) : State :=
  match (s.core c).stream k with
  | some st => if st.running && st.segs.isEmpty && (st.issued || st.failed.isSome) then s.endStream c k st else s
  | none => s

/-- A stream fails (R188): it issues no more, and STREAM_ERR is set. A poisoned index taints its tile (R180). -/
def State.failStream (s : State) (c k st : Nat) (taint : List Nat) : State :=
  match (s.core c).stream k with
  | none => s
  | some x =>
    ((s.modStream c k fun y => { y with failed := some (y.failed.getD st), halted := none }).ror (.str c) 4 4).taintTile c x.unit taint

/-! ### Addresses of a stream -/

/-- Where a side of a stream lies: a local address of this device, an address of a peer, a page that faults, or a refusal. -/
inductive Place where
  | here (addr : Nat)
  | peer (dev addr : Nat)
  | fault (page : Nat)
  | fails (status : Nat)
deriving DecidableEq, Repr

/-- The refusal of an access to a peer that the issuing device itself knows of (R151), or that no path reaches (R253). -/
def State.peerRefusal (s : State) (write : Bool) (dev a n : Nat) : Option Nat :=
  let region := fun a => match regionOf a with
    | .reg | .kvTable | .redWin => true
    | .accum _ => write
    | _ => false
  if !bitOf s.grp.members dev || decide (s.grp.size ≤ dev) then some St.addrDeviceAbsent
  else if region a || region (a + n - 1) then some St.addrNotPermitted
  else if (s.hop dev none).isNone then some St.linkUnreachable
  else none

/-- Where n bytes of a tier's address lie (R87, R149, R151, R168). -/
def State.place (s : State) (c owner tier : Nat) (write : Bool) (a n : Nat) : Place × State :=
  let local_ := fun a => match s.refusalRange write a n with
    | some st => Place.fails st
    | none => .here a
  match tier with
  | 3 =>
    match s.translate c owner write a with
    | (.at_ b, s1) => (.here b, s1)
    | (.fault p, s1) => (.fault p, s1)
    | (.fails st, s1) => (.fails st, s1)
  | 4 =>
    let dev := a / 2 ^ 48 % 64
    let b := a % 2 ^ 48
    if dev = s.devIndex then (local_ b, s)
    else match s.peerRefusal write dev b n with
      | some st => (.fails st, s)
      | none => (.peer dev b, s)
  | _ => (local_ a, s)

/-- The record of a refused access (R148, R149, R151, R188): a CONFIG record that names the core's unit and the address, or the router's record
of an unreachable device. -/
def State.refusedRec (s : State) (c sub st addr : Nat) : State :=
  if st = St.linkUnreachable then s.unreachRec (addr / 2 ^ 48 % 64) else s.raiseCore c sub St.clsConfig st addr 0

/-! ### Issue -/

/-- S_i and D_i of block i (R179). -/
def StreamCtx.block_ (st : StreamCtx) (e : BlEntry) : Nat × Nat :=
  let i := st.block
  let x := (st.idx.getD []).getD i 0
  ((if e.kind = 0 then e.srcOff else if e.kind = 2 then e.srcOff + x * e.srcStride else e.srcOff + i * e.srcStride),
   (if e.kind = 0 then e.dstOff else if e.kind = 3 then e.dstOff + x * e.dstStride else e.dstOff + i * e.dstStride))

/-- Blocks of an entry (R179). -/
def StreamCtx.blocks (st : StreamCtx) (e : BlEntry) : Nat :=
  match e.kind with
  | 0 => 1
  | 2 => (st.idx.getD []).length
  | 3 => (st.idx.getD []).length
  | _ => e.count

/-- The length of the next segment (R183). -/
def StreamCtx.segLen (st : StreamCtx) (e : BlEntry) (src dst : Nat) : Nat :=
  let a := min (e.len - st.off) (2048 - src % 2048)
  if st.dstTier = 3 then min a (frameBytes - dst % frameBytes) else a

/-- `STREAM_INDEX_RANGE` (R180, R366): its record when RANGE_REPORT is set, and the failure. -/
def State.indexRange (s : State) (c k : Nat) (st : StreamCtx) (sel block : Nat) : State :=
  let s1 := if bitOf (s.rforce (.str c) 8).toNat 17 then
      s.raiseCore c strSub St.clsConfig St.streamIndexRange (st.idxBase.getD 0) (k + put sel 6 1 + put st.entry 8 12 + put block 20 32)
    else s
  s1.failStream c k St.streamIndexRange []

/-- Read the index row of an entry of kind 2 or 3 (R180). What an index row on a peer holds is not known here. -/
def State.readIndex (s : State) (c k : Nat) (st : StreamCtx) (e : BlEntry) : State :=
  let base := st.idxBase.getD 0
  if 2 ^ 48 ≤ base ∧ base / 2 ^ 48 ≠ s.devIndex then
    let n := s.nextFree % (e.count + 1)
    let xs := (List.range n).map fun i => Config.free (s.freeCtr + 1 + i) % max (if e.kind = 2 then st.srcRows else st.dstRows) 1
    { s with freeCtr := s.freeCtr + 1 + n }.modStream c k fun y => { y with idx := some xs }
  else
    let a := base % 2 ^ 48
    let note := fun (s : State) n => s.noteWords (unitOfAddr a) (islandOfAddr a) a n (s.coreCtx c)
    let w := (s.peekWords a 1).headD ⟨0, false⟩
    if w.poison then (note s 1).failStream c k St.streamIndexPoisoned [a]
    else if w.bits.toInt < 0 ∨ e.count < w.bits.toNat then (note s 1).indexRange c k st 0 0
    else
      let n := w.bits.toNat
      let bad := s.poisonAddrs (a + 4) n
      let s1 := note s (n + 1)
      if !bad.isEmpty then s1.failStream c k St.streamIndexPoisoned bad
      else s1.modStream c k fun y => { y with idx := some ((s.peekWords (a + 4) n).map (·.bits.toNat)) }

/-- The flits of words sent to a device, 64 a flit (R239). -/
def wordFlits (ftype vc dst src tid aux : Nat) : Nat → Nat → List PWord → List Flit
  | 0, _, _ => []
  | fuel + 1, addr, ws =>
    if ws.length ≤ 64 then [⟨ftype, vc, true, dst, src, addr, tid, aux, ws⟩]
    else ⟨ftype, vc, false, dst, src, addr, tid, aux, ws.take 64⟩ :: wordFlits ftype vc dst src tid aux fuel (addr + 256) (ws.drop 64)

/-- Send flits in order. -/
def State.sendFlits (s : State) (sel : Bool) (fs : List Flit) : State := fs.foldl (fun s f => s.sendFlit none sel f) s

/-- A READ of n words at a peer, for a destination address here (R239). -/
def State.readFlit (s : State) (vc dev addr n tid to_ : Nat) : Flit :=
  ⟨2, vc, true, dev, s.devIndex, addr, tid, n - 1, (words64 to_).map fun w => ⟨w, false⟩⟩

/-- Issue one segment (R183): its source is read, or asked of the peer that holds it; words bound for a peer leave at once. A poisoned word
taints the tile (R189, R372). -/
def State.issueSegment (s : State) (c k tag : Nat) (st : StreamCtx) (src dst : Place) (srcOff n : Nat) : State :=
  let tid := tag + 256 * c
  let sel := bitOf srcOff 11
  let add := fun (s : State) (g : Segment) => s.modStream c k fun y => { y with segs := y.segs ++ [g] }
  match src, dst with
  | .here a, .here b =>
    let ws := s.peekWords a (n / 4)
    let s1 := (s.noteWords (unitOfAddr a) (islandOfAddr a) a (n / 4) (s.coreCtx c)).taintTile c st.unit (s.poisonAddrs a (n / 4))
    add s1 ⟨tag, s.devIndex, a, s.devIndex, b, n / 4, ws, n / 4, 0⟩
  | .here a, .peer d b =>
    let ws := s.peekWords a (n / 4)
    let s1 := (s.noteWords (unitOfAddr a) (islandOfAddr a) a (n / 4) (s.coreCtx c)).taintTile c st.unit (s.poisonAddrs a (n / 4))
    (add s1 ⟨tag, s.devIndex, a, d, b, n / 4, ws, n / 4, 0⟩).sendFlits sel (wordFlits 1 2 d s.devIndex tid 0 (n + 1) b ws)
  | .peer d a, .here b =>
    (add s ⟨tag, d, a, s.devIndex, b, n / 4, [], 0, 0⟩).sendFlit none sel (s.readFlit 2 d a (n / 4) tid b)
  | .peer d a, .peer e b =>
    (add s ⟨tag, d, a, e, b, n / 4, [], 0, 0⟩).sendFlit none sel (s.readFlit 2 d a (n / 4) tid 0)
  | _, _ => s

/-- A stream halts on a page (R192). -/
def State.haltStream (s : State) (c k p : Nat) (st : StreamCtx) : State :=
  let s1 := s.modStream c k fun y => { y with halted := some p, haltAge := 0 }
  let s2 := s1.rset (.str c) 0x14 (BitVec.ofNat 32 (put k 0 6 + put st.thread 8 4 + 2 ^ 31))
  (s2.rset (.str c) 0x18 (BitVec.ofNat 32 (put p 0 18))).count48 (.str c) 0x38 1

/-- What a stream does next. -/
inductive StreamStep where
  | stop
  | next (s : State)

/-- Try to issue the stream's next segment, or to move past a block or an entry (R179 to R184, R188, R192). -/
def State.streamStep (s : State) (c k : Nat) : StreamStep :=
  match (s.core c).stream k with
  | none => .stop
  | some st =>
    if !st.running || st.halted.isSome || st.failed.isSome || (s.core c).fenced then .stop
    else
      match st.entries[st.entry]? with
      | none => .stop
      | some e =>
        let nextBlock := fun (s : State) => s.modStream c k fun y =>
          { y with block := y.block + 1, off := 0, position := y.position + (e.len - st.off) }
        if (e.kind = 2 ∨ e.kind = 3) ∧ st.idx.isNone then .next (s.readIndex c k st e)
        else if st.blocks e ≤ st.block then
          .next (s.modStream c k fun y => { y with entry := y.entry + 1, block := 0, off := 0, idx := none })
        else
          let (so, d0) := st.block_ e
          let mapBit := so / max e.len 1
          let mapAddr := st.mapBase.getD 0 % 2 ^ 48 + 4 * (mapBit / 32)
          let mw := (s.peekWords mapAddr 1).headD ⟨0, false⟩
          let x := (st.idx.getD []).getD st.block 0
          let rows := if e.kind = 2 then st.srcRows else st.dstRows
          if e.kind = 4 ∧ st.off = 0 ∧ mw.poison then
            .next ((s.noteWords (unitOfAddr mapAddr) (islandOfAddr mapAddr) mapAddr 1 (s.coreCtx c)).failStream c k St.streamIndexPoisoned [mapAddr])
          else if e.kind = 4 ∧ st.off = 0 ∧ !bitOf mw.bits.toNat (mapBit % 32) then .next (nextBlock (s.count48 (.str c) 0x30 1))
          else if (e.kind = 2 ∨ e.kind = 3) ∧ (2 ^ 31 ≤ x ∨ rows ≤ x) then .next (s.indexRange c k st 1 st.block)
          else
            let src := st.srcBase + so + st.off
            let dst := st.dstBase + d0 + st.off
            let n := st.segLen e src dst
            match (s.core c).freeTag with
            | none => .stop
            | some tag =>
              if st.tagCnt ≤ st.segs.length then .stop
              else
                let fails := fun (s : State) (f : Nat) (a : Nat) => StreamStep.next ((s.refusedRec c strSub f a).failStream c k f [])
                match s.place c (StreamCtx.owner s st) st.srcTier false src n with
                | (.fault p, s1) => .next (s1.haltStream c k p st)
                | (.fails f, s1) => fails s1 f src
                | (ps, s1) =>
                  match s1.place c (StreamCtx.owner s st) st.dstTier true dst n with
                  | (.fault p, s2) => .next (s2.haltStream c k p st)
                  | (.fails f, s2) => fails s2 f dst
                  | (pd, s2) =>
                    let s3 := s2.issueSegment c k tag st ps pd src n
                    if st.off + n = e.len then .next (s3.modStream c k fun y => { y with block := y.block + 1, off := 0, position := y.position + n })
                    else .next (s3.modStream c k fun y => { y with off := y.off + n, position := y.position + n })

/-- Issue every segment that a stream can issue now, at most `fuel` steps. -/
def State.pumpStream (c k : Nat) : Nat → State → State
  | 0, s => s
  | fuel + 1, s =>
    match s.streamStep c k with
    | .stop => s
    | .next s1 => State.pumpStream c k fuel s1

/-- Steps that the issue of a stream can take at once: its entries and blocks, and a segment for each tag. -/
def StreamCtx.fuel (st : StreamCtx) : Nat := (st.entries.map fun e => e.count + 3).sum + 300

/-- Issue what a stream can issue, and end it when it is over. -/
def State.runStream (s : State) (c k : Nat) : State :=
  match (s.core c).stream k with
  | none => s
  | some st => (State.pumpStream c k st.fuel s).endIfOver c k

/-- The fields of a STREAM record (R175). -/
structure StreamRec where
  persist : Bool
  srcT : Nat
  dstT : Nat
  idxT : Nat
  mapT : Nat
  doneBar : Nat
  stepLoop : Nat
  tagCnt : Nat
  blOff : Nat
  srcStep : Nat
  dstStep : Nat

/-- The STREAM record of an operation, if it is one. -/
def OpRec.stream? (o : OpRec) : Option StreamRec :=
  match o.body with
  | .stream p st dt it mt db sl tc bl ss ds => some ⟨p, st, dt, it, mt, db, sl, tc, bl, ss, ds⟩
  | _ => none

/-- The index of the loop that scales the steps (R175). -/
def OpCtx.stepIdx (o : OpCtx) (stepLoop : Nat) : Nat :=
  if stepLoop = 0 then 0 else ((o.run.prog.loops[stepLoop - 1]?).map fun l => o.at_.2.get l.kind).getD 0

/-- Arm a stream (R175, R195): bases anew and position zero. -/
def State.armed (s : State) (c u t : Nat) (o : OpCtx) (q : StreamRec) (entries : List BlEntry) : StreamCtx :=
  let j := o.stepIdx q.stepLoop
  { thread := t, unit := u, slot := o.slot, prog := o.run.index, op := o.at_.1, persist := q.persist, running := true
    doneBar := q.doneBar, tagCnt := q.tagCnt, srcTier := (o.tensor q.srcT).tier, dstTier := (o.tensor q.dstT).tier
    srcBase := o.base s c q.srcT + q.srcStep * j, dstBase := o.base s c q.dstT + q.dstStep * j
    idxBase := if q.idxT = 0x3F then none else some (o.base s c q.idxT + o.at_.2.g * (o.tensor q.idxT).rowStride)
    mapBase := if q.mapT = 0x3F then none else some (o.base s c q.mapT)
    srcRows := (o.tensor q.srcT).rows, dstRows := (o.tensor q.dstT).rows, entries := entries, entry := 0, block := 0, off := 0
    position := 0, idx := none, segs := [], halted := none, haltAge := 0, failed := none }

/-- The persistent stream that a record armed before in the same command context (R195). -/
def CoreState.kept (x : CoreState) (o : OpCtx) : Option (Nat × StreamCtx) :=
  x.streams.find? fun e => e.2.persist && e.2.slot == o.slot && e.2.prog == o.run.index && e.2.op == o.at_.1

/-- Issue a STREAM (R175, R176, R195). -/
def State.issueStream (s : State) (c u t : Nat) : State :=
  match s.nextOp c u t with
  | none => s
  | some o =>
    match o.rcd.stream? with
    | none => s
    | some q =>
      let x := s.core c
      let start := fun (k : Nat) (es : List BlEntry) =>
        (((s.modCore c fun y => y.setStream k (s.armed c u t o q es)).advance c u t).openOp c u).runStream c k
      match if q.persist then x.kept o else none with
      | some (k, st) => if st.running then s.register c t 2 k 0 false false u else start k st.entries
      | none =>
        match x.freeStream with
        | none => s.register c t 2 0x3F 0 false false u
        | some k => start k (s.blockList o.run.blBase q.blOff)

/-- A STREAM record. -/
def execStream (core : Fin 48) (unit : Fin 8) (thread : Fin 16) (s : State) : Host.Outcome State Fault Refusal :=
  settled (s.issueStream core unit thread)

/-! ### Completion of segments -/

/-- A segment of a stream is over: its tag is free, and the stream goes on, or fails with a status (R187, R188). -/
def State.closeSegment (s : State) (c k : Nat) (g : Segment) (status : Nat) : State :=
  let s1 := s.modStream c k fun y => { y with segs := y.segs.filter (·.tag != g.tag) }
  let s2 := if status = St.ok then (s1.count48 (.str c) 0x20 (4 * g.n)).count48 (.str c) 0x28 1 else s1.failStream c k status []
  s2.runStream c k

/-- The write of a segment is acknowledged (R187): a destination here is written now; words still to come from a peer leave it open. -/
def State.ackSegment (s : State) (c k tag status : Nat) : State :=
  match (s.core c).stream k with
  | none => s
  | some st =>
    match st.segs.find? (·.tag == tag) with
    | none => s
    | some g =>
      if status ≠ St.ok then s.closeSegment c k g status
      else if g.got < g.n then s
      else
        let s1 := if g.dstDev = s.devIndex ∧ g.srcDev = s.devIndex then s.putWords g.dstAddr g.words else s
        let s2 := if g.dstDev = s.devIndex then s1.noteWrote st.slot g.dstAddr (4 * g.n) else s1
        s2.closeSegment c k g St.ok

/-- A segment's write is acknowledged at its destination; `status` is the failure that came instead (R187, R188). -/
def execSegmentAcknowledged (core : Fin 48) (ctx : Fin 64) (tag : Fin 256) (status : Nat) (s : State) :
    Host.Outcome State Fault Refusal :=
  settled (s.ackSegment core ctx tag status)

/-- A segment has been unacknowledged for SEG_TIMEOUT (R188): a TIMEOUT record and the failure of its stream. -/
def State.streamTimedOut (s : State) (c k : Nat) : State :=
  match (s.core c).stream k with
  | none => s
  | some st =>
    match st.segs with
    | [] => s
    | g :: _ =>
      let a := if g.srcDev = s.devIndex then g.dstDev * 2 ^ 48 + g.dstAddr else g.srcDev * 2 ^ 48 + g.srcAddr
      ((s.raiseCore c strSub St.clsTimeout St.streamTimeout a k).modStream c k fun y => { y with segs := [] }).failStream c k
        St.streamTimeout [] |>.endIfOver c k

/-- SEG_TIMEOUT passes for the oldest segment of a stream. -/
def execStreamTimeout (core : Fin 48) (ctx : Fin 64) (s : State) : Host.Outcome State Fault Refusal :=
  settled (s.streamTimedOut core ctx)

/-- The fault limit of a halted stream passes (R192). -/
def State.faultLimit (s : State) (c k : Nat) : State :=
  match (s.core c).stream k with
  | none => s
  | some st =>
    match st.halted with
    | none => s
    | some p =>
      ((s.raiseCore c strSub St.clsTimeout St.kvPageUnavailable (2 ^ 63 + p * frameBytes) k).failStream c k St.kvPageUnavailable []).endIfOver
        c k

/-- FAULT_LIMIT passes for a halted stream. -/
def execFaultLimit (core : Fin 48) (ctx : Fin 64) (s : State) : Host.Outcome State Fault Refusal := settled (s.faultLimit core ctx)

/-! ### Mule transfers -/

/-- The fields of a Mule record (R190). -/
structure MuleRec where
  op : Nat
  srcT : Nat
  dstT : Nat
  doneBar : Nat
  stepLoop : Nat
  arg : Nat
  srcStep : Nat
  dstStep : Nat

/-- The Mule record of an operation, if it is one. -/
def OpRec.mule? (o : OpRec) : Option MuleRec :=
  match o.body with
  | .mule m st dt db sl a ss ds => some ⟨m, st, dt, db, sl, a, ss, ds⟩
  | _ => none

/-- A Mule transfer of a core. -/
def CoreState.mule (x : CoreState) (i : Nat) : Option MuleSlot := (x.mules.find? (·.1 == i)).map (·.2)

/-- PUT32 or ADD32 applied to a word here (R190, R191): ADD32 keeps a poison marker. -/
def State.applyWord (s : State) (add : Bool) (a : Nat) (w : PWord) : State :=
  if add then
    let old := (s.peekWords a 1).headD ⟨0, false⟩
    (s.noteWords (unitOfAddr a) (islandOfAddr a) a 1).putWords a [⟨old.bits + w.bits, old.poison || w.poison⟩]
  else s.putWords a [w]

/-- Apply or send the Mule transfers of core c to device `dev` that are ready, in issue order (R191). -/
def State.sendMules (c dev : Nat) : List (Nat × MuleSlot) → State → State
  | [], s => s
  | (i, m) :: rest, s =>
    if m.dstDev ≠ dev ∨ m.sent ∨ m.failed.isSome then State.sendMules c dev rest s
    else if m.need ≠ 0 then s
    else
      let s1 := s.modCore c fun x => { x with mules := x.mules.map fun e => if e.1 = i then (i, { e.2 with sent := true }) else e }
      let tid := i + 256 * c
      let s2 :=
        if dev = s.devIndex then
          (if m.op = 0 then s1.putWords m.dstAddr m.words else s1.applyWord (m.op == 2) m.dstAddr (m.words.headD ⟨0, false⟩))
        else if m.op = 0 then s1.sendFlits false (wordFlits 1 3 dev s.devIndex tid 0 (m.words.length + 1) m.dstAddr m.words)
        else s1.sendFlit none false ⟨5, 3, true, dev, s.devIndex, m.dstAddr, tid, b01 (m.op == 2), m.words⟩
      State.sendMules c dev rest s2

/-- Issue a Mule transfer of operation `op` (R190). -/
def State.issueMule (s : State) (op c u t : Nat) : State :=
  match s.nextOp c u t with
  | none => s
  | some o =>
    match o.rcd.mule? with
    | none => s
    | some q =>
      if q.op ≠ op then s
      else
        match (List.range 16).find? fun i => ((s.core c).mule i).isNone with
        | none => s.register c t 3 0x3F 0 false false u
        | some i =>
          let j := o.stepIdx q.stepLoop
          let n := if op = 0 then q.arg else 4
          let owner := ((s.ctx o.slot).map (·.id)).getD 0xFFFF
          let src := if op = 0 then (s.place c owner (o.tensor q.srcT).tier false (o.base s c q.srcT + q.srcStep * j) n).1 else .here 0
          let dstA := o.base s c q.dstT + q.dstStep * j
          let dst := (s.place c owner (o.tensor q.dstT).tier true dstA n).1
          let s1 := (s.advance c u t).openOp c u
          let slot := fun (dev a : Nat) (ws : List PWord) (need : Nat) (f : Option Nat) =>
            (i, (⟨t, u, op, q.doneBar, (match src with | .peer _ b => b | _ => 0), dev, a, ws, need, false, f⟩ : MuleSlot))
          let add := fun (s : State) (e : Nat × MuleSlot) => s.modCore c fun x => { x with mules := x.mules ++ [e] }
          let fail := fun (st a : Nat) =>
            ((add s1 (slot s.devIndex 0 [] 0 (some st))).refusedRec c strSub st a).ror (.str c) 4 8
          match dst with
          | .fails st => fail st dstA
          | .fault _ => fail St.addrNotPermitted dstA
          | dst =>
            let to_ := match dst with | .here a => (s.devIndex, a) | .peer d a => (d, a) | _ => (s.devIndex, 0)
            let go := fun (s : State) => State.sendMules c to_.1 (s.core c).mules s
            if op ≠ 0 then go (add s1 (slot to_.1 to_.2 [⟨BitVec.ofNat 32 q.arg, false⟩] 0 none))
            else
              match src with
              | .here a =>
                let s2 := (s1.noteWords (unitOfAddr a) (islandOfAddr a) a (n / 4) (s.coreCtx c)).taintTile c u (s.poisonAddrs a (n / 4))
                go (add s2 (slot to_.1 to_.2 (s.peekWords a (n / 4)) 0 none))
              | .peer d a => (add s1 (slot to_.1 to_.2 [] (n / 4) none)).sendFlit none false (s.readFlit 3 d a (n / 4) (i + 256 * c) to_.2)
              | .fails st => fail st 0
              | .fault _ => fail St.addrNotPermitted 0

/-- COPY (R190). -/
def execCopy (core : Fin 48) (unit : Fin 8) (thread : Fin 16) (s : State) : Host.Outcome State Fault Refusal :=
  settled (s.issueMule 0 core unit thread)

/-- PUT32 (R190). -/
def execPut32 (core : Fin 48) (unit : Fin 8) (thread : Fin 16) (s : State) : Host.Outcome State Fault Refusal :=
  settled (s.issueMule 1 core unit thread)

/-- ADD32 (R190, R191). -/
def execAdd32 (core : Fin 48) (unit : Fin 8) (thread : Fin 16) (s : State) : Host.Outcome State Fault Refusal :=
  settled (s.issueMule 2 core unit thread)

/-- A Mule transfer is acknowledged, or has failed with a status (R191). -/
def State.endMule (s : State) (c i status : Nat) : State :=
  match (s.core c).mule i with
  | none => s
  | some m =>
    let st := if status = St.ok then m.failed else some status
    if st.isNone && !m.sent then s
    else
      let s1 := s.modCore c fun x => { x with mules := x.mules.filter (·.1 != i) }
      let s2 := match st with
        | some f => (s1.ror (.str c) 4 8).failTile c m.unit f
        | none =>
          let k := (s.coreSlot c).getD 4
          let s' := (s1.count48 (.str c) 0x48 1).count48 (.str c) 0x20 (4 * m.words.length)
          if m.dstDev = s.devIndex then s'.noteWrote k m.dstAddr (4 * m.words.length) else s'
      (((State.sendMules c m.dstDev (s2.core c).mules s2).signalDone c m.doneBar st).wakeFor c 3 0x3F).closeOp c m.unit

/-- The write of a Mule transfer is acknowledged, or it fails with `status` (R191). -/
def execMuleComplete (core : Fin 48) (slot : Fin 16) (status : Nat) (s : State) : Host.Outcome State Fault Refusal :=
  settled (s.endMule core slot status)

/-! ### Thread loads and stores -/

/-- The line of core c's read cache at a line address. -/
def CoreState.line (x : CoreState) (a : Nat) : Option CacheLine := x.cache.find? (·.addr == a)

/-- A cached word as delivered (R157, R166). -/
def CacheLine.deliver (l : CacheLine) (i : Nat) : PWord :=
  let p := l.words.getD i (0, 0)
  match wordKind p.2 with
  | .good => ⟨p.1, false⟩
  | .corrected (some b) => ⟨p.1 ^^^ BitVec.ofNat 32 (2 ^ b), false⟩
  | .corrected none => ⟨p.1, false⟩
  | _ => ⟨p.1, true⟩

/-- Whether the read cache may hold an address (R164): LPDDR5X, stacked SRAM and global addresses of peers. -/
def cacheable (a : Nat) : Bool :=
  if 2 ^ 48 ≤ a then true
  else match regionOf a with
    | .lpddr | .home | .pool => true
    | _ => false

/-- Whether a thread of core c may access an address (R30, R148, R149, R151): its refusal. -/
def State.threadRefusal (s : State) (write : Bool) (a : Nat) : Option Nat :=
  if 2 ^ 48 ≤ a then s.peerRefusal write (a / 2 ^ 48 % 64) (a % 2 ^ 48) 1
  else match regionOf a with
    | .reg => none
    | _ => s.refusal write a

/-- Install a line, in a way of its set that a free value picks when all eight are full (R164). -/
def State.fillLine (s : State) (c a : Nat) (ws : List (Word × BitVec 7)) : State :=
  let x := s.core c
  let set := fun (l : CacheLine) => l.addr / 64 % 512 == a / 64 % 512
  let mine := x.cache.filter set
  if mine.length < 8 then s.modCore c fun y => { y with cache := y.cache ++ [⟨a, ws⟩] }
  else
    let out := ((mine[s.nextFree % 8]?).map (·.addr)).getD 0
    (s.drawFree).modCore c fun y => { y with cache := y.cache.filter (·.addr != out) ++ [⟨a, ws⟩] }

/-- The 16 words of a line as delivered on a fill, with the poison marker kept; a peer's words are not known here. -/
def State.lineWords (s : State) (c a : Nat) : List (Word × BitVec 7) × State :=
  if 2 ^ 48 ≤ a ∧ a / 2 ^ 48 % 64 ≠ s.devIndex then
    ((List.range 16).map fun i => (BitVec.ofNat 32 (Config.free (s.freeCtr + i)), 0), { s with freeCtr := s.freeCtr + 16 })
  else
    let b := a % 2 ^ 48
    ((s.peekWords b 16).map fun w => (w.bits, if w.poison then poisonSynd else 0), s.noteWords (unitOfAddr b) (islandOfAddr b) b 16 (s.coreCtx c))

/-- Poisoned words delivered to a thread taint the tile it works for (R372): each tile that its core runs. -/
def State.taintAll (s : State) (c : Nat) (as : List Nat) : State :=
  (List.range 8).foldl (fun s u => s.taintTile c u as) s

/-- One piece of a thread's load, n words within one line (R157, R164, R166): through the read cache where that is allowed, else straight from
memory. -/
def State.loadPiece (s : State) (c a n : Nat) (tagParity : Bool) : List PWord × State :=
  let base := a / 64 * 64
  let s := if cacheable a && tagParity && ((s.core c).line base).isSome then
      (s.modCore c fun x => { x with cache := x.cache.filter (·.addr != base) }).count48 (.cbuf c) 0x38 1
    else s
  if !(cacheable a && bitOf (s.rforce (.cbuf c) 8).toNat 0) then
    let s1 := if cacheable a then s.count48 (.cbuf c) 0x28 1 else s
    let b := a % 2 ^ 48
    if 2 ^ 48 ≤ a ∧ a / 2 ^ 48 % 64 ≠ s.devIndex then
      ((List.range n).map fun i => ⟨BitVec.ofNat 32 (Config.free (s1.freeCtr + i)), false⟩, { s1 with freeCtr := s1.freeCtr + n })
    else (s.peekWords b n, (s1.noteWords (unitOfAddr b) (islandOfAddr b) b n (s.coreCtx c)).taintAll c (s.poisonAddrs b n))
  else
    let out := fun (s : State) (l : CacheLine) =>
      let ws := (List.range n).map fun i => l.deliver ((a - base) / 4 + i)
      (ws, s.taintAll c (if ws.any (·.poison) then [a] else []))
    match (s.core c).line base with
    | some l => out (s.count48 (.cbuf c) 0x20 1) l
    | none =>
      let (ws, s1) := s.lineWords c base
      out ((s1.fillLine c base ws).count48 (.cbuf c) 0x28 1) ⟨base, ws⟩

/-- A thread's load of n words from `a`, line by line; `fuel` is at least the number of lines. -/
def State.loadPieces (c : Nat) (tagParity : Bool) : Nat → Nat → Nat → State → List PWord × State
  | 0, _, _, s => ([], s)
  | fuel + 1, a, n, s =>
    if n = 0 then ([], s)
    else
      let m := min n (16 - a % 64 / 4)
      let (ws, s1) := s.loadPiece c a m tagParity
      let (rest, s2) := State.loadPieces c tagParity fuel (a + 4 * m) (n - m) s1
      (ws ++ rest, s2)

/-- A thread's store to memory (R154, R157, R164): written through; a hit is updated, a store allocates no line. -/
def State.threadStore (s : State) (c a : Nat) (bs : List Byte) : State :=
  let base := a / 64 * 64
  if 2 ^ 48 ≤ a ∧ a / 2 ^ 48 % 64 ≠ s.devIndex then
    let ws := (List.range (ceilDiv bs.length 4)).map fun i => (⟨BitVec.ofNat 32 (leAt bs (4 * i) 4), false⟩ : PWord)
    s.sendFlits false (wordFlits 1 3 (a / 2 ^ 48 % 64) s.devIndex (0xFF + 256 * c) 0 (ws.length + 1) (a % 2 ^ 48) ws)
  else
    let b := a % 2 ^ 48
    let s1 := s.putBytes (unitOfAddr b) (islandOfAddr b) b bs
    match (s1.core c).line base with
    | none => s1
    | some l =>
      let w0 := (a - base) / 4
      let w1 := (a + bs.length + 3 - base) / 4
      let fresh := s1.peekWords (b / 64 * 64) 16
      let l1 : CacheLine := { l with words := l.words.mapIdx fun i w =>
        if w0 ≤ i ∧ i < w1 then
          let f := fresh.getD i ⟨0, false⟩
          (f.bits, if f.poison then poisonSynd else 0)
        else w }
      s1.modCore c fun x => { x with cache := x.cache.map fun y => if y.addr = base then l1 else y }

end Sys2Proof.Machine
end

