-- ==== Sys2Proof/Machine/Access.lean ====
section
/-! DEFINITION. Who may access which registers (R30), and the rejection of writes (R11). -/

namespace Sys2Proof.Machine

/-- The page whose status register takes CFG_REJECT for a page (R11). -/
def Page.statusPage : Page → Page
  | .heng _ => .heng 0
  | .pwr _ => .pwr 0
  | .eth k => if k = 1 ∨ k = 3 then .eth k else .eth 0
  | p => p

/-- A write to a page is rejected (R11). -/
def State.reject (s : State) (p : Page) : State :=
  match p.statusPage.row 4 with
  | some _ => s.ror p.statusPage 4 1
  | none => s

/-- The debug level of the boundary-scan port (R408): OPEN on a DEVELOPMENT part. -/
def State.tapRights (s : State) : Nat := if s.sec.fuses.lifecycle = 2 then 3 else s.sec.tapLevel

/-- The pages of core c (R29). -/
def Page.ofCore (p : Page) (c : Nat) : Bool :=
  match p with
  | .core d | .tsq d | .vec d | .str d | .hen d | .lamb d | .cbuf d => d == c
  | _ => false

/-- Whether an agent may read a page (R30). -/
def State.mayRead (s : State) (by_ : Agent) (p : Page) : Bool :=
  match by_ with
  | .gander _ => true
  | .thread c _ => p.ofCore c || (match p with | .heng _ | .pwr _ | .aon => true | _ => false)
  | .tap => decide (1 ≤ s.tapRights) || p == .aon

/-- Whether an agent may write a page (R30). -/
def State.mayWrite (s : State) (by_ : Agent) (p : Page) : Bool :=
  match by_ with
  | .gander _ => true
  | .thread c _ => p.ofCore c && p != .core c
  | .tap => decide (2 ≤ s.tapRights)

/-- An access outside an agent's rights raises its record (R30). -/
def State.denied (s : State) (by_ : Agent) (addr : Nat) : State :=
  match by_ with
  | .gander n => s.raise (St.islGander n) (s.newRec St.clsConfig St.regAccessDenied (unitGander n) addr 0)
  | .thread c t => s.raiseCore c (0x20 + t) St.clsConfig St.regAccessDenied addr 0
  | .tap => s.raise St.islAon (s.newRec St.clsConfig St.regAccessDenied unitSec addr 0)

/-- A write by an agent to a register: refused outside its rights, else carried out. -/
def State.writeAs (s : State) (by_ : Agent) (p : Page) (off : Nat) (f : State → State) : State :=
  if s.mayWrite by_ p then f s else s.denied by_ (p.base + off)

end Sys2Proof.Machine
end

