-- ==== Sys2Proof/Machine/Hen.lean ====
section
/-! DEFINITION. The timeout unit (R212, R213), lending on long waits (R219), and the setting of barriers by hand (R218). -/

namespace Sys2Proof.Machine

/-! ### Timeouts -/

/-- A wait's timeout does not run (R213): its stream is halted, its context is frozen, or the core is held by `TILE_STEP`. -/
def State.waitSuspended (s : State) (c : Nat) (w : Watch) : Bool :=
  let x := s.core c
  let halted := x.streams.any fun e => e.2.halted.isSome && e.2.doneBar == w.obj
  (s.coreCtx c).any (·.frozen) || (w.kind == 0 && halted) ||
    (s.stepHeld c && [0, 2, 3, 4, 7].contains w.kind)

/-- The kinds of watch that the timeout unit limits: a GMM or MRS watch ends with its collective, a leave watch with its grant (R209,
R213). -/
def timedKind (k : Nat) : Bool := k != 5 && k != 6 && k != 8

/-- One tick of every watch: it has been held one tick longer, and its count falls unless it is suspended (R212, R213). -/
def State.tickWatches (s : State) : State :=
  (List.range 48).foldl (init := s) fun s c =>
    if (s.core c).threads.toList.any (·.watch.isSome) then
      s.modCore c fun x => { x with threads := x.threads.map fun t =>
        { t with watch := t.watch.map fun w =>
            { w with held := w.held + 1
                     left := if timedKind w.kind && !s.waitSuspended c w then w.left - 1 else w.left } } }
    else s

/-- The threads whose watch has expired, as (core, thread, watch). -/
def State.expired (s : State) : List (Nat × Nat × Watch) :=
  (List.range 48).flatMap fun c => (List.range 16).filterMap fun t =>
    match ((s.core c).thread t).watch with
    | some w => if timedKind w.kind && w.left == 0 && !s.waitSuspended c w then some (c, t, w) else none
    | none => none

/-- The lowest dimension of a group barrier whose message has not arrived (R213). -/
def State.missingDim (s : State) (g : Nat) : Option Nat :=
  let b := s.gbar g
  (List.range 6).find? fun k => bitOf b.dims k && !bitOf b.done k && !b.msgs.contains (b.key, k)

/-- Two expired watches wait on one object: one group barrier, or one object of one core. -/
def sameObject (a b : Nat × Nat × Watch) : Bool :=
  a.2.2.kind == b.2.2.kind && a.2.2.obj == b.2.2.obj && (a.2.2.kind == 1 || a.1 == b.1)

/-- The record of the waiters on one object that expire in one tick (R213, R366). -/
def State.timeoutRec (s : State) (e : Nat × Nat × Watch) (waiters : Nat) : State :=
  let (c, t, w) := e
  let addr := put w.kind 0 4 + put w.obj 4 6 + put w.want 16 16
  let detail := if w.kind = 1 then
      match s.missingDim w.obj with
      | some k => k + 8 + put (s.devIndex ^^^ 2 ^ k) 4 6
      | none => 0
    else 0
  let r := (s.newRec St.clsTimeout St.waitTimeout (unitCore c (0x20 + t)) addr detail).ofCtx (s.coreCtx c)
  s.raise (if w.kind = 1 then St.islSync else St.islCore c) { r with count := waiters }

/-- An expired watch fires with WAIT_TIMEOUT (R212). -/
def State.expire (s : State) (c t : Nat) (w : Watch) : State :=
  let s1 := ((s.fire c t wmTimeout).count48 (.hen c) 0x28 1).ror (.hen c) 4 2
  let s2 := if w.kind = 0 then s1.modCore c fun x => x.setBar w.obj { x.bar w.obj with waiters := (x.bar w.obj).waiters.filter (· != t) }
    else if w.kind = 1 then
      let b := s1.gbar w.obj
      ((s1.setGbar w.obj { b with waiters := b.waiters.filter (· != (c, t)) }).count48 (.heng 0) 0x28 1).ror (.heng 0) 4 2
    else s1
  s2.tryEnd c w.unit

/-- A group barrier whose waiters have expired fails its command; `DEVICE` names the neighbour whose message is missing (R374). -/
def State.barrierTimeout (s : State) (g : Nat) (missing : Option Nat) : State :=
  let k := g / 16
  match s.ctx k with
  | none => s
  | some _ =>
    let dev := match missing with
      | some d => s.devIndex ^^^ 2 ^ d
      | none => s.devIndex
    s.failCtx k ⟨St.waitTimeout, dev, 0, []⟩

/-- An operation is in flight here, and whether its timer is suspended (R270): its context is frozen here, or a FREEZE holds. -/
def State.opLive (s : State) (opid : Nat) : Option Bool :=
  (List.range 4).findSome? fun k =>
    (s.ctx k).bind fun x => if x.ops.contains opid then some (x.frozen || s.links.frozenOps.any (·.1 == opid)) else none

/-- One tick of the timers of collective operations (R268) and of the records of aborts (R270). -/
def State.tickOps (s : State) : State :=
  { s with links := { s.links with
      timers := (s.links.timers.filter fun e => (s.opLive e.1).isSome).map fun e => if s.opLive e.1 = some true then e else (e.1, e.2 - 1)
      abortDue := s.links.abortDue.map fun e => (e.1, e.2 - 1) } }

/-- A tick of the timeout unit (R212, R213, R268, R270). -/
def State.timeoutTick (s : State) : State :=
  let s1 := s.tickWatches.tickOps
  let es := s1.expired
  let firsts := es.foldl (fun acc e => if acc.any (sameObject e) then acc else acc ++ [e]) []
  let s2 := firsts.foldl (fun s e => s.timeoutRec e (es.filter (sameObject e)).length) s1
  let gs := (es.filterMap fun e => if e.2.2.kind = 1 then some e.2.2.obj else none).eraseDups
  let miss := gs.map fun g => (g, s2.missingDim g)
  let s3 := es.foldl (fun s e => s.expire e.1 e.2.1 e.2.2) s2
  miss.foldl (fun s g => s.barrierTimeout g.1 g.2) s3

/-- The timeout unit ticks: a watch whose count reaches zero fires with WAIT_TIMEOUT (R212). -/
def execWaitTimeout (s : State) : Host.Outcome State Fault Refusal := settled s.timeoutTick

/-- A core with no issuing thread whose watches have all been held LEND_DELAY ticks lends its grant (R219). -/
def State.lendLong (s : State) (c : Nat) : State :=
  let x := s.core c
  let ws := x.threads.toList.filterMap (·.watch)
  let delay := s.ffield (.hen c) 8 16 8
  if bitOf (s.rforce (.hen c) 8).toNat 24 && !x.lent && decide (0 < x.charge) && !s.coreIssuing c && !ws.isEmpty &&
      ws.all (fun w => decide (delay ≤ w.held)) then s.lend c else s

/-- A long wait lends the core's grant (R219). -/
def execLongWaitLend (core : Fin 48) (s : State) : Host.Outcome State Fault Refusal := .next (s.lendLong core)

/-! ### Setting barriers by hand -/

/-- An agent as the address field of its DEBUG_FORCED record. -/
def agentCode : Agent → Nat
  | .gander n => n.val
  | .thread c t => 0x100 + c.val * 16 + t.val
  | .tap => 0xFF

/-- The record of a forced barrier and FORCED (R218): a core barrier by its slice, a group barrier by the sync fabric. -/
def State.forced (s : State) (page : Page) (isl : Nat) (u : UnitId) (obj : Nat) (by_ : Agent) (cx : Option Ctx) : State :=
  (s.ror page 4 32).raise isl ((s.newRec St.clsConfig St.debugForced u (obj + 2 ^ 16 * agentCode by_) 0).ofCtx cx)

/-- An action of `HEN_DBG` on core barrier b (R218): ignored for a thread and for a FREE barrier. -/
def State.henDbg (s : State) (by_ : Agent) (c b : Nat) (f : State → State) : State :=
  s.writeAs by_ (.hen c) 0xC fun s =>
    match by_ with
    | .thread _ _ => s.reject (.hen c)
    | _ =>
      if ((s.core c).bar b).st = .free then s.reject (.hen c)
      else
        let s1 := f (s.forced (.hen c) (St.islCore c) (unitCore c 0x12) b by_ (s.coreCtx c))
        match s1.coreSlot c with
        | some k => s1.modCtx k fun x => { x with forced := true }
        | none => s1

/-- Tiles that a change of a core's barriers may have let end. -/
def State.endTiles (s : State) (c : Nat) : State := (List.range 8).foldl (fun s u => s.tryEnd c u) s

/-- Force the release of a core barrier (R218): a phase barrier as a normal release; a credit barrier wakes its waiters. -/
def State.forceBar (s : State) (c b : Nat) : State :=
  let bar := (s.core c).bar b
  if !bar.credit then s.releasePhase c b wmForced
  else
    let s1 := s.modCore c fun x => x.setBar b { x.bar b with waiters := [] }
    bar.waiters.foldl (fun s t => s.fire c t wmForced) s1

/-- `HEN_DBG` action 0b001. -/
def execHenDbgForceRelease (by_ : Agent) (core : Fin 48) (bar : Fin 32) (_value : Fin 256) (s : State) :
    Host.Outcome State Fault Refusal :=
  settled ((s.henDbg by_ core bar fun s => s.forceBar core bar).endTiles core)

/-- Set a barrier's arrivals, or P (R218, R220): a phase barrier that this completes releases. -/
def State.setArrivals (s : State) (c b v : Nat) : State :=
  let bar := (s.core c).bar b
  let s1 := s.modCore c fun x => x.setBar b { bar with arrived := v }
  if bar.credit then s1.serve c b else if bar.parts ≤ v then s1.releasePhase c b wmForced else s1

/-- `HEN_DBG` action 0b010. -/
def execHenDbgSetArrivals (by_ : Agent) (core : Fin 48) (bar : Fin 32) (value : Fin 256) (s : State) :
    Host.Outcome State Fault Refusal :=
  settled ((s.henDbg by_ core bar fun s => s.setArrivals core bar value).endTiles core)

/-- Set C of a credit barrier (R218, R220), with its re-base at PARTS; a phase barrier has none. -/
def State.setConsumed (s : State) (c b v : Nat) : State :=
  let bar := (s.core c).bar b
  if !bar.credit then s
  else
    let bar1 := if bar.parts ≤ v then
        { bar with gen := (bar.gen + 1) % 65536, arrived := bar.arrived - bar.parts, consumed := v - bar.parts }
      else { bar with consumed := v }
    (s.modCore c fun x => x.setBar b bar1).serve c b

/-- `HEN_DBG` action 0b011. -/
def execHenDbgSetConsumed (by_ : Agent) (core : Fin 48) (bar : Fin 32) (value : Fin 256) (s : State) :
    Host.Outcome State Fault Refusal :=
  settled ((s.henDbg by_ core bar fun s => s.setConsumed core bar value).endTiles core)

/-- `HEN_DBG` action 0b100: the barrier breaks. -/
def execHenDbgBreak (by_ : Agent) (core : Fin 48) (bar : Fin 32) (_value : Fin 256) (s : State) :
    Host.Outcome State Fault Refusal :=
  settled ((s.henDbg by_ core bar fun s => s.breakBar core bar).endTiles core)

/-- An action of `HENG_DBG` on group barrier g (R218). -/
def State.hengDbg (s : State) (by_ : Agent) (g : Nat) (f : State → State) : State :=
  s.writeAs by_ (.heng 0) 0xC fun s =>
    match by_ with
    | .thread _ _ => s.reject (.heng 0)
    | _ =>
      if (s.gbar g).st = .free then s.reject (.heng 0)
      else
        (f (s.forced (.heng 0) St.islSync unitSync g by_ (s.ctx (g / 16)))).modCtx (g / 16) fun x => { x with forced := true }

/-- `HENG_DBG` action 0b001: the barrier releases on this device. -/
def execHengDbgForceRelease (by_ : Agent) (bar : Fin 64) (s : State) : Host.Outcome State Fault Refusal :=
  settled (s.hengDbg by_ bar fun s => noteEnd bar (s.gRelease bar wmForced, true))

/-- `HENG_DBG` action 0b100: the barrier breaks on this device. No message carries the break to the other members. -/
def execHengDbgBreak (by_ : Agent) (bar : Fin 64) (s : State) : Host.Outcome State Fault Refusal :=
  settled (s.hengDbg by_ bar fun s => s.breakGbar bar)

/-- A write of 1 to `CBUF_INV.ALL` (R165). -/
def execCbufInvAll (by_ : Agent) (core : Fin 48) (s : State) : Host.Outcome State Fault Refusal :=
  .next (s.writeAs by_ (.cbuf core) 0xC fun s => s.invalidate core)

end Sys2Proof.Machine
end

