-- ==== Sys2Proof/Machine/Paging.lean ====
section
/-! DEFINITION. Page faults (R170, R192 to R194, R300): their service by Gander 2, the arrival of pages, and the resumption of streams. -/

namespace Sys2Proof.Machine

/-- The page fetch in progress, or done, for a page. -/
def State.fetch (s : State) (p : Nat) : Option PageFetch := s.svc.fetches.find? (·.page == p)

/-- The state with a function applied to a page fetch. -/
def State.modFetch (s : State) (p : Nat) (f : PageFetch → PageFetch) : State :=
  s.modSvc fun v => { v with fetches := v.fetches.map fun x => if x.page = p then f x else x }

/-- The streams halted on a page, as (core, stream context) (R170). -/
def State.haltedOn (s : State) (p : Nat) : List (Nat × Nat) :=
  (List.range 48).flatMap fun c => ((s.core c).streams.filter fun e => e.2.halted == some p).map fun e => (c, e.1)

/-- The KV_PAGE_REQUEST notice of a host page (R300). -/
def State.askHost (s : State) (f : PageFetch) : State :=
  s.notices 0x0040 St.ok (beBytes 8 f.handle ++ beBytes 4 f.page ++ [BitVec.ofNat 8 s.devIndex, 0, 0, 0])

/-- Gander 2's copy of a peer's page over VC2 (R170): READs of 2,048 bytes, to the allocated frame. -/
def State.askPeer (s : State) (f : PageFetch) : State :=
  (List.range 1024).foldl (init := s) fun s i =>
    s.sendFlit none (i % 2 == 1) (s.readFlit 2 f.device (f.addr + 2048 * i) 512 (50 * 256 + 1 + i % 255) (f.frame + 2048 * i))

/-- Fail every stream that waits for a page (R170). -/
def State.failWaiters (s : State) (p : Nat) : State :=
  (s.haltedOn p).foldl (fun s e => (s.failStream e.1 e.2 St.kvPageUnavailable []).endIfOver e.1 e.2) s

/-- Serve a fault of a stream of core c (R170): a page already being fetched is waited for; else the entry is set to being fetched, a frame is
allocated and the page asked of the peer or host that holds it. Without a frame the page cannot be supplied. -/
def State.serveFault (s : State) (c k : Nat) : State :=
  match (s.core c).stream k with
  | none => s
  | some st =>
    match st.halted with
    | none => s
    | some p =>
      let e := (s.pte p).1
      if (s.fetch p).isSome ∨ ¬(pteSt e = 3 ∨ pteSt e = 4) then s
      else
        let g := (s.ctx st.slot).bind fun x => s.image x.image
        match g.bind fun g => s.takeFrame g p with
        | none => s.failWaiters p
        | some frame =>
          let host := pteSt e == 4
          let handle := ((s.svc.hostPages.find? fun h => h.1 == p && h.2.2 == pteOwner e).map (·.2.1)).getD 0
          let f : PageFetch := ⟨p, pteOwner e, host, pteDev e, pteFrame e, handle, frame, [], false, [(c, k)]⟩
          let s1 := (s.setPte p (mkPte 5 false (pteOwner e) frame (pteDev e))).modSvc fun v => { v with fetches := v.fetches ++ [f] }
          if host then s1.askHost f else s1.askPeer f

/-- Gander 2 receives the fault message of a halted stream (R170, R192). -/
def execPageFault (core : Fin 48) (ctx : Fin 64) (s : State) : Host.Outcome State Fault Refusal := settled (s.serveFault core ctx)

/-- A halted stream goes on (R193, R194): its faulting segment is translated again, and the timeout of a wait on its barrier restarts in
full. How many cycles it was halted is not in the model. -/
def State.resumeStream (s : State) (c k : Nat) : State :=
  match (s.core c).stream k with
  | none => s
  | some st =>
    let lim := s.watchLimit c 0 + 1
    let s1 := (s.modStream c k fun y => { y with halted := none }).modCore c fun x =>
      { x with threads := x.threads.map fun t => { t with watch := t.watch.map fun w =>
          if w.kind = 0 ∧ w.obj = st.doneBar then { w with left := lim } else w } }
    ((s1.count48 (.str c) 0x40 (s1.nextFree % 2 ^ 48)).drawFree).runStream c k

/-- A write of `STR_RESUME` (R193): a stream that is not halted is left, and the write is rejected. -/
def State.strResume (s : State) (c k : Nat) : State :=
  match ((s.core c).stream k).bind (·.halted) with
  | some _ => s.resumeStream c k
  | none => s.reject (.str c)

/-- A write of `STR_RESUME`. -/
def execStrResume (by_ : Agent) (core : Fin 48) (ctx : Fin 64) (s : State) : Host.Outcome State Fault Refusal :=
  settled (s.writeAs by_ (.str core) 0x1C fun s => s.strResume core ctx)

/-- A fetched page is complete (R170): its entry becomes resident and read-only, and every stream halted on it is resumed. -/
def State.pageHere (s : State) (p : Nat) : State :=
  match s.fetch p with
  | none => s
  | some f =>
    if f.ready then s
    else
      let st := if regionOf f.frame = .lpddr then 2 else 1
      let s1 := (s.modFetch p fun x => { x with ready := true, waiters := [] }).setPte p (mkPte st true f.owner f.frame 0)
      (s1.haltedOn p).foldl (fun s e => s.strResume e.1 e.2) s1

/-- The copy of a page is complete (R170). `data` is what it brought from the page's start that no RDATA flit or data packet has stored;
words that came with an uncorrectable syndrome are poisoned. -/
def execPageFetchComplete (page : Nat) (data : List PWord) (s : State) : Host.Outcome State Fault Refusal :=
  match s.fetch page with
  | none => .next s
  | some f => if f.ready then .next s else settled ((s.putWords f.frame (data.take 524288)).pageHere page)

/-- Every 64 µs the device repeats its notice for a host page that has not come (R300). -/
def execKvPageRequest (page : Nat) (s : State) : Host.Outcome State Fault Refusal :=
  match s.fetch page with
  | none => .next s
  | some f => if f.host && !f.ready then .next (s.askHost f) else .next s

end Sys2Proof.Machine
end

