-- ==== Sys2Proof/Machine/Ports.lean ====
section
/-! DEFINITION. The chip-link ports: reception in sequence, discard and replay (R240 to R242), credits (R245), port states and training (R236,
R247 to R250), the handover between the two ports of a dimension (R252), and their registers and records (R272, R273). -/

namespace Sys2Proof.Machine

/-- The state with a function applied to a port. -/
def State.modPort (s : State) (p : Nat) (f : Port → Port) : State := s.setPort p (f (s.port p))

/-- The other port of a port's dimension. -/
def otherPort (p : Nat) : Nat := if p % 2 = 0 then p + 1 else p - 1

/-! ### Status -/

/-- `LNK_STATUS.STATE` (R273). -/
def PortSt.code : PortSt → Nat
  | .down => 0 | .detect => 1 | .equalize => 1 | .align => 1 | .identify => 1 | .active => 2 | .colt => 3 | .disabled => 4

/-- Lanes marked failed (R273). -/
def State.failedLanes (s : State) (p : Nat) : Nat := s.rfield (.lnk p) 0x18 8 6

/-- The lanes that an ACTIVE port uses (R249): all six, or the whole half at width 3; none when both halves hold a failed lane. -/
def lanesFor (failed : Nat) : Nat := if failed % 64 = 0 then 0x3F else if failed % 8 = 0 then 0x07 else if failed / 8 % 8 = 0 then 0x38 else 0

/-- Put a port in a state; its STATE, WIDTH and IN_USE follow (R273). -/
def State.portTo (s : State) (p : Nat) (st : PortSt) : State :=
  let s1 := (s.modPort p fun x => { x with st := st }).rput (.lnk p) 4 1 3 st.code
  let use := match st with
    | .active => lanesFor (s.failedLanes p)
    | .colt => 1
    | _ => 0
  let w := match st with
    | .active => if use = 0x3F then 3 else 2
    | .colt => 1
    | _ => 0
  (s1.rput (.lnk p) 4 4 2 w).rput (.lnk p) 0x18 0 6 use

/-- A LINK record of a port or dimension (R272, R366): `what` is the port or dimension, `dev` the other device, `lanes` the failed lanes. -/
def State.linkRec (s : State) (p st what dev lanes : Nat) : State :=
  s.raise (St.islLink p) (s.newRec St.clsLink st (unitLink p) 0 (put what 0 8 + put dev 8 6 + put lanes 16 6))

/-! ### Trailers -/

/-- An acknowledgement takes what it covers out of the replay buffer (R241). -/
def Port.acked (x : Port) (ack : Nat) : Port :=
  match x.replay.findIdx? (·.seq == ack) with
  | some i => { x with replay := x.replay.drop (i + 1) }
  | none => x

/-- Returned credits (R245). -/
def Port.credited (x : Port) (vc n : Nat) : Port :=
  { x with credits := x.credits.mapIdx fun i c => if i = vc then min (c + n) (portCredits.toList.getD i 0) else c }

/-- A port enters COLT once both ends have asked for it, no flit is unacknowledged and VC1 is empty (R250). -/
def State.tryColt (s : State) (p : Nat) : State :=
  let x := s.port p
  if x.coltWanted && x.coltAsked && x.st == .active && x.replay.isEmpty && (x.queues.toList.getD 1 []).isEmpty then
    (s.modPort p fun y => { y with coltWanted := false, coltAsked := false }).portTo p .colt
  else s

/-- Take a trailer: corrected bytes, the ACK and the credits (R237, R240, R241, R245). -/
def State.takeTrailer (s : State) (p : Nat) (tr : Trailer) : State :=
  let s1 := if tr.fixed = 0 then s else s.count48 (.lnk p) 0x30 tr.fixed
  ((s1.modPort p fun x => (x.acked tr.ack).credited tr.cvc tr.cred).drain p).tryColt p

/-- Answer delivered flits with their ACK and the credits of the buffer space they leave (R241, R245). -/
def State.answer (s : State) (p vc n : Nat) : State :=
  let ack := ((s.port p).rxNext + 4095) % 4096
  s.emits ((List.range (ceilDiv n 63)).map fun i => .idle p ack vc (min 63 (n - 63 * i)))

/-- A sequenced flit is discarded (R241): counted, and answered by a NAK on the first discard. -/
def State.discard (s : State) (p : Nat) : State :=
  let s1 := s.count48 (.lnk p) 0x38 1
  if (s.port p).nakOpen then s1
  else (s1.modPort p fun x => { x with nakOpen := true }).emit (.link p 1 [BitVec.ofNat 32 (s.port p).rxNext])

/-- The flits of a message of n flits arrive with the first one's trailer: delivered in sequence to `here`, else discarded (R241, R242). -/
def State.deliver (s : State) (p : Nat) (tr : Trailer) (vc n : Nat) (here : State → State) : State :=
  if !(s.port p).up then s
  else
    let s1 := s.takeTrailer p tr
    if tr.seq = (s1.port p).rxNext then
      let s2 := (s1.modPort p fun x => { x with rxNext := (x.rxNext + n) % 4096, nakOpen := false }).count48 (.lnk p) 0x28 n
      (here s2).answer p vc n
    else s1.discard p

/-! ### Leaving and reaching ACTIVE -/

/-- What waits on a port that is not up goes over to the other port of its dimension (R252). -/
def State.moveQueues (s : State) (p q : Nat) : State :=
  let x := s.port p
  if x.up || !(s.port q).up then s
  else
    ((s.modPort p fun y => { y with queues := Vector.replicate 4 [] }).modPort q fun y =>
      { y with queues := y.queues.mapIdx fun i l => l ++ x.queues.toList.getD i [] }).drain q

/-- Tell the neighbour, over port q, the last `SEQ` that port p delivered before it left ACTIVE (R252 step 1). -/
def State.report (s : State) (p q : Nat) : State :=
  match (s.port p).report with
  | some n =>
    if (s.port q).up then
      (s.modPort p fun x => { x with report := none }).emit (.link q 5 [BitVec.ofNat 32 (put p 0 3 + put n 8 12)])
    else s
  | none => s

/-- A port waits for a HANDOVER while flits of its dimension are held for one (R252). -/
def State.gate (s : State) (p : Nat) : State :=
  let wait := !((s.port p).held.isEmpty && (s.port (otherPort p)).held.isEmpty)
  s.modPort p fun x => { x with handing := wait }

/-- A port leaves ACTIVE or COLT for a state: its unacknowledged flits are held for the handover and its traffic moves (R248, R252). -/
def State.leaveActive (s : State) (p : Nat) (st : PortSt) : State :=
  let q := otherPort p
  let s1 := (s.modPort p fun x =>
    { x with held := x.held ++ x.replay, replay := [], report := some ((x.rxNext + 4095) % 4096), coltWanted := false, coltAsked := false
             handing := false }).portTo p st
  let s2 := s1.gate q
  (s2.report p q).moveQueues p q

/-- The neighbour tells how far the flits of a failed port were delivered: those after it are sent again, in order, before newer flits of their
VC (R252 step 2). -/
def State.handover (s : State) (p failed lastSeq : Nat) : State :=
  let x := s.port failed
  let rest := match x.held.findIdx? (·.seq == lastSeq) with
    | some i => x.held.drop (i + 1)
    | none => x.held
  let s1 := s.modPort failed fun y => { y with held := [] }
  let s2 := s1.modPort p fun y =>
    { y with queues := y.queues.mapIdx fun i l => (rest.filter (·.flit.vc == i)).map (·.flit) ++ l }
  ((s2.gate p).gate (otherPort p)).drain p

/-- A port retrains (R248, R249): from ACTIVE it raises its record; three retrains within a second mark the lanes that lost lock as failed. -/
def State.retrain (s : State) (p : Nat) : State :=
  let x := s.port p
  if !x.up then s
  else
    let recent := (x.retrains ++ [s.aonClk]).filter fun t => decide (s.aonClk < t + 100000000)
    let s1 := (s.count48 (.lnk p) 0x48 1).ror (.lnk p) 4 0x40
    let s2 := if x.st == .active then s1.linkRec p St.linkRetrained p 0 0 else s1
    let s3 := if 3 ≤ recent.length then s2.rput (.lnk p) 0x18 8 6 (s2.failedLanes p ||| x.lostLanes) else s2
    let s4 := s3.leaveActive p .equalize
    (s4.modPort p fun y => { y with retrains := if 3 ≤ recent.length then [] else recent, trainFrom := s.aonClk, wasActive := true
                                    lostLanes := if 3 ≤ recent.length then 0 else y.lostLanes }).emit
      (.link p 6 (2 :: x.coefs))

/-- Training fails (R247, R272): the port goes DOWN. -/
def State.trainFailed (s : State) (p : Nat) : State :=
  let was := (s.port p).wasActive
  let s1 := s.linkRec p St.linkTrainFailed p 0 0
  let s2 := if was then s1.linkRec p St.linkPortDown p 0 0 else s1
  (s2.modPort p fun x => { x with wasActive := false, tried := true }).portTo p .down

/-! ### The commands of a port -/

/-- An IDLE flit (R245). -/
def execIdle (port : Fin 8) (tr : Trailer) (s : State) : Host.Outcome State Fault Refusal :=
  if (s.port port).up then .next (s.takeTrailer port tr) else .next s

/-- A flit of 360 bytes that is to be discarded (R240, R241, R244): one that fails its codes, a sequenced flit out of sequence, or a LINK flit
with a reserved subtype. -/
def State.discardRaw (s : State) (p : Nat) (raw : List Byte) : State :=
  if !(s.port p).up then s
  else
    match flitCorrect raw with
    | none => s.discard p
    | some (bs, fixed) =>
      if crc32c (bs.take 328) ≠ leAt bs 328 4 then s.discard p
      else
        let ftype := field (leAt bs 0 1) 0 4
        let t := leAt bs 328 8
        let sub := leAt bs 12 1
        let s1 := s.takeTrailer p ⟨flitSeq bs, field t 44 12, field t 56 2, field t 58 6, fixed⟩
        if ftype = 0xF then (if sub = 0 ∨ 6 < sub then s1.count48 (.lnk p) 0x38 1 else s1)
        else if ftype = 0 ∨ flitSeq bs = (s1.port p).rxNext then s1
        else s1.discard p

/-- A flit that fails R240 or comes out of sequence. -/
def execFlitDiscard (port : Fin 8) (raw : List Byte) (s : State) : Host.Outcome State Fault Refusal := .next (s.discardRaw port raw)

/-- Replay in order from the oldest unacknowledged flit; a flit sent for the 8th time makes the port retrain (R241). -/
def State.replayAll (s : State) (p : Nat) : State :=
  let x := s.port p
  if !x.up || x.replay.isEmpty then s
  else
    let again := x.replay.map fun e => { e with times := e.times + 1 }
    let s1 := ((s.modPort p fun y => { y with replay := again }).count48 (.lnk p) 0x40 again.length).emits
      (again.map fun e => .flit p (some e.seq) e.flit)
    if again.any fun e => decide (8 ≤ e.times) then s1.retrain p else s1

/-- The ACK has not advanced for 2 µs (R241). -/
def execReplayTimer (port : Fin 8) (s : State) : Host.Outcome State Fault Refusal := .next (s.replayAll port)

/-- A NAK acknowledges what lies before the expected `SEQ` and makes the sender replay (R241). -/
def execNak (port : Fin 8) (expected : Nat) (s : State) : Host.Outcome State Fault Refusal :=
  if (s.port port).up then .next ((s.modPort port fun x => x.acked ((expected + 4095) % 4096)).replayAll port) else .next s

/-- A DOWN port sees signal on its lanes and begins to train, when AUTO_TRAIN allows it (R247, R273). -/
def execLaneSignalDetect (port : Fin 8) (s : State) : Host.Outcome State Fault Refusal :=
  if (s.port port).st = .down ∧ bitOf (s.rget (.lnk port) 8).toNat 0 then
    .next (((s.modPort port fun x => { x with trainFrom := s.aonClk }).portTo port .detect).emit (.link port 6 (1 :: (s.port port).coefs)))
  else .next s

/-- A port enters IDENTIFY (R247): `SEQ` and `ACK` start at 0 and its ID flit leaves. -/
def State.toIdentify (s : State) (p : Nat) : State :=
  let s1 := (s.modPort p fun x => { x with txSeq := 0, rxNext := 0, nakOpen := false }).portTo p .identify
  let w3 := b01 (bitOf (s.rget (.lnk p) 8).toNat 1)
  s1.emit (.link p 2 [BitVec.ofNat 32 (put s.devIndex 0 6 + put p 8 3 + put s.sec.fuses.lifecycle 12 2 + put w3 16 1 + 2 ^ 17)])

/-- A TRAIN flit: the neighbour's coefficients are kept, and the port moves on once the neighbour has come as far (R244, R247). -/
def execTrain (port : Fin 8) (state : Nat) (coefs : List Word) (s : State) : Host.Outcome State Fault Refusal :=
  let st := (s.port port).st
  let keep := fun (s : State) => s.modPort port fun x => { x with coefs := coefs.take 6 }
  if state = 0 ∨ 3 < state then .next s
  else if st = .detect then .next (((keep s).portTo port .equalize).emit (.link port 6 (2 :: coefs.take 6)))
  else if st = .equalize ∧ 2 ≤ state then .next (((keep s).portTo port .align).emit (.link port 6 (3 :: coefs.take 6)))
  else if st = .align ∧ 3 ≤ state then .next (s.toIdentify port)
  else .next s

/-- An ID flit at IDENTIFY (R25, R247): the neighbour is recorded; a wrong index keeps the port down. -/
def execId (port : Fin 8) (device : Fin 64) (peerPort : Fin 8) (_lifecycle : Fin 4) (w3 _colt : Bool) (s : State) :
    Host.Outcome State Fault Refusal :=
  let p := port.val
  if (s.port p).st ≠ .identify then .next s
  else
    let peer := fun (v : Nat) (s : State) => s.rset (.lnk p) 0x14 (BitVec.ofNat 32 (put device 0 6 + put peerPort 8 3 + put v 16 1))
    if device.val = s.devIndex ^^^ 2 ^ (p / 2) then
      if s.failedLanes p ≠ 0 ∧ !w3 then .next ((peer 0 s).trainFailed p)
      else .next ((peer 1 s).rput (.lnk p) 4 8 1 0)
    else
      let s1 := ((peer 0 s).rput (.lnk p) 4 8 1 1).linkRec p St.linkNeighborMismatch p device 0
      .next ((s1.modPort p fun x => { x with wasActive := false, tried := true }).portTo p .down)

/-- A port reaches ACTIVE (R247, R249): at full width, or at width 3 on the whole half of its lanes when that is allowed; full credits return
(R245), the edge is up again (R253), and what the dimension holds goes on (R252). -/
def State.trained (s : State) (p lanes : Nat) : State :=
  let q := otherPort p
  let x := s.port p
  if x.st ≠ .identify ∨ !bitOf (s.rget (.lnk p) 0x14).toNat 16 then s
  else
    let failed := s.failedLanes p ||| (0x3F - lanes % 64)
    let s0 := s.rput (.lnk p) 0x18 8 6 failed
    if lanesFor failed = 0 ∨ (failed ≠ 0 ∧ !bitOf (s.rget (.lnk p) 8).toNat 1) then s0.trainFailed p
    else
      let s1 := s0.modPort p fun y => { y with credits := portCredits, window := 0, vc0Sent := 0, wasActive := false, tried := true }
      let s2 := ((s1.portTo p .active).rput (.lnk p) 4 9 1 0).rput (.lnk q) 4 9 1 0
      let was := bitOf (s.rget (.lnk p) 4).toNat 7
      let s3 := if failed = 0 then s2.rput (.lnk p) 4 7 1 0
        else
          let s' := s2.rput (.lnk p) 4 7 1 1
          if was then s' else s'.linkRec p St.linkDegraded p 0 failed
      let s4 := (s3.report q p).report p p
      ((s4.gate p).moveQueues q p).drain p

/-- A lane loses lock (R249): an ACTIVE port retrains; in EQUALIZE or ALIGN the lane has failed, and the port goes DOWN unless width 3 is left. -/
def State.lockLoss (s : State) (p lane : Nat) : State :=
  let x := s.port p
  if x.st == .active || (x.st == .colt && lane == 0) then
    (s.modPort p fun y => { y with lostLanes := y.lostLanes ||| 2 ^ lane }).retrain p
  else if x.st == .equalize || x.st == .align then
    let s1 := s.rput (.lnk p) 0x18 8 6 (s.failedLanes p ||| 2 ^ lane)
    if lanesFor (s1.failedLanes p) = 0 ∨ !bitOf (s.rget (.lnk p) 8).toNat 1 then s1.trainFailed p else s1
  else s

/-- A lane loses lock. -/
def execLaneLockLoss (port : Fin 8) (lane : Fin 6) (s : State) : Host.Outcome State Fault Refusal := .next (s.lockLoss port lane)

/-- A port is not ACTIVE within TRAIN_TMO (R247). -/
def execTrainTmo (port : Fin 8) (s : State) : Host.Outcome State Fault Refusal :=
  match (s.port port).st with
  | .detect | .equalize | .align | .identify => .next (s.trainFailed port)
  | _ => .next s

/-- The power grant unit asks for COLT on a port (R250). -/
def State.wantColt (s : State) (p : Nat) : State :=
  let x := s.port p
  if x.st ≠ .active then s
  else
    let s1 := (s.modPort p fun y => { y with coltWanted := true }).emit (.link p 3 [])
    (if x.coltAsked then s1.emit (.link p 4 []) else s1).tryColt p

/-- COLT_REQ (R250): answered once the power grant unit has asked for COLT here too. -/
def execColtReq (port : Fin 8) (s : State) : Host.Outcome State Fault Refusal :=
  let x := s.port port
  if x.st ≠ .active then .next s
  else
    let s1 := s.modPort port fun y => { y with coltAsked := true }
    .next ((if x.coltWanted then s1.emit (.link port 4 []) else s1).tryColt port)

/-- COLT_ACK completes entry to COLT (R250). -/
def execColtAck (port : Fin 8) (s : State) : Host.Outcome State Fault Refusal :=
  if (s.port port).st ≠ .active ∨ !(s.port port).coltWanted then .next s
  else .next ((s.modPort port fun y => { y with coltAsked := true }).tryColt port)

/-- HANDOVER (R252): `failed` is the neighbour's port, which `LNK_PEER` pairs with one of the dimension's ports here. -/
def execHandover (port failed : Fin 8) (lastSeq : Nat) (s : State) : Host.Outcome State Fault Refusal :=
  if !(s.port port).up then .next s
  else
    let mine := if s.rfield (.lnk port) 0x14 8 3 = failed.val then port.val else otherPort port
    .next (s.handover port mine lastSeq)

/-- `LNK_CMD.RETRAIN` (R248). -/
def execLnkCmdRetrain (by_ : Agent) (port : Fin 8) (s : State) : Host.Outcome State Fault Refusal :=
  .next (s.writeAs by_ (.lnk port) 0x10 fun s => s.retrain port)

/-- `LNK_CMD.DISABLE` (R247, R252, R273): traffic is handed over and the port held. -/
def State.disable (s : State) (p : Nat) : State :=
  let s1 := if (s.port p).up then s.leaveActive p .disabled else s.portTo p .disabled
  s1.modPort p fun x => { x with wasActive := false }

/-- `LNK_CMD.DISABLE`. -/
def execLnkCmdDisable (by_ : Agent) (port : Fin 8) (s : State) : Host.Outcome State Fault Refusal :=
  .next (s.writeAs by_ (.lnk port) 0x10 fun s => s.disable port)

/-- `LNK_CMD.ENABLE` (R247): from DISABLED to DOWN. -/
def State.enable (s : State) (p : Nat) : State := if (s.port p).st = .disabled then s.portTo p .down else s

/-- `LNK_CMD.ENABLE`. -/
def execLnkCmdEnable (by_ : Agent) (port : Fin 8) (s : State) : Host.Outcome State Fault Refusal :=
  .next (s.writeAs by_ (.lnk port) 0x10 fun s => s.enable port)

end Sys2Proof.Machine
end

