-- ==== Sys2Proof/Machine/PowerBase.lean ====
section
/-! DEFINITION. The budgeted power of the device (R333, R343), the limit in force and its reasons (R334, R353). -/

namespace Sys2Proof.Machine

/-- Units of budgeted power in a watt: 1/16 W of F, 1/1,024 of `SCALE` and 1/13,500,000 of k, so that P_b is exact (R333). -/
def wattUnit : Nat := 16 * 1024 * 13500000

/-- The operating points (R343): the clock in units of 0.1 GHz and the table voltage in mV. -/
def opPoints : List (Nat × Nat) :=
  [(10, 600), (12, 615), (14, 630), (16, 650), (18, 670), (20, 695), (22, 720), (24, 750), (26, 800)]

/-- k of a point in units of 1/13,500,000: (f ÷ 2.4) × (V ÷ 750)² with f in GHz (R343). -/
def pointK (p : Nat) : Nat :=
  let e := opPoints.getD p (24, 750)
  e.1 * e.2 * e.2

/-- F of a charge code in 1/16 W (R333): the floor, then A0 to A3. -/
def classF (code : Nat) : Nat := [63, 131, 194, 256, 350].getD code 63

/-- The operating point in force (R362). -/
def State.point (s : State) : Nat := s.rfield (.pwr 0) 0x28 24 4

/-- The k that P_b uses: during a change the larger of the two points' (R345). -/
def State.kNow (s : State) : Nat :=
  match s.pwr.target with
  | some p => max (pointK s.point) (pointK p)
  | none => pointK s.point

/-- P_b in parts of a watt (`wattUnit`) with the given k and charge codes (R333). -/
def State.budget (s : State) (k : Nat) (charge : Nat → Nat) : Nat :=
  let cores := (List.range 48).filter fun c => !(s.core c).fenced
  s.ffield (.pwr 0) 0x14 0 11 * wattUnit + (cores.map fun c => classF (charge c)).sum * k * s.ffield (.pwr 0) 0x18 0 12

/-- The charges that the unit keeps (R333, R339). -/
def State.charges (s : State) (c : Nat) : Nat := (s.core c).charge

/-- P_b now. -/
def State.pb (s : State) : Nat := s.budget s.kNow s.charges

/-- L in W (R334). -/
def State.limit (s : State) : Nat := s.rfield (.pwr 0) 0x20 0 11

/-- P_b fits a limit in W. -/
def fitsW (pb limit : Nat) : Bool := decide (pb ≤ limit * wattUnit)

/-- `PWR_CTRL.MODE` in force (R344). -/
def State.pmode (s : State) : Nat := s.ffield (.pwr 0) 8 0 2

/-- The charges with every waiting request granted (R344). -/
def State.chargesAll (s : State) (c : Nat) : Nat :=
  match s.pwr.queue.find? (·.core == c) with
  | some q => q.cls
  | none => s.charges c

/-- The point that a mode selects under a limit (R344): the highest of its points at which P_b with every waiting request granted fits, or 0. -/
def State.selectPoint (s : State) (mode limit : Nat) : Nat :=
  if mode = 0 then 7
  else
    let top := if mode = 2 then 4 else 8
    (((List.range (top + 1)).filter fun p => fitsW (s.budget (pointK p) s.chargesAll) limit).getLast?).getD 0

/-- Some core is throttled (R353): it waits for leave, it runs demoted, or in ADAPTIVE and EFFICIENT the device runs below the point that it would
select under 1,400 W with no mode cap. -/
def State.throttled (s : State) : Bool :=
  !s.pwr.queue.isEmpty || (List.range 48).any (fun c => (s.core c).demoted.isSome) ||
    (s.pmode != 0 && decide (s.point < s.selectPoint 1 1400))

/-- The reasons that apply now (R353), in the bit order of `PWR_REASON`. -/
def State.reasons (s : State) : Nat :=
  let share := s.rfield (.pwr 0) 0x10 0 11
  let own := s.rfield (.pwr 0) 0x10 16 11
  let sus := s.ffield (.pwr 0) 0xC 0 11
  let t := s.pwr.term
  let on := s.throttled
  let leave := t == 0 || (t == 2 && own == share && share == sus)
  let shift := t == 2 && decide (own < share)
  let host := t == 1 || (t == 2 && decide (share < sus))
  b01 (on && leave) + 2 * b01 (on && (t == 3 || s.pwr.hot)) + 4 * b01 (on && t == 4) + 8 * b01 (on && shift) + 16 * b01 (on && host) +
    32 * b01 (on && bitOf (s.rget (.pwr 0) 4).toNat 4) + 64 * b01 ((List.range 48).any fun c => (s.core c).stretching)

/-- `PWR_REASON.SEEN` takes the reasons that apply (R362). -/
def State.noteReasons (s : State) : State := s.ror (.pwr 0) 0x34 (s.reasons * 2 ^ 16)

end Sys2Proof.Machine
end

