-- ==== Sys2Proof/Machine/RegAccess.lean ====
section
/-! DEFINITION. Register accesses: the values that registers show (R9, R10, R12, R14 and the register maps), the writes that they take
(R11 to R13), and the loads and stores of threads (R30, R148, R164). -/

namespace Sys2Proof.Machine

/-! ### What registers show -/

/-- The code that `PWR_GRANT_i.CORE_j` and `CORE_STATUS.CHARGE` show for a core (R32, R362). -/
def State.chargeCode (s : State) (c : Nat) : Nat :=
  let x := s.core c
  if x.fenced then 7 else if s.pwr.queue.any (·.core == c) then 6 else if x.lent then 5 else x.charge

/-- The context that owns a core's slice is frozen (R214). -/
def State.sliceFrozen (s : State) (c : Nat) : Bool :=
  (List.range 4).any fun k => (s.ctx k).any fun x => x.frozen && x.id == (s.core c).owner

/-- `TSQ_THREAD` (R120). -/
def State.threadStates (s : State) (c : Nat) : Nat :=
  ((List.range 16).map fun t =>
    let frozen := (s.core c).saved.any fun e => (e.2.2.getD t Thread.empty).watch.isSome
    let v := if ((s.core c).thread t).watch.isSome then 2 else if s.threadIssuing c t then 1 else if frozen then 3 else 0
    v * 4 ^ t).sum

/-- Tags reserved on a core (R184, R196): by its running program and by persistent streams of others. -/
def State.tagsReserved (s : State) (c : Nat) : Nat :=
  let run := (s.coreCtx c).bind (·.run)
  let cur := (run.map (·.index)).getD 0
  ((run.map (·.prog.tags)).getD 0) +
    ((((s.core c).streams.filter fun e => e.2.persist && !(run.isSome && e.2.prog == cur)).map (·.2.tagCnt)).sum)

/-- `HEN_BAR_b_STATE` (R220). -/
def CoreBar.stateWord (b : CoreBar) : Nat :=
  put b.gen 0 16 + put b.st.code 16 3 + put (b01 b.credit) 19 1 + put (if b.credit then b.cmax else 0) 20 8

/-- `HEN_BAR_b_COUNT` (R220). -/
def CoreBar.countWord (b : CoreBar) : Nat :=
  put b.parts 0 8 + put b.arrived 8 9 + put (if b.credit then b.consumed else 0) 17 8

/-- `DSP_n_STATE` (R222). -/
def Dispense.stateWord (d : Dispense) : Nat := put d.reclaim.length 0 10 + put d.st.code 10 3 + put d.outstanding.length 16 10

/-- `LNK_SLOT_s` of a port (R273). -/
def State.slotWord (s : State) (p i : Nat) : Nat :=
  match s.links.slots.find? (·.1 == 32 * p + i) with
  | none => 0
  | some (_, x) =>
    let st := if x.own.isSome && !x.words.isEmpty then 3 else if x.own.isSome then 1 else 2
    st + put x.ctx 2 2 + put x.step 4 3 + put (ceilDiv (4 * x.len) 1024) 8 9

/-- The highest debug level held (R408, R413). -/
def State.topLevel (s : State) : Nat :=
  if s.sec.fuses.lifecycle = 2 then 3 else (s.svc.sessions.map (·.level)).foldl max s.sec.tapLevel

/-- The first case of R402 holds. -/
def State.regenBlocked (s : State) : Bool :=
  !s.sec.regen && decide (32768 ≤ s.sec.leaf) && !s.sec.periodOpen && decide (s.sec.fuses.topUsed < 1024)

/-- The owner slots as a mask of a property. -/
def Fuses.ownerMask (f : Fuses) (p : Owner → Bool) : Nat := ((List.range 4).map fun i => b01 ((f.owners.toList[i]?).any p) * 2 ^ i).sum

/-- Valid remap entries of a die (R173). -/
def State.remaps (s : State) (d : Nat) : Nat := ((List.range 16).filter fun i => bitOf (s.rget (.ssr d) (0x80 + 4 * i)).toNat 31).length

/-- The value that a register shows (R12): the stored bits, and in place of them what the state of the unit gives. -/
def State.regView (s : State) (p : Page) (off : Nat) : Word :=
  let w := s.rget p off
  let nat := fun (n : Nat) => BitVec.ofNat 32 n
  match p with
  | .core c =>
    if off = 4 then
      withField (withField (withField (withField w 1 1 (b01 (s.core c).fenced)) 2 1 (b01 (s.core c).run.isSome)) 3 3 (s.chargeCode c)) 6 1
        (b01 (s.core c).selfTest)
    else w
  | .tsq c =>
    let run := (s.coreCtx c).bind (·.run)
    if off = 4 then
      let exh := run.any fun r => (List.range r.prog.sh.units).all fun u => ((s.core c).unit u).exhausted
      withField (withField (withField w 1 1 (b01 exh)) 2 1 (b01 ((s.coreCtx c).any (·.draining)))) 3 1 (b01 (s.sliceFrozen c))
    else if off = 0xC then
      match run with
      | some r => nat (put r.index 0 10 + put (((s.coreCtx c).map (·.id)).getD 0) 16 16)
      | none => w
    else if off = 0x10 then nat (s.threadStates c)
    else w
  | .str c =>
    let x := s.core c
    let halted := (x.streams.filter (·.2.halted.isSome)).length
    if off = 4 then withField w 1 1 (b01 (decide (0 < halted)))
    else if off = 0xC then nat (put (s.tagsReserved c) 0 9 + put ((x.streams.map (·.2.segs.length)).sum) 16 9)
    else if off = 0x10 then nat (put x.streams.length 0 7 + put halted 8 7 + put x.mules.length 16 5)
    else w
  | .hen c =>
    let x := s.core c
    if off = 4 then
      withField (withField (withField w 2 1 (b01 (x.bars.toList.any (·.st == .broken)))) 3 1 (b01 (s.sliceFrozen c))) 4 1 (b01 x.lent)
    else if off = 0x10 then nat (put x.owner 0 16 + put ((x.bars.toList.filter (·.st != .free)).length) 16 6)
    else if off = 0x14 then nat (((List.range 16).map fun t => b01 (x.thread t).watch.isSome * 2 ^ t).sum)
    else if 0x40 ≤ off ∧ off < 0x80 then (x.thread ((off - 0x40) / 4)).mbox
    else if 0x100 ≤ off ∧ off < 0x200 then
      let b := x.bar ((off - 0x100) / 8)
      nat (if off % 8 = 0 then b.stateWord else b.countWord)
    else w
  | .lamb c =>
    if off = 8 then nat (((((s.coreCtx c).bind (·.run)).bind fun r => shapeOf r.prog.shape).map (·.gang)).getD 0) else w
  | .heng 0 =>
    if off = 4 then withField w 2 1 (b01 (s.gbars.toList.any (·.st == .broken)))
    else if 0x10 ≤ off ∧ off < 0x20 then
      match s.ctx ((off - 0x10) / 4) with
      | some x => nat (put x.id 0 16 + 2 ^ 16 + 2 ^ 17 * b01 x.frozen)
      | none => 0
    else if 0x100 ≤ off ∧ off < 0x300 then
      let b := s.gbar ((off - 0x100) / 8)
      nat (if off % 8 = 0 then put b.gen 0 16 + put b.st.code 16 3 + put b.dims 20 6
        else put b.localParts 0 6 + put b.arrived 8 6 + put b.done 16 6)
    else w
  | .heng _ =>
    if off < 0x400 then
      let d := s.dsp (off / 16)
      match off % 16 with
      | 0 => nat d.count
      | 4 => nat d.next
      | 8 => nat d.stateWord
      | _ => nat (put d.prog 0 10 + put d.context 16 16)
    else w
  | .lnk q => if 0x200 ≤ off ∧ off < 0x280 then nat (s.slotWord q ((off - 0x200) / 4)) else w
  | .ssr d =>
    if off = 4 then withField w 2 5 (s.remaps d)
    else if off = 0xC then s.rget (.ssr 0) 0xC
    else w
  | .eth 0 => if off = 4 then withField w 3 1 (b01 (decide (s.svc.paused ≠ 0))) else w
  | .eth 3 =>
    if off = 4 then withField (withField (withField w 1 1 (b01 s.isHead)) 2 1 (b01 s.grp.headLost)) 3 5 s.svc.sessions.length else w
  | .pwr 0 =>
    if off = 0x34 then withField w 0 7 s.reasons
    else if off = 0x38 then nat (put s.pwr.queue.length 0 6 + put ((s.pwr.queue.filter (·.returning)).length) 8 6)
    else if off = 0x3C then nat (((List.range 4).map fun n => (160 + Config.ganderFuse n % 41) * 256 ^ n).sum)
    else if 0x40 ≤ off ∧ off < 0x54 then
      let i := (off - 0x40) / 4
      nat (((List.range 10).map fun j => if 10 * i + j < 48 then s.chargeCode (10 * i + j) * 8 ^ j else 0).sum)
    else w
  | .err =>
    if off = 4 then withField w 3 1 (b01 (decide (1024 ≤ s.err.log.length) && s.err.log.all fun l => !l.acked))
    else if off = 0x10 then nat (s.err.nextSeq - 1)
    else if off = 0x14 then nat ((s.err.nextSeq - 1) / 2 ^ 32)
    else if off = 0x28 then
      nat (put s.brd.gandersLost 0 4 + put (s.remaps 0) 8 5 + put (s.remaps 1) 13 5 + put s.brd.framesLost.length 18 10)
    else w
  | .sec =>
    let f := s.sec.fuses
    if off = 4 then
      withField (withField (withField (withField (withField w 1 2 s.topLevel) 3 1 (b01 s.sec.regen)) 4 1 (b01 (decide (960 ≤ f.topUsed)))) 5 1
        (b01 (decide (1024 ≤ f.topUsed)))) 6 1 (b01 s.regenBlocked)
    else if off = 0xC then nat f.topUsed
    else if off = 0x10 then nat s.sec.leaf
    else if off = 0x14 then nat (put s.sec.fwSvn 0 6 + put f.minSvn 8 6 + 2 ^ 16 * b01 s.sec.slotB)
    else if off = 0x18 then
      nat (f.ownerMask (·.programmed) + 16 * f.ownerMask (·.revoked) + 256 * b01 (bitOf (beAt s.sec.board 0 1) 0) +
        512 * b01 (decide (f.password ≠ 0)))
    else w
  | .aon =>
    if off = 0 then nat (s.sec.fuses.lifecycle % 4 + 0x100 + 0xD480 * 2 ^ 16)
    else if off = 0x10 then nat s.aonClk
    else if off = 0x14 then nat (s.aonClk / 2 ^ 32)
    else if 0x20 ≤ off ∧ off < 0x30 then nat (s.sec.fuses.uid / 2 ^ (32 * (3 - (off - 0x20) / 4)))
    else w
  | _ => w

/-- The offsets of a page at which a 64-bit value's low word lies (R14). -/
def Page.lows : Page → List Nat
  | .aon => [0x10]
  | .core _ => [0x10, 0x18, 0x28]
  | .lamb _ => [0x20, 0x28, 0x30, 0x38, 0x40, 0x48]
  | .tsq _ => [0x20, 0x28, 0x30, 0x38, 0x40, 0x48]
  | .vec _ => [0x20, 0x28, 0x30, 0x38, 0x40, 0x48]
  | .str _ => [0x20, 0x28, 0x30, 0x38, 0x40, 0x48, 0x50]
  | .hen _ => [0x20, 0x28, 0x30]
  | .cbuf _ => [0x20, 0x28, 0x30, 0x38, 0x40]
  | .mem _ => [0x10, 0x20, 0x28, 0x30, 0x38]
  | .ssr _ => [0x20, 0x28]
  | .heng 0 => [0x20, 0x28]
  | .lnk 0 => [0x20, 0x28, 0x30, 0x38, 0x40, 0x48, 0x50, 0x58, 0x108, 0x110]
  | .lnk _ => [0x20, 0x28, 0x30, 0x38, 0x40, 0x48, 0x50, 0x58]
  | .eth 0 => [0x40, 0x48, 0x50, 0x58, 0x60]
  | .eth 1 => [0x20, 0x28, 0x30, 0x38, 0x40]
  | .eth 3 => [0x20, 0x28, 0x30, 0x38, 0x40, 0x48]
  | .pwr 0 => [0x80, 0x88, 0x90, 0x98, 0xA0, 0xA8, 0xB0]
  | .pwr 1 => [0x00, 0x08, 0x10, 0x18, 0x20, 0x28, 0x30, 0x40, 0x48, 0x50, 0x58, 0x60]
  | .err => [0x10, 0x18, 0x20, 0x40, 0x48, 0x50, 0x58, 0x60, 0x68, 0x70, 0x78]
  | .sec => [0x20, 0x28]
  | _ => []

/-- The latch of an agent (R14): one for each core, each Gander core and the boundary-scan port. -/
def agentLatch : Agent → Nat
  | .thread c _ => c
  | .gander n => 48 + n
  | .tap => 52

/-- Read a word of register space (R9, R10, R14, R29, R30): the value and the state after it, with the latch of a 64-bit value's high word
set or spent. A gap reads as zero. -/
def State.regRead (s : State) (by_ : Agent) (a : Nat) : Word × State :=
  match Page.ofAddr a with
  | none => (0, s)
  | some (p, off) =>
    if !s.mayRead by_ p then (0, s.denied by_ a)
    else if off % 4 ≠ 0 then (0, s.reject p)
    else
      match p.row off with
      | none => (0, s)
      | some _ =>
        let l := agentLatch by_
        match s.latches.find? fun e => e.1 == l && e.2.1 == a with
        | some e => (e.2.2, { s with latches := s.latches.filter (·.1 != l) })
        | none =>
          if p.lows.contains off then
            (s.regView p off, { s with latches := s.latches.filter (·.1 != l) ++ [(l, a + 4, s.regView p (off + 4))] })
          else (s.regView p off, s)

/-! ### Writes -/

/-- Registers whose RWL fields a busy unit keeps (R12): a port that is neither DOWN nor DISABLED (R273), the Ethernet port while it is up
(R331). -/
def State.regBusy (s : State) : Page → Bool
  | .lnk q => !((s.port q).st == .down || (s.port q).st == .disabled)
  | .eth 0 => s.rfield (.eth 0) 4 1 2 != 0
  | _ => false

/-- Values that a register ignores with CFG_REJECT (R310, R331, R362): the value that is written in their place, and whether one was ignored. -/
def vetWrite (p : Page) (off : Nat) (old v : Word) : Word × Bool :=
  match p, off with
  | .eth 3, 8 => if field v.toNat 16 2 = 0 then (old, true) else (v, false)
  | .eth 0, 8 =>
    let m := field v.toNat 0 14
    if 1280 ≤ m ∧ m ≤ 9216 then (v, false) else (withField v 0 14 (field old.toNat 0 14), true)
  | .pwr 0, 8 => if field v.toNat 0 2 = 3 then (withField v 0 2 (field old.toNat 0 2), true) else (v, false)
  | _, _ => (v, false)

/-- The stored value after a write (R12): writable fields take it, W1C bits that it sets are cleared. -/
def RegDef.after (r : RegDef) (busy : Bool) (old v : Word) : Word :=
  let m := r.rw ||| r.rws ||| (if busy then 0 else r.rwl)
  ((old &&& ~~~m) ||| (v &&& m)) &&& ~~~(v &&& r.w1c)

/-- A write of `CORE_CMD` (R32): the self-test starts when no program runs on the core and it is not fenced. -/
def State.coreSelftest (s : State) (c : Nat) : State :=
  let x := s.core c
  if x.run.isSome || x.fenced then s.reject (.core c) else s.modCore c fun y => { y with selfTest := true }

/-- A write of `PWR_CAL` (R351, R362): mismatch budgeting ends and the window count starts anew. -/
def State.pwrCal (s : State) (v : Word) : State :=
  let s1 := s.rset (.pwr 0) 0x18 (v &&& 0xFFF)
  (s1.rput (.pwr 0) 4 4 1 0).rput (.pwr 0) 0x24 16 4 0

/-- A write of `HEN_DBG` (R218): the command, the barrier and the value. -/
def State.henCmd (s : State) (by_ : Agent) (c op b x : Nat) : State :=
  match op with
  | 0 => s
  | 1 => (s.henDbg by_ c b fun s => s.forceBar c b).endTiles c
  | 2 => (s.henDbg by_ c b fun s => s.setArrivals c b x).endTiles c
  | 3 => (s.henDbg by_ c b fun s => s.setConsumed c b x).endTiles c
  | 4 => (s.henDbg by_ c b fun s => s.breakBar c b).endTiles c
  | _ => s.reject (.hen c)

/-- A write of `HENG_DBG` (R218): the command and the group barrier. -/
def State.hengCmd (s : State) (by_ : Agent) (op g : Nat) : State :=
  match op with
  | 0 => s
  | 1 => s.hengDbg by_ g fun s => noteEnd g (s.gRelease g wmForced, true)
  | 4 => s.hengDbg by_ g fun s => s.breakGbar g
  | _ => s.reject (.heng 0)

/-- A write of `LNK_CMD` (R247): the command of a port. -/
def State.lnkCmd (s : State) (q op : Nat) : State :=
  match op with
  | 0 => s
  | 1 => s.retrain q
  | 2 => s.disable q
  | 4 => s.enable q
  | _ => s.reject (.lnk q)

/-- A write of a register that is an action (R12), or none when the register is no action. -/
def State.actionWrite (s : State) (by_ : Agent) (p : Page) (off : Nat) (v : Word) : Option State :=
  let n := v.toNat
  match p, off with
  | .core c, 8 => some (if bitOf n 0 then s.coreSelftest c else s)
  | .cbuf c, 0xC => some (if bitOf n 0 then s.invalidate c else s)
  | .str c, 0x1C => some (s.strResume c (field n 0 6))
  | .hen c, 0xC => some (s.henCmd by_ c (field n 5 3) (field n 0 5) (field n 8 8))
  | .heng 0, 0xC => some (s.hengCmd by_ (field n 8 3) (field n 0 6))
  | .lnk q, 0x10 => some (s.lnkCmd q (field n 0 3))
  | .pwr 0, 0x18 => some (s.pwrCal v)
  | _, _ => none

/-- A write of a word to a listed register (R11, R12). -/
def State.regStore (s : State) (by_ : Agent) (p : Page) (off : Nat) (r : RegDef) (v : Word) : State :=
  match s.actionWrite by_ p off v with
  | some s1 => s1
  | none =>
    if r.rw ||| r.rws ||| r.rwl ||| r.w1c ||| r.wo = 0 then s.reject p
    else
      let old := s.rget p off
      let busy := s.regBusy p
      let (v1, bad) := vetWrite p off old v
      let s1 := s.rset p off (r.after busy old v1)
      if bad || (busy && r.rwl != 0) then s1.reject p else s1

/-- Write a word of register space (R9 to R13, R29, R30). A gap ignores it. -/
def State.regWrite (s : State) (by_ : Agent) (a width : Nat) (v : Word) : State :=
  match Page.ofAddr a with
  | none => s
  | some (p, off) =>
    if !s.mayWrite by_ p then s.denied by_ a
    else if width ≠ 4 ∨ off % 4 ≠ 0 then s.reject p
    else
      match p.row off with
      | none => s.reject p
      | some r => s.regStore by_ p off r v

/-- A write to a register by an agent. -/
def execRegisterWrite (by_ : Agent) (addr : Nat) (width : Nat) (value : Word) (s : State) : Host.Outcome State Fault Refusal :=
  settled (s.regWrite by_ addr width value)

/-- A write of 1 to `CORE_CMD.SELFTEST` (R32). -/
def execCoreCmdSelftest (by_ : Agent) (core : Fin 48) (s : State) : Host.Outcome State Fault Refusal :=
  .next (s.writeAs by_ (.core core) 8 fun s => s.coreSelftest core)

/-- A write of `PWR_CAL` (R351). -/
def execPwrCalWrite (by_ : Agent) (value : Word) (s : State) : Host.Outcome State Fault Refusal :=
  .next (s.writeAs by_ (.pwr 0) 0x18 fun s => s.pwrCal value)

/-! ### Threads -/

/-- Words that hold `n` bytes at `a`. -/
def wordsOver (a n : Nat) : Nat := if n = 0 then 0 else (a % 4 + n + 3) / 4

/-- A refused access of a thread (R148, R149, R151): the record names the thread and the address. A peer that is a target raises its own
record for a fenced core. -/
def State.threadRefused (s : State) (c t st a : Nat) : State :=
  if st = St.unitFenced ∧ 2 ^ 48 ≤ a ∧ a / 2 ^ 48 % 64 ≠ s.devIndex then s else s.raiseCore c (0x20 + t) St.clsConfig st a 0

/-- A thread's load (R9, R30, R148 to R151, R164). -/
def State.threadLoad (s : State) (c : Fin 48) (t : Fin 16) (a bytes : Nat) (tagParity : Bool) : State :=
  let n := wordsOver a bytes
  match s.threadRefusal false a with
  | some st =>
    let s1 := (s.threadRefused c t st a).taintAll c [a]
    s1.emit (.loaded c t (List.replicate n ⟨0, true⟩))
  | none =>
    if regionOf (a % 2 ^ 48) = .reg then
      if bytes ≠ 4 then
        match Page.ofAddr (a % 2 ^ 48) with
        | some (p, _) => (if s.mayRead (.thread c t) p then s.reject p else s.denied (.thread c t) (a % 2 ^ 48)).emit (.loaded c t (List.replicate n ⟨0, false⟩))
        | none => s.emit (.loaded c t (List.replicate n ⟨0, false⟩))
      else
        let (w, s1) := s.regRead (.thread c t) (a % 2 ^ 48)
        s1.emit (.loaded c t [⟨w, false⟩])
    else
      let (ws, s1) := s.loadPieces c tagParity (n + 1) (a / 4 * 4) n
      s1.emit (.loaded c t ws)

/-- A thread's load. -/
def execThreadLoad (core : Fin 48) (thread : Fin 16) (addr bytes : Nat) (tagParity : Bool) (s : State) : Host.Outcome State Fault Refusal :=
  .next (s.threadLoad core thread addr bytes tagParity)

/-- A thread's store (R9, R30, R148 to R151, R154, R164). -/
def execThreadStore (core : Fin 48) (thread : Fin 16) (addr : Nat) (data : List Byte) (s : State) : Host.Outcome State Fault Refusal :=
  match s.threadRefusal true addr with
  | some st => .next (s.threadRefused core thread st addr)
  | none =>
    if regionOf (addr % 2 ^ 48) = .reg then
      settled (s.regWrite (.thread core thread) (addr % 2 ^ 48) data.length (BitVec.ofNat 32 (leNat data)))
    else .next (s.threadStore core addr data)

end Sys2Proof.Machine
end

