-- ==== Sys2Proof/Machine/Manage.lean ====
section
/-! DEFINITION. Management commands and queries on the device that they name: registers and memory (R297), configuration (R298), the group and
its commands (R299), telemetry (R358), the error log (R371), debug levels (R408 to R412) and images (R301 to R305). -/

namespace Sys2Proof.Machine

/-- `n` bytes that the spec leaves open. -/
def State.freeBytes (s : State) (n : Nat) : List Byte × State :=
  ((List.range n).map fun i => BitVec.ofNat 8 (Config.free (s.freeCtr + i)), { s with freeCtr := s.freeCtr + n })

/-- A device is a member of the group. -/
def State.isMember (s : State) (d : Nat) : Bool := if s.grp.formed then s.grp.members.testBit d else d == s.devIndex

/-- The debug level that a session holds on this device (R408). -/
def State.levelOf (s : State) (session : Nat) : Nat :=
  if s.sec.fuses.lifecycle = 2 then 3 else ((s.session session).map (·.level)).getD 0

/-! ### Registers (R297) -/

/-- A range of register words may be accessed at a level: on every page from Level 1 for reads and Level 2 for writes, else reads of `AON`. -/
def regRights (level : Nat) (write : Bool) (a n : Nat) : Bool :=
  if write then decide (2 ≤ level)
  else decide (1 ≤ level) || (List.range n).all fun i => (Page.ofAddr (a + 4 * i)).any (·.1 == Page.aon)

/-- Read words of register space in ascending order, with the latch of the Gander core that reads them. -/
def State.readRegs (s : State) (a n : Nat) : List Word × State :=
  (List.range n).foldl (init := ([], s)) fun r i =>
    let (w, s1) := r.2.regRead (.gander 0) (a + 4 * i)
    (r.1 ++ [w], s1)

/-- Write words of register space in ascending order. -/
def State.writeRegs (s : State) (a : Nat) (ws : List Word) : State :=
  ((List.range ws.length).zip ws).foldl (fun s p => s.regWrite (.gander 0) (a + 4 * p.1) 4 p.2) s

/-- The words of a register access lie in register space. -/
def regRange (a n : Nat) : Bool := decide (regBase ≤ a ∧ a + 4 * n ≤ regEnd)

/-! ### Memory (R297) -/

/-- Where the word of the reduction buffer window at an offset is kept for a router: a FREE slot's words (R264). -/
def redCell (port off : Nat) : Nat := 0xD000000000 + port * 0x800000 + off

/-- A word of the reduction buffer window (R264): the router of `RBUF_PORT`, the kept partial or the partner's words of its slot. -/
def State.redWord (s : State) (off : Nat) : PWord :=
  let port := s.ffield (.lnk 0) 0x100 16 3
  let i := off % 0x40000 / 4
  match s.links.slots.find? (·.1 == 32 * port + off / 0x40000) with
  | some (_, x) =>
    match x.own.bind (·[i]?) with
    | some w => w
    | none => ((x.words.find? (·.1 == i)).map (·.2)).getD (s.mem.deliver (redCell port off))
  | none => s.mem.deliver (redCell port off)

/-- Words of memory as Gander firmware reads them. -/
def State.gPeek (s : State) (a n : Nat) : List PWord :=
  (List.range n).map fun i =>
    let b := a + 4 * i
    if regionOf b = .redWin then s.redWord (b - 0xD000000000) else s.mem.deliver (s.phys b)

/-- Write words of memory as Gander firmware does; a slot of the reduction window that is not FREE keeps its words (R264). -/
def State.gPut (s : State) (a : Nat) (ws : List Word) : State :=
  if regionOf a = .redWin then
    let port := s.ffield (.lnk 0) 0x100 16 3
    ((List.range ws.length).zip ws).foldl (init := s) fun s p =>
      let off := a + 4 * p.1 - 0xD000000000
      if s.links.slots.any (·.1 == 32 * port + off / 0x40000) then s.reject (.lnk port)
      else { s with mem := s.mem.setWord (redCell port off) p.2 0 }
  else s.putWords a (ws.map fun w => ⟨w, false⟩)

/-- A range lies in a host input, host output or SCORE corpus region of an image held (R297). -/
def State.hostRange (s : State) (a n : Nat) : Bool :=
  s.svc.images.any fun g => (g.st == .active || g.st == .verified) &&
    (s.regions g).any fun r => (r.kind == 3 || r.kind == 4 || r.kind == 6) && decide (r.base ≤ a ∧ a + n ≤ r.base + r.len)

/-- Why Gander firmware cannot access an address (R148, R384). -/
def State.gRefusal (s : State) (a : Nat) : Option Nat :=
  match regionOf a with
  | .unmapped => some St.addrUnmapped
  | .reg => some St.addrNotPermitted
  | .opBuf c | .accum c => if (s.core c).fenced then some St.unitFenced else none
  | _ => none

/-- The status with which an access of `n` bytes fails at a level (R297). -/
def State.memStatus (s : State) (level : Nat) (write : Bool) (a n : Nat) : Option Nat :=
  if rangesMeet a n regBase (regEnd - regBase) then some St.addrNotPermitted
  else if 2 ≤ level ∨ (level = 1 ∧ !write) then (List.range (n / 4)).findSome? fun i => s.gRefusal (a + 4 * i)
  else if s.hostRange a n then none else some St.addrNotPermitted

/-- An unmapped access raises its record (R148). -/
def State.memRefused (s : State) (st a : Nat) : State :=
  if st = St.addrUnmapped ∨ st = St.unitFenced then s.raise (St.islGander 0) (s.newRec St.clsConfig st (unitGander 0) a 0) else s

/-- One bit for each word, set where it is poisoned (R297). -/
def poisonBits (ws : List PWord) : List Byte :=
  (List.range (ceilDiv ws.length 8)).map fun i =>
    BitVec.ofNat 8 (((List.range 8).map fun j => b01 ((ws[8 * i + j]?).any (·.poison)) * 2 ^ j).sum)

/-! ### The error log (R364, R371) -/

/-- The 64 bytes of a record (R364). -/
def ErrRec.bytes (r : ErrRec) : List Byte :=
  beBytes 6 r.rseq ++ beBytes 1 r.cls ++
    beBytes 1 (b01 (decide (1 < r.count)) + 2 * b01 r.loss + 4 * b01 r.accused + 8 * b01 r.hasCmd) ++ beBytes 2 r.status ++
    beBytes 1 r.device ++ beBytes 1 r.unit.kind ++ beBytes 1 r.unit.index ++ beBytes 1 r.unit.sub ++ beBytes 2 r.context ++
    beBytes 4 r.gseq ++ beBytes 4 r.count ++ beBytes 8 r.addr ++ beBytes 8 r.first ++ beBytes 8 r.last ++ beBytes 2 r.firstRep ++
    beBytes 2 r.lastRep ++ beBytes 8 r.detail ++ beBytes 1 r.action ++ beBytes 1 r.escal ++ zeros 2

/-- The records of the log by rising `RSEQ`. -/
def State.logByRseq (s : State) : List ErrRec := sortBy (fun a b => decide (a.rseq ≤ b.rseq)) (s.err.log.map (·.recd))

/-- ERROR_READ on this device (R371): records from the cursor on and the next cursor. -/
def State.errorRead (s : State) (cursor count : Nat) : List Byte :=
  let l := s.logByRseq
  let lost := match l.head? with
    | some r => decide (cursor < r.rseq)
    | none => false
  let out := (l.filter fun r => decide (cursor ≤ r.rseq)).take count
  let out1 := match out with
    | r :: rest => (if lost then { r with loss := true } else r) :: rest
    | [] => []
  let next := match out.getLast? with
    | some r => r.rseq + 1
    | none => cursor
  out1.flatMap ErrRec.bytes ++ beBytes 8 next

/-- The cores that the escalation records of the quiescing command name (R381). -/
def State.escalCores (s : State) : List Nat :=
  let gs := (s.svc.cmds.filter (·.quiesceAt.isSome)).map (·.gseq)
  (((s.err.log.map (·.recd)).filter fun r => r.hasCmd && gs.contains r.gseq && r.unit.kind == 0 && decide (0 < r.escal)).map (·.unit.index)).eraseDups

/-- A quiesced device whose self-tests are over returns to service, unless it has left the group (R381). -/
def State.returnToService (s : State) : State :=
  if s.brd.selftestAll && !((List.range 48).any fun c => (s.core c).selfTest) then
    { ((s.rclr .err 4 2).rput .aon 4 6 1 (b01 (s.grp.formed && !s.grp.headLost && !s.grp.left))) with grp := { s.grp with quiesced := s.grp.left }, brd := { s.brd with selftestAll := false } }
  else s

/-- ERROR_ACK on this device (R371, R381): records below the cursor are acknowledged; a quiesced device whose escalation is among them tests
the units named and returns to service. -/
def State.errorAck (s : State) (cursor : Nat) : State :=
  let ack := fun (l : LogSlot) => { l with acked := l.acked || decide (l.recd.rseq < cursor) }
  let s1 : State := { s with err := { s.err with log := s.err.log.map ack } }
  let s2 := (s1.rset .err 0x18 (BitVec.ofNat 32 cursor)).rset .err 0x1C (BitVec.ofNat 32 (cursor / 2 ^ 32 % 2 ^ 16))
  if s2.grp.quiesced && !s2.grp.left && decide (s2.brd.quiesceSeq < cursor) then
    let s3 := (s2.escalCores.filter fun c => !(s2.core c).fenced).foldl (fun s c => s.modCore c fun x => { x with selfTest := true }) s2
    ({ s3 with brd := { s3.brd with selftestAll := true } }).returnToService
  else s2

/-! ### Configuration (R298) -/

/-- A SET_CONFIG item breaks its rules (R298, R344, R349). -/
def State.itemBad (s : State) (i : Nat × List Byte) : Bool :=
  let v := beNat i.2
  let n := i.2.length
  match i.1 with
  | 0x01 => n != 18
  | 0x02 => n != 2 || v == 0
  | 0x10 => n != 2
  | 0x11 => n != 2
  | 0x12 => n != 2
  | 0x13 => n != 1
  | 0x14 => n != 1
  | 0x20 => n != 1 || decide (2 < v)
  | 0x21 => n != 4 || (v != 0 && !decide (s.grp.size * 600 ≤ v ∧ v ≤ s.grp.size * 1400))
  | _ => true

/-- The failure of a SET_CONFIG: the item (R298). A list that breaks off names the item after its last whole one as 0. -/
def State.configBad (s : State) (payload : List Byte) : Option Nat :=
  let r := cfgItems payload.length payload
  match r.1.find? s.itemBad with
  | some i => some i.1
  | none => if r.2 then none else some 0

/-- Apply one item on this device (R298). -/
def State.configItem (s : State) (session : Nat) (i : Nat × List Byte) : State :=
  let v := beNat i.2
  let cores := fun (p : Nat → Page) (lo w : Nat) => (List.range 48).foldl (fun s c => s.rput (p c) 8 lo w v) s
  match i.1 with
  | 0x01 => s.modSession session fun x => { x with notify := some v }
  | 0x02 => if s.isHead then s else (s.rput (.eth 3) 8 0 16 v).takeRws (.eth 3)
  | 0x10 => cores .hen 0 16
  | 0x11 => s.rput (.heng 0) 8 0 16 v
  | 0x12 => s.rput (.lnk 0) 0x100 0 16 v
  | 0x13 => cores .str 0 8
  | 0x14 => cores .str 8 8
  | 0x20 => s.rput (.pwr 0) 8 0 2 v
  | 0x21 => { s with pwr := { s.pwr with cap := v } }
  | _ => s

/-- Apply a SET_CONFIG. -/
def State.setConfig (s : State) (session : Nat) (payload : List Byte) : State :=
  (cfgItems payload.length payload).1.foldl (fun s i => s.configItem session i) s

/-! ### Queries of the group (R299, R358) -/

/-- The group part of GROUP_STATE. -/
def State.groupPart (s : State) : List Byte :=
  let act := (s.svc.images.filter fun g => g.st == .active).map (·.id)
  beBytes 1 s.grp.size ++ beBytes 1 s.grp.head ++ beBytes 1 s.groupByte ++ beBytes 1 s.sec.fuses.lifecycle ++ beBytes 4 s.grp.lastGseq ++
    (s.svc.queues.toList.flatMap fun q => beBytes 2 q.length) ++ (List.range 4).flatMap fun i => beBytes 4 (act.getD i 0)

/-- The dimensions whose edge is up. -/
def State.edgesUp (s : State) : Nat := ((List.range s.dims).map fun k => b01 (s.edgeUp k) * 2 ^ k).sum

/-- The IP address of this device, as an IPv6 address: its own, or its IPv4 address mapped (R311). -/
def State.ownIp (s : State) : Nat :=
  let v6 := (List.range 4).foldl (fun n i => n * 2 ^ 32 + (s.rget (.eth 0) (0x30 + 4 * i)).toNat) 0
  if v6 ≠ 0 then v6 else 0xFFFF * 2 ^ 32 + (s.rget (.eth 0) 0x24).toNat

/-- One member of GROUP_STATE: this device's own values, or what the head knows of another; what no message has told it is open. -/
def State.memberPart (s : State) (d : Nat) : List Byte × State :=
  let left := if d = s.devIndex then s.grp.left else s.grp.joins.any fun j => j.dev == d && j.left.isSome
  if d = s.devIndex then
    let cores := ((List.range 48).map fun c => b01 (s.core c).fenced * 2 ^ c).sum
    (beBytes 1 d ++ beBytes 1 (if left then 2 else if s.grp.quiesced then 1 else 0) ++ beBytes 6 cores ++ beBytes 1 s.brd.gandersLost ++
      beBytes 1 s.edgesUp ++ zeros 6 ++ beBytes 16 s.ownIp, s)
  else
    let (fb, s1) := s.freeBytes 25
    let st := if left then 2 else (fb.headD 0).toNat % 2
    (beBytes 1 d ++ beBytes 1 st ++ (fb.drop 1).take 8 ++ zeros 6 ++ fb.drop 9, s1)

/-- GROUP_STATE (R299). -/
def State.groupState (s : State) : List Byte × State :=
  ((List.range 64).filter s.isMember).foldl (init := (s.groupPart, s)) fun r d =>
    let (b, s1) := r.2.memberPart d
    (r.1 ++ b, s1)

/-- COMMAND_STATUS (R299), for one of the last 4,096 sequenced commands. -/
def State.commandStatus (s : State) (gseq : Nat) : Reply :=
  match s.cmd gseq with
  | none => Reply.plain St.commandUnknown
  | some c =>
    if 4096 ≤ (s.grp.lastGseq + 2 ^ 32 - gseq) % 2 ^ 32 then Reply.plain St.commandUnknown
    else
      ⟨St.ok, 0xFF, 0, beBytes 1 (if c.final then 3 else if c.state = 3 then 1 else c.state) ++ beBytes 1 c.cls ++ beBytes 2 c.context ++
        beBytes 2 c.reply.status ++ beBytes 1 c.reply.device ++ zeros 1 ++ beBytes 8 c.reply.detail ++ beBytes 4 c.session ++ beBytes 4 c.seq⟩

/-- The TELEMETRY block of this device as its state now gives it (R358). -/
def State.telemetryNow (s : State) : List Byte :=
  let f := fun (off lo w : Nat) => s.rfield (.pwr 0) off lo w
  let e := fun (off : Nat) => beBytes 8 (s.value64 (.pwr 1) off)
  beBytes 1 s.devIndex ++ beBytes 1 (f 4 1 2) ++ beBytes 1 (s.ffield (.pwr 0) 8 0 2) ++ beBytes 1 s.reasons ++ beBytes 2 (f 0x28 0 12) ++
    beBytes 2 (f 0x20 0 11) ++ beBytes 2 (f 0x20 16 11) ++ beBytes 2 (f 0x24 0 11) ++ beBytes 2 (f 0x30 0 10) ++ beBytes 1 (f 0x1C 16 7) ++
    beBytes 1 ((List.range 48).filter fun c => s.chargeCode c == 4).length ++
    (List.range 7).flatMap (fun r => beBytes 8 (s.value64 (.pwr 0) (0x80 + 8 * r))) ++ e 0 ++
    (List.range 4).flatMap (fun n => e (0x40 + 8 * n)) ++ e 0x60 ++ e 8

/-- The TELEMETRY block: as read at the last window end (R358); before the first, as it is. -/
def State.telemetry (s : State) : List Byte := s.pwr.telemetry.getD s.telemetryNow

/-! ### Debug levels (R408 to R412) -/

/-- A failed attempt at a debug level (R411): counted, with its SECURITY record. -/
def State.debugFailed (s : State) : State :=
  let n := (s.rget .sec 0x1C).toNat
  (s.rset .sec 0x1C (BitVec.ofNat 32 (min (n + 1) 8))).raise St.islAon (s.newRec St.clsSecurity St.authFailed unitSec 0 0)

/-- An attempt at a debug level succeeds: the count of failures is cleared (R411). -/
def State.debugOpened (s : State) : State := (s.rset .sec 0x1C 0).count48 .sec 0x28 1

/-- Attempts are no longer checked: eight failures in a row (R411). -/
def State.debugLocked (s : State) : Bool := decide (8 ≤ (s.rget .sec 0x1C).toNat)

/-- The Level 1 password matches (R409). -/
def State.passwordOk (s : State) (pw : List Byte) : Bool :=
  decide (s.sec.fuses.password ≠ 0) && decide (16 ≤ pw.length ∧ pw.length ≤ 64) &&
    Config.sha384 ([0x44, 0x58, 0x42, 0x2D, 0x50, 0x57, 0x31] ++ beBytes 16 s.sec.fuses.uid ++ pw) == s.sec.fuses.password

/-- A Level 2 signer is active (R410): the vendor while `VENDOR_DEBUG` is in force, or an owner slot that is programmed and not revoked. -/
def State.signerActive (s : State) (signer : Nat) : Bool :=
  if signer = 0 then bitOf (beAt s.sec.board 0 1) 0
  else decide (signer ≤ 4) && (s.sec.fuses.owners.toList[signer - 1]?).any fun o => o.programmed && !o.revoked

/-- The Level 2 challenge for an agent (R410): session 0 is the boundary-scan port. A new challenge replaces the agent's last one. -/
def State.challenge (s : State) (session : Nat) : List Byte × State :=
  let (rnd, s1) := s.freeBytes 32
  let b := rnd ++ beBytes 16 s.sec.fuses.uid ++ beBytes 1 s.devIndex ++ beBytes 1 s.sec.fuses.lifecycle ++ [2, 0] ++ beBytes 4 session ++
    beBytes 8 s.aonClk
  (b, s1.modSvc fun v => { v with challenges := v.challenges.filter (·.session != session) ++ [⟨session, b, s.aonClk⟩] })

/-- The agent has a challenge that is valid: one response within 60 s (R410). -/
def State.challengeValid (s : State) (session : Nat) : Bool :=
  s.svc.challenges.any fun c => c.session == session && decide (s.aonClk ≤ c.since + 6000000000)

/-- DEBUG_UNLOCK on the device that it names (R409 to R412); `proofOk` tells whether the response's keys and signatures verify. -/
def State.debugUnlock (s : State) (session : Nat) (p : List Byte) (proofOk : Bool) : Reply × State :=
  let level := beAt p 0 1
  if beAt p 2 1 ≠ s.devIndex then (Reply.plain St.ok, s)
  else if (s.session session).all (·.closing) then (⟨St.sessionUnknown, s.devIndex, 0, []⟩, s)
  else if level ≤ s.levelOf session then (Reply.plain St.ok, s)
  else if level = 2 ∧ beAt p 1 1 = 0 then
    let (b, s1) := s.challenge session
    (⟨St.ok, 0xFF, 0, b⟩, s1)
  else
    let ok := !s.debugLocked &&
      (if level = 1 then s.passwordOk (slice p 8 (beAt p 3 1))
       else s.challengeValid session && s.signerActive (beAt p 8 1) && proofOk)
    let s1 := if level = 2 then s.modSvc fun v => { v with challenges := v.challenges.filter (·.session != session) } else s
    if ok then (Reply.plain St.ok, (s1.debugOpened).modSession session fun x => { x with level := level })
    else (⟨St.authFailed, s.devIndex, 0, []⟩, s1.debugFailed)

/-- A challenge expires (R410). -/
def execChallengeExpiry (session : Nat) (s : State) : Host.Outcome State Fault Refusal :=
  let keep := fun (c : Challenge) => c.session != session || decide (s.aonClk < c.since + 6000000000)
  .next (s.modSvc fun v => { v with challenges := v.challenges.filter keep })

/-! ### Images (R301 to R305) -/

/-- The failure of an IMAGE_BEGIN (R302). -/
def State.imageBeginBad (s : State) (p : List Byte) : Option Nat :=
  let id := beAt p 0 4
  let base := beAt p 8 8
  let n := beAt p 16 8
  if p.length ≠ 24 then some St.paramInvalid
  else if 4 ≤ s.svc.images.length then some St.imageSlotsFull
  else if beAt p 4 1 ≠ s.grp.size ∨ id = 0 ∨ (s.image id).isSome ∨ n % 1024 ≠ 0 ∨ base % 0x200000 ≠ 0 ∨ 0x1FFFFFE000 < base + n ∨
      beAt p 5 3 ≠ 0 then some St.paramInvalid
  else if s.svc.images.any fun g => (s.heldRanges g).any fun r => rangesMeet base n r.1 r.2 then some St.imageRegionBusy
  else none

/-- IMAGE_BEGIN opens a transfer (R302). -/
def State.imageBegin (s : State) (p : List Byte) : State :=
  s.modSvc fun v => { v with images := v.images ++
    [{ id := beAt p 0 4, groupSize := beAt p 4 1, base := beAt p 8 8, partBytes := beAt p 16 8, st := .loading, got := [], digest := 0
       gseq := 0 }] }

/-- The failure of a command that moves an image from one state (R301). -/
def State.imageBad (s : State) (p : List Byte) (ok : ImageSt → Bool) : Option Nat :=
  if p.length ≠ 4 then some St.paramInvalid
  else
    match s.image (beAt p 0 4) with
    | none => some St.imageUnknown
    | some g => if ok g.st then none else some St.imageStateInvalid

/-- The SHA-384 of an image's manifest: header and body (R391, R404). -/
def State.manifestDigest (s : State) (g : Image) : Nat := Config.sha384 (s.part g 0 (256 + beNat (s.part g 12 4)))

/-- The checks of a commit are over on this device (R304): its own outcome is told, and the image is VERIFIED or FAILED. -/
def State.commitDone (s : State) (id : Nat) (sigOk : Bool) : State :=
  match s.image id with
  | none => s
  | some g =>
    let f := s.loadFault g sigOk
    let r : Reply := match f with
      | none => Reply.plain St.ok
      | some x => ⟨x.status, s.devIndex, x.detail, []⟩
    let s1 := s.modImage id fun x => { x with
      st := if x.st = .verifying then (if f.isNone then .verified else .failed) else x.st
      digest := s.manifestDigest x }
    s1.mgmtOwn g.gseq r

/-- The checks of a commit are over. -/
def execCommitChecksDone (image : Nat) (sigOk : Bool) (s : State) : Host.Outcome State Fault Refusal :=
  match s.image image with
  | none => .next s
  | some g => if (s.cmd g.gseq).any (fun c => c.opcode == 0x22 && !c.ownDone) then settled (s.commitDone image sigOk) else .next s

end Sys2Proof.Machine
end

