-- ==== Sys2Proof/Machine/RunCmd.lean ====
section
/-! DEFINITION. Run commands as they are sequenced: the checks of EXEC (R296, R441), PREFILL (R314 to R316) and SCORE (R329, R330), tokenizing
(R314), cancelling (R294, R319), and the application of sequenced commands on every device (R287, R288). -/

namespace Sys2Proof.Machine

/-- `n` bytes at `off` are zero. -/
def isZero (p : List Byte) (off n : Nat) : Bool := (slice p off n).all (· == 0)

/-- An image that is ACTIVE (R301). -/
def State.activeImage (s : State) (id : Nat) : Option Image := (s.image id).filter fun g => g.st == .active

/-- A failure with no place. -/
def Reply.fail (status : Nat) : Option Reply := some (Reply.plain status)

/-! ### EXEC -/

/-- The largest `ALIGN` among the tensors that the programs of a schedule bind to a slot (R441). -/
def State.slotAlign (s : State) (g : Image) (c : Sched) (slot : Nat) : Nat :=
  (c.steps.flatMap fun t => ((s.prog g t.prog).tensors.filter fun x => x.bind == slot).map (·.align)).foldl max 0

/-- A base that the host binds to a declared slot fails the run-time test (R441). -/
def State.baseBad (s : State) (g : Image) (c : Sched) (d : SlotDecl) (base : Nat) : Bool :=
  let first := if d.tier = 1 then sramBase else 0
  base % 2 ^ s.slotAlign g c d.slot != 0 || !decide (first ≤ base ∧ base + d.base ≤ PlanCtx.tierEnd s.poolEnd d.tier)

/-- The bytes of an EXEC payload that are reserved (R296). -/
def payloadReserved (p : List Byte) : Bool :=
  let nb := beAt p 10 1
  let ns := beAt p 11 1
  let rec_ := fun (i : Nat) => 16 * (1 + i)
  decide (3 < beAt p 0 1) || !isZero p 1 3 || !isZero p 14 2 || (List.range nb).any (fun i => !isZero p (rec_ i + 1) 7) ||
    (List.range ns).any (fun i => !isZero p (rec_ (nb + i) + 12) 4) ||
    (List.range (beAt p 12 2)).any fun i => !isZero p (rec_ (nb + ns + i) + 4) 4

/-- The failure of an EXEC as it is sequenced (R296, R307, R441). -/
def State.execBad (s : State) (p : List Byte) : Option Reply :=
  if p.length < 16 then Reply.fail St.paramInvalid
  else
    match s.activeImage (beAt p 4 4) with
    | none => Reply.fail St.imageNotActive
    | some g =>
      let nb := beAt p 10 1
      let ns := beAt p 11 1
      let nh := beAt p 12 2
      let j := beAt p 8 2
      let c := s.sched g j
      let bs := payloadBinds p
      let slots := bs.map (·.1)
      let decl := fun (i : Nat) => c.slots.find? fun d => d.slot == i && d.source == 0
      if p.length ≠ 16 * (1 + nb + ns + nh) ∨ ns = 0 ∨ 64 < ns ∨ 4096 < nh then Reply.fail St.paramInvalid
      else if payloadReserved p || decide (s.nScheds g ≤ j) || c.kind != 0 then Reply.fail St.paramInvalid
      else if slots.eraseDups.length ≠ slots.length ∨ slots.any (fun i => (decl i).isNone) ∨
          (payloadPages p).any (fun h => decide (262144 ≤ h.1)) then Reply.fail St.paramInvalid
      else
        match c.slots.find? fun d => d.source == 0 && !slots.contains d.slot with
        | some d => some ⟨St.bindingMissing, 0xFF, d.slot, []⟩
        | none =>
          match bs.find? fun b => (decl b.1).any fun d => s.baseBad g c d b.2 with
          | some b => some ⟨St.paramInvalid, 0xFF, b.1, []⟩
          | none => none

/-! ### Tokenizing (R314) -/

/-- The code points of a text, each with its bytes, or the offset of the first ill-formed sequence; `fuel` is at least the number of bytes. -/
def utf8 : Nat → Nat → List Byte → Except Nat (List (Nat × List Byte))
  | 0, _, _ => .ok []
  | _ + 1, _, [] => .ok []
  | fuel + 1, off, b :: t =>
    let x := b.toNat
    let n := if x < 0x80 then 1 else if x < 0xC2 then 0 else if x < 0xE0 then 2 else if x < 0xF0 then 3 else if x < 0xF5 then 4 else 0
    let tail := (b :: t).take n |>.drop 1
    let lead := match n with
      | 1 => x
      | 2 => x % 32
      | 3 => x % 16
      | _ => x % 8
    let cp := tail.foldl (fun a c => 64 * a + c.toNat % 64) lead
    let ok := n != 0 && tail.length + 1 == n && tail.all (fun c => c.toNat / 64 == 2) &&
      (match n with
        | 3 => decide (0x800 ≤ cp) && !decide (0xD800 ≤ cp ∧ cp ≤ 0xDFFF)
        | 4 => decide (0x10000 ≤ cp ∧ cp ≤ 0x10FFFF)
        | _ => true)
    if ok then (utf8 fuel (off + n) ((b :: t).drop n)).map fun l => (cp, (b :: t).take n) :: l else .error off

/-- The class of a code point: that of its range, or 0. -/
def TokTable.classOf (t : TokTable) (cp : Nat) : Nat := ((t.ranges.find? fun r => decide (r.1 ≤ cp ∧ cp ≤ r.2.1)).map (·.2.2)).getD 0

/-- Cut code points into pieces, as bytes: between two whose classes differ and are not joined. -/
def TokTable.pieces (t : TokTable) : List (Nat × List Byte) → List (List Byte)
  | [] => []
  | [a] => [a.2]
  | a :: b :: rest =>
    let more := TokTable.pieces t (b :: rest)
    let ca := t.classOf a.1
    let cb := t.classOf b.1
    if ca ≠ cb ∧ !t.joins ca cb then a.2 :: more
    else
      match more with
      | p :: ps => (a.2 ++ p) :: ps
      | [] => [a.2]

/-- The rank of a pair of tokens: the lowest listed. -/
def TokTable.rank (t : TokTable) (a b : Nat) : Option Nat := t.merges.findIdx? fun m => m.1 == a && m.2.1 == b

/-- The lowest rank of an adjacent pair. -/
def TokTable.best (t : TokTable) (l : List Nat) : Option Nat :=
  ((l.zip (l.drop 1)).filterMap fun p => t.rank p.1 p.2).foldl (fun m r => match m with | none => some r | some x => some (min x r)) none

/-- Merge the leftmost pair of a rank. -/
def TokTable.mergeAt (t : TokTable) (r : Nat) : List Nat → List Nat
  | [] => []
  | [a] => [a]
  | a :: b :: rest =>
    if t.rank a b = some r then ((t.merges[r]?).map (·.2.2)).getD 0 :: rest else a :: TokTable.mergeAt t r (b :: rest)

/-- Merge until no adjacent pair is listed; `fuel` is at least the number of tokens. -/
def TokTable.mergeAll (t : TokTable) : Nat → List Nat → List Nat
  | 0, l => l
  | fuel + 1, l =>
    match t.best l with
    | none => l
    | some r => TokTable.mergeAll t fuel (t.mergeAt r l)

/-- The tokens of a text, or the byte offset at which it is not UTF-8. -/
def TokTable.encode (t : TokTable) (text : List Byte) : Except Nat (List Nat) :=
  (utf8 (text.length + 1) 0 text).map fun cps =>
    (t.pieces cps).flatMap fun p => t.mergeAll p.length (p.map (·.toNat))

/-- The tokenizer tables of an image, when it has some (R306, R308). -/
def State.tokTable (s : State) (g : Image) : Option TokTable :=
  let r := s.dirRegion g 128
  if r.2 = 0 then none else some (parseTok (s.part g r.1 r.2))

/-! ### PREFILL -/

/-- Big-endian words of a payload. -/
def wordsAt (p : List Byte) (off n : Nat) : List Nat := (List.range n).map fun i => beAt p (off + 4 * i) 4

/-- A PREFILL payload (R315); `ids` tells that the body holds token IDs. -/
def parsePrompt (p : List Byte) (ids : Bool) (holdUs : Nat) : Prompt :=
  let nh := beAt p 2 2
  let np := beAt p 96 2
  let nq := beAt p 98 2
  let o := 128 + 16 * nh
  let body := p.drop (o + 4 * (np + nq))
  let pre := wordsAt p o np
  let post := wordsAt p (o + 4 * np) nq
  { flags := beAt p 1 1, imageId := beAt p 4 4, requestId := beAt p 8 8, rxAddr := beAt p 16 16, serviceId := beAt p 32 8
    kvOff := beAt p 40 8, tokStride := beAt p 48 4, headStride := beAt p 56 8, layerStride := beAt p 64 8, prefixLen := beAt p 72 4
    maxHold := if beAt p 76 4 = 0xFFFFFFFF then holdUs else beAt p 76 4, temp := BitVec.ofNat 32 (beAt p 80 4), sampleK := beAt p 84 1
    seed := slice p 88 8, pages := (List.range nh).map fun i => (beAt p (128 + 16 * i) 4, beAt p (136 + 16 * i) 8), pre := pre, post := post
    text := if ids then [] else body, tokens := if ids then some (pre ++ wordsAt body 0 (body.length / 4) ++ post) else none
    expired := false, chunkFirst := 0, chunkTokens := 0, chunkStart := 0, chunkEnd := 0, shards := 1, shardFirst := 0, shardCount := 0
    lastShard := false, firstToken := none, cancelled := false }

/-- A temperature lies from 0 to 16 (R315). -/
def tempOk (w : Word) : Bool := decide (w.toNat ≤ 0x41800000) || w == 0x80000000

/-- The field of a PREFILL head out of its range, or its TOTAL wrong (R315, R316). -/
def prefillShape (p : List Byte) (d : Descr) : Bool :=
  let nh := beAt p 2 2
  let np := beAt p 96 2
  let nq := beAt p 98 2
  let o := 128 + 16 * nh + 4 * (np + nq)
  decide (beAt p 0 1 ≤ 3 ∧ beAt p 1 1 ≤ 7 ∧ nh ≤ 4096 ∧ np ≤ 256 ∧ nq ≤ 256 ∧ o ≤ p.length ∧ beAt p 40 8 % 64 = 0 ∧ beAt p 48 4 % 64 = 0 ∧
    2 * d.halfBytes ≤ beAt p 48 4 ∧ 1 ≤ beAt p 84 1 ∧ beAt p 84 1 ≤ 64) && tempOk (BitVec.ofNat 32 (beAt p 80 4)) &&
    (!bitOf (beAt p 1 1) 0 || (p.length - o) % 4 == 0) && isZero p 52 4 && isZero p 85 3 && isZero p 100 28 &&
    (List.range nh).all fun i => isZero p (132 + 16 * i) 4 && decide (beAt p (128 + 16 * i) 4 < 262144)

/-- Host pages cover the prefix (R316): a position takes K and V of each held head of each layer. -/
def State.prefixCovered (s : State) (d : Descr) (q : Prompt) : Bool :=
  decide (q.prefixLen * (d.layers * (d.heads s.devIndex).2 * 2 * d.halfBytes) ≤ q.pages.length * frameBytes)

/-- A prompt's tokens pass R314 and R316: counts, IDs and length. -/
def State.tokensBad (s : State) (g : Image) (d : Descr) (q : Prompt) : Option Reply :=
  let ts := q.tokens.getD []
  if ts.isEmpty then Reply.fail St.paramInvalid
  else
    match ts.findIdx? fun t => decide (d.vocab ≤ t) with
    | some i => some ⟨St.paramInvalid, 0xFF, i, []⟩
    | none =>
      let b := s.shardsOf d q
      let most := s.schedMaxLen g (s.sched g d.schedule)
      let fits := if b = 1 then decide (q.prefixLen + ts.length ≤ most) else shardsFit (shardBounds d ts.length b) most
      if fits then none else Reply.fail St.lengthExceedsPlan

/-- The failure of a PREFILL as it is sequenced (R314 to R316): a text's own tokens are checked after tokenizing. -/
def State.prefillBad (s : State) (p : List Byte) : Option Reply :=
  if p.length < 128 then Reply.fail St.paramInvalid
  else
    match s.activeImage (beAt p 4 4) with
    | none => Reply.fail St.imageNotActive
    | some g =>
      match s.descr g with
      | none => Reply.fail St.imageNotActive
      | some d =>
        let ids := bitOf (beAt p 1 1) 0
        let q := parsePrompt p ids d.holdUs
        if !prefillShape p d || !s.prefixCovered d q || (!ids && (s.tokTable g).isNone) then Reply.fail St.paramInvalid
        else if ids then s.tokensBad g d q
        else if q.text.isEmpty then s.tokensBad g d { q with tokens := some (q.pre ++ q.post) }
        else
          match (q.pre.findIdx? fun t => decide (d.vocab ≤ t)) with
          | some i => some ⟨St.paramInvalid, 0xFF, i, []⟩
          | none => none

/-! ### SCORE -/

/-- The failure of a SCORE as it is sequenced (R329, R330). -/
def State.scoreBad (s : State) (p : List Byte) : Option Reply :=
  if p.length < 64 then Reply.fail St.paramInvalid
  else
    match (s.activeImage (beAt p 4 4)).bind fun g => (s.descr g).map fun d => (g, d) with
    | none => Reply.fail St.imageNotActive
    | some (g, d) =>
      match (s.regions g).find? (·.kind == 6) with
      | none => Reply.fail St.imageNotActive
      | some r =>
        if d.scoreSchedule = 0xFFFF then Reply.fail St.imageNotActive
        else
          let metric := beAt p 1 1
          let fmt := beAt p 2 1
          let dim := beAt p 8 4
          let nq := beAt p 12 1
          let nc := beAt p 16 4
          let rows := beAt p 20 4
          let fmtOk := if metric = 5 then fmt == 5 else fmt == 0 || fmt == 2 || fmt == 3
          let ok := decide (beAt p 0 1 ≤ 3 ∧ 1 ≤ beAt p 3 1 ∧ beAt p 3 1 ≤ 64 ∧ dim ≠ 0 ∧ dim % 64 = 0 ∧ 1 ≤ nq ∧ nq ≤ 64 ∧ nc ≤ 1048576 ∧
              p.length = 64 + nq * dim + 4 * nc ∧ ceilDiv rows (max s.grp.size 1) * dim ≤ r.len) &&
            [0, 1, 2, 5].contains metric && fmtOk && isZero p 13 3 && isZero p 24 40 &&
            (wordsAt p (64 + nq * dim) nc).all fun c => decide (c < rows)
          if ok then none else Reply.fail St.paramInvalid

/-! ### CANCEL (R294, R319) -/

/-- Every tile of a command is finished everywhere, as far as this device knows: at the head by the members' news, or since the first token has
been chosen, which follows the last program's end everywhere. -/
def State.tilesDoneAll (s : State) (c : CmdRec) : Bool :=
  let ended := match s.promptCtx c.gseq with
    | some (_, x) => s.tilesOver x
    | none => c.ownDone
  let told := c.prompt.any (·.firstToken.isSome)
  if s.isHead then ended && (told || (c.doneMask ||| 2 ^ s.devIndex) &&& s.memberMask == s.memberMask) else told

/-- Apply a CANCEL on this device (R294, R319, R380): its own outcome and the state after it. `host` tells a host's CANCEL from the reset that
follows a failure elsewhere. -/
def State.cancel (s : State) (t : Nat) (host : Bool) : Reply × State :=
  let gone := Reply.plain St.cancelled
  match s.cmd t with
  | none => (Reply.plain St.commandUnknown, s)
  | some c =>
    if !c.run ∨ 4096 ≤ (s.grp.lastGseq + 2 ^ 32 - t) % 2 ^ 32 then (Reply.plain St.commandUnknown, s)
    else if c.final ∨ s.tilesDoneAll c then (Reply.plain (if s.isHead then St.commandFinished else St.ok), s)
    else if c.ownDone then (Reply.plain St.ok, s)
    else if c.state = 0 then
      let s1 := s.modSvc fun v => { v with queues := v.queues.map fun q => q.filter (· != t) }
      (Reply.plain St.ok, ((if host then s1 else s1.countElsewhere t).dropEgress t).ownFinish t gone false)
    else
      match s.promptCtx t with
      | none => (Reply.plain St.ok, s)
      | some (k, x) =>
        if c.prompt.isSome ∧ 1 < (s.ctxCmds x).length then
          let s1 := s.modCmd t fun y => { y with prompt := y.prompt.map fun q => { q with cancelled := true } }
          (Reply.plain St.ok, (s1.dropEgress t).ownFinish t gone false)
        else (Reply.plain St.ok, s.modCtx k fun y => { y with cancel := true })

/-! ### Application of sequenced commands (R287, R288) -/

/-- A record for a sequenced command. -/
def State.recordCmd (s : State) (gseq opcode cls session src seq : Nat) (p : List Byte) (prompt : Option Prompt) : State :=
  let run := opcode == 0x30 || opcode == 0x31 || opcode == 0x32
  s.addCmd { gseq := gseq, session := session, src := src, seq := seq, opcode := opcode, cls := cls, run := run, payload := p, prompt := prompt
             state := if run then 0 else 1, context := 0xFFFF, reply := Reply.plain St.ok, doneMask := 0, recMask := 0, ownDone := false
             final := false, recordedAt := s.aonClk, escal := 0, quiesceAt := none }

/-- Put a run command on the queue of its class (R292). -/
def State.enqueueCmd (s : State) (cls gseq : Nat) : State :=
  s.modSvc fun v => { v with queues := v.queues.mapIdx fun i q => if i = cls then q ++ [gseq] else q }

/-- Set up the egress of a prompt, or fail the prompt (R27, R322). -/
def State.promptHere (s : State) (gseq : Nat) (q : Prompt) : State :=
  match s.openEgress gseq q with
  | some s1 => s1
  | none => s.failPrompt gseq St.egressPortDown (if s.egressOpen then 1 else 0)

/-- A new session (R283). -/
def newSession (id keys share now src : Nat) : Session :=
  { id := id, closing := false, keys := keys, share := share, openedAt := now, notify := none, lastSrc := src, level := 0, high := none
    recs := [], ctrHigh := 0, ctrSeen := [], txCtr := 0, noticeCtr := 0, parts := [] }

/-- A member keeps a session's keys (R283, R407). -/
def State.keepSession (s : State) (id keys : Nat) : State :=
  match s.session id with
  | some _ => s.modSession id fun x => { x with keys := keys }
  | none => s.modSvc fun v => { v with sessions := v.sessions ++ [newSession id keys 0 s.aonClk 0] }

/-- A register write by BCP on the device that it names (R297). -/
def State.writeReg (s : State) (session : Nat) (p : List Byte) : Reply × State :=
  let a := beAt p 8 8
  let n := beAt p 16 2
  if beAt p 0 1 ≠ s.devIndex then (Reply.plain St.ok, s)
  else if !regRights (s.levelOf session) true a n then (⟨St.regAccessDenied, s.devIndex, 0, []⟩, s)
  else (Reply.plain St.ok, s.writeRegs a ((wordsAt p 32 n).map (BitVec.ofNat 32)))

/-- A memory write by BCP on the device that it names (R297). -/
def State.memWrite (s : State) (session : Nat) (p : List Byte) : Reply × State :=
  let a := beAt p 8 8
  let n := beAt p 16 4
  if beAt p 0 1 ≠ s.devIndex then (Reply.plain St.ok, s)
  else
    match s.memStatus (s.levelOf session) true a n with
    | some st => (⟨st, s.devIndex, 0, []⟩, s.memRefused st a)
    | none => (Reply.plain St.ok, s.gPut a ((List.range (n / 4)).map fun i => BitVec.ofNat 32 (leAt p (32 + 4 * i) 4)))

/-- A management command as this device applies it (R288): its own outcome, or none while it goes on. -/
def State.applyMgmt (s : State) (gseq opcode session : Nat) (p : List Byte) (proofOk : Bool) : Option Reply × State :=
  let say := fun (r : Reply × State) => (some r.1, r.2)
  let done := fun (s : State) => (some (Reply.plain St.ok), s)
  let bad := fun (st : Nat) => (some (⟨st, s.devIndex, 0, []⟩ : Reply), s)
  let id := beAt p 0 4
  match opcode with
  | 0x02 => if s.isHead then (some ⟨St.ok, 0xFF, 0, beBytes 4 session⟩, s)
            else done (if (s.session session).isSome then s else s.keepSession session 0)
  | 0x03 => done (if s.isHead then s.modSession session fun x => { x with closing := true, level := 0 }
                  else s.modSvc fun v => { v with sessions := v.sessions.filter (·.id != session) })
  | 0x04 => say (s.debugUnlock session p proofOk)
  | 0x13 => say (s.writeReg session p)
  | 0x15 => say (s.memWrite session p)
  | 0x18 => done (if beAt p 0 1 = s.devIndex then s.errorAck (beAt p 8 8) else s)
  | 0x19 => done (s.setConfig session p)
  | 0x20 =>
    match s.imageBeginBad p with
    | some st => bad st
    | none => done (s.imageBegin p)
  | 0x22 =>
    match s.imageBad p (· == .loading) with
    | some st => bad st
    | none => (none, s.modImage id fun g => { g with st := .verifying, gseq := gseq })
  | 0x23 =>
    match s.imageBad p (· == .verified) with
    | some st => bad st
    | none => done (s.modImage id fun g => { g with st := .active })
  | 0x24 =>
    match s.imageBad p (fun _ => true) with
    | some st => bad st
    | none => (none, s.modImage id fun g => { g with st := .unloading })
  | 0x33 => say (s.cancel id (session != 0))
  | _ => done s

/-- Apply a sequenced command on this device (R287, R288): its number becomes the last one. -/
def State.applySeq (s : State) (gseq opcode cls session src seq : Nat) (p : List Byte) (prompt : Option Prompt) (proofOk : Bool) : State :=
  let s0 : State := { s with grp := { s.grp with lastGseq := gseq } }
  let s1 := (s0.rset (.eth 3) 0xC (BitVec.ofNat 32 gseq)).recordCmd gseq opcode cls session src seq p prompt
  if opcode = 0x30 ∨ opcode = 0x31 ∨ opcode = 0x32 then
    let s2 := s1.enqueueCmd cls gseq
    match prompt with
    | some q => s2.promptHere gseq q
    | none => s2
  else
    let (r, s2) := s1.applyMgmt gseq opcode session p proofOk
    match r with
    | some x => s2.mgmtOwn gseq x
    | none => s2.unloadGo

/-- The head has a PREFILL's tokens (R314, R316): they go to every member, or the command fails. The number of a command that fails so is
sent as a CANCEL of itself, which has no effect. -/
def State.tokenized (s : State) (gseq : Nat) : State :=
  match s.cmd gseq with
  | none => s
  | some c =>
    match c.prompt with
    | none => s
    | some q =>
      if q.tokens.isSome || c.ownDone then s
      else
        let fail := fun (r : Reply) =>
          let s1 := s.modSvc fun v => { v with queues := v.queues.map fun l => l.filter (· != gseq) }
          let s2 := s1.modCmd gseq fun x => { x with ownDone := true, state := 3, reply := r }
          ((s2.dropEgress gseq).sendCommand gseq 0x33 c.cls 0 0 0 (beBytes 4 gseq)).finalReply gseq r
        match (s.image q.imageId).bind fun g => (s.descr g).bind fun d => (s.tokTable g).map fun t => (g, d, t) with
        | none => fail (Reply.plain St.imageNotActive)
        | some (g, d, t) =>
          match t.encode q.text with
          | .error off => fail ⟨St.paramInvalid, 0xFF, off, []⟩
          | .ok ids =>
            let q1 := { q with tokens := some (q.pre ++ ids ++ q.post) }
            match s.tokensBad g d q1 with
            | some r => fail r
            | none =>
              let head := c.payload.take (128 + 16 * q.pages.length + 4 * (q.pre.length + q.post.length))
              (s.modCmd gseq fun x => { x with prompt := some q1 }).sendCommand gseq 0x31 c.cls c.session c.seq
                (beNat (beBytes 48 (Config.sha384 c.payload) |>.take 8)) (head ++ ids.flatMap (beBytes 4))

/-- Gander 1 of the head has encoded the text of a PREFILL. -/
def execTokenize (gseq : Nat) (s : State) : Host.Outcome State Fault Refusal := if s.isHead then settled (s.tokenized gseq) else .next s

end Sys2Proof.Machine
end

