-- ==== Sys2Proof/Machine/Attest.lean ====
section
/-! DEFINITION. Attestation (R401 to R404), pending exchanges (R405) and the opening of sessions (R283, R406, R407). -/

namespace Sys2Proof.Machine

/-- The record of a failed authentication, at most one in each 1 ms (R282, R406): the source address and the session. -/
def State.authRecord (s : State) (session from_ : Nat) : State :=
  if s.svc.authFailAt.any fun t => decide (s.aonClk < t + 100000) then s
  else
    (s.modSvc fun v => { v with authFailAt := some s.aonClk }).raise (St.islGander 0)
      (s.newRec St.clsSecurity St.authFailed (unitGander 0) from_ session)

/-! ### Leaves of the lower tree -/

/-- Exhaustion-driven generation of the next lower tree starts when few leaves remain, once in a period (R401). -/
def State.startRegen (s : State) : State :=
  if decide (31744 ≤ s.sec.leaf) && !s.sec.nextTree && !s.sec.regen && s.sec.periodOpen && decide (s.sec.fuses.topUsed < 1024) && s.sec.tree.isSome then
    { s with sec := { s.sec with regen := true, exhaustedGen := true, periodOpen := false } }
  else s

/-- A lower tree that has run out gives way to the one generated in advance (R401). -/
def State.swapTree (s : State) : State :=
  if decide (32768 ≤ s.sec.leaf) && s.sec.nextTree then
    { s with sec := { s.sec with leaf := 0, nextTree := false, tree := some s.sec.fuses.topUsed } }
  else s

/-- A leaf is spent on a signature (R401, R413): its index advances first. -/
def State.spendLeaf (s : State) : State :=
  ((({ s with sec := { s.sec with leaf := s.sec.leaf + 1 } }).startRegen).swapTree).count48 .sec 0x20 1

/-- Why the device makes no HSS signature (R402). -/
def State.noSign (s : State) : Option Nat :=
  if 1024 ≤ s.sec.fuses.topUsed then some 1 else if s.regenBlocked then some 2 else none

/-- A signature waits for a lower tree (R401, R404). -/
def State.signWaits (s : State) : Bool := s.sec.regen || s.sec.tree.isNone || decide (32768 ≤ s.sec.leaf)

/-! ### Reports -/

/-- The bytes of the report for one of the four image slots (R404). -/
def State.imageLine (s : State) (i : Nat) : List Byte :=
  match s.svc.images[i]? with
  | some g => beBytes 4 g.id ++ beBytes 48 (s.manifestDigest g)
  | none => zeros 52

/-- The report of R404; the device nonce and, on the head, the ephemeral public key come from the DRBG. -/
def State.attestReport (s : State) (hostNonce : Nat) (head : Bool) (nonce key : List Byte) : List Byte :=
  let f := s.sec.fuses
  beBytes 4 0x41545354 ++ [1] ++ beBytes 1 s.devIndex ++ beBytes 1 f.lifecycle ++ beBytes 1 s.topLevel ++ beBytes 16 f.uid ++
    beBytes 48 s.sec.fwDigest ++ beBytes 1 s.sec.fwSvn ++ beBytes 1 f.minSvn ++
    beBytes 1 (f.ownerMask (·.programmed) + 16 * f.ownerMask (·.revoked)) ++ beBytes 1 (if s.grp.formed then s.grp.size else 0) ++
    beBytes 48 s.sec.boardDigest ++
    (List.range 4).flatMap s.imageLine ++
    beBytes 32 hostNonce ++ nonce ++ (if head then key else zeros 97) ++ beBytes 2 f.topUsed ++ beBytes 2 s.sec.leaf ++ beBytes 8 s.aonClk ++
    zeros 7

/-- Keep a pending exchange: at most 16, the oldest displaced (R405). -/
def State.keepExchange (s : State) (e : Exchange) : State :=
  s.modSvc fun v => { v with exchanges := v.exchanges.drop (v.exchanges.length - 15) ++ [e] }

/-- The reply to a query or to an ATTEST in clear. -/
def State.answerQuery (s : State) (to_ session seq op : Nat) (r : Reply) : State :=
  if session = 0 then s.clearReply to_ session seq op r else s.encReply to_ session seq op false none r

/-- Answer an ATTEST that names this device (R402, R404): a report and its signatures, or the failure; one that must wait for a lower tree
waits. -/
def State.attestHere (s : State) (to_ session seq : Nat) (p : List Byte) : State :=
  match s.noSign with
  | some d => s.answerQuery to_ session seq 1 ⟨St.unsupportedOperation, s.devIndex, d, []⟩
  | none =>
    if s.signWaits then s.modSvc fun v => { v with attestWait := v.attestWait ++ [(to_, session * 2 ^ 32 + seq, p)] }
    else
      let (nonce, s1) := s.freeBytes 32
      let (key, s2) := s1.freeBytes 97
      let host := beAt p 16 32
      let b := s2.attestReport host s.isHead nonce key
      let body := b ++ Config.sign 0 0 b ++ beBytes 4 5236 ++ Config.sign 1 s2.sec.leaf b ++ s2.sec.endorsement
      let s3 := if s.isHead then s2.keepExchange ⟨beAt p 48 97, Config.sha384 b, host, beNat nonce, s.aonClk⟩ else s2
      (s3.answerQuery to_ session seq 1 ⟨St.ok, 0xFF, 0, body⟩).spendLeaf

/-- ATTESTs that wait for a lower tree are answered once there is one (R401, R412). -/
def State.attestGo (s : State) : State :=
  let l := s.svc.attestWait
  l.foldl (fun s e => s.attestHere e.1 (e.2.1 / 2 ^ 32) (e.2.1 % 2 ^ 32) e.2.2) (s.modSvc fun v => { v with attestWait := [] })

/-- The reply that another member gives to what Gander 0 of the head hands to it (R295): no message carries it here, so that its status and
its bytes are open. -/
def State.askOther (s : State) (d op n : Nat) (p : List Byte) : Reply × State :=
  let s1 := s.emit (.ask d op p)
  let st := s1.nextFree % 2 ^ 16
  let (b, s2) := s1.drawFree.freeBytes n
  (if st = St.ok then ⟨St.ok, 0xFF, 0, b⟩ else ⟨st, d, s2.nextFree % 2 ^ 64, []⟩, s2.drawFree)

/-- ATTEST (R404). -/
def State.attest (s : State) (to_ session seq : Nat) (p : List Byte) : State :=
  let s0 := s.takeRws .sec
  let d := beAt p 0 1
  let own := d = 0xFF ∨ d = s.devIndex
  if p.length < (if own then 145 else 48) ∨ ¬(own ∨ s.isMember d) then s0.answerQuery to_ session seq 1 (Reply.plain St.paramInvalid)
  else if own then s0.attestHere to_ session seq p
  else
    let (r, s1) := s0.askOther d 1 (5848 + s0.nextFree % 2 ^ 15) p
    s1.answerQuery to_ session seq 1 r

/-- ATTEST packets in clear within the last second have reached the rate (R403). -/
def State.attestFull (s : State) : Bool :=
  decide (max (s.ffield .sec 8 0 8) 1 ≤ (s.svc.attests.filter fun t => decide (s.aonClk < t + 100000000)).length)

/-- An ATTEST packet in clear is counted (R403). -/
def State.countAttest (s : State) : State :=
  s.modSvc fun v => { v with attests := v.attests.filter (fun t => decide (s.aonClk < t + 100000000)) ++ [s.aonClk] }

/-- An exchange expires (R405). -/
def execExchangeExpiry (digest : Nat) (s : State) : Host.Outcome State Fault Refusal :=
  let keep := fun (e : Exchange) => e.digest != digest || decide (s.aonClk < e.signedAt + 100000000)
  .next (s.modSvc fun v => { v with exchanges := v.exchanges.filter keep })

/-! ### Opening a session -/

/-- Sessions that are open. -/
def State.openSessions (s : State) : List Session := s.svc.sessions.filter (!·.closing)

/-- The host key of a SESSION_OPEN is that of the board configuration record (R406). -/
def State.hostKeyOk (s : State) (p : List Byte) : Bool :=
  let i := beAt p 148 1
  let d := beAt s.sec.board (16 + 48 * i) 48
  decide (i ≤ 7) && d != 0 && Config.sha384 (slice p 152 97) == d

/-- A SESSION_OPEN at the head (R283, R406, R407); `sigOk` tells whether the host's signature verifies. -/
def State.openSession (s : State) (from_ : Nat) (p : List Byte) (sigOk : Bool) : State :=
  let share := beAt p 0 97
  let say := fun (s : State) (st : Nat) => s.clearReply from_ 0 0 2 (Reply.plain st)
  if p.length < 345 then say s St.paramInvalid
  else
    match s.openSessions.find? fun x => x.share == share && decide (s.aonClk ≤ x.openedAt + 100000000) with
    | some x =>
      match s.svc.cmds.find? fun c => c.opcode == 2 && c.session == x.id with
      | some c =>
        if c.final then s.encReply from_ x.id 0 2 false (some c.gseq) c.reply
        else s.clearReply from_ 0 0 2 (Reply.plain St.accepted)
      | none => s
    | none =>
      match s.svc.exchanges.find? fun e => e.share == share && e.digest == beAt p 100 48 && decide (s.aonClk ≤ e.signedAt + 100000000) with
      | none => say (s.authRecord 0 from_) St.authFailed
      | some e =>
        if !(s.hostKeyOk p && sigOk) then say (s.authRecord 0 from_) St.authFailed
        else if 16 ≤ s.openSessions.length then say s St.sessionLimit
        else
          let id := s.svc.nextSession
          let keys := Config.sessionKeys e.hostNonce e.devNonce id e.digest
          let s1 := s.modSvc fun v => { v with
            nextSession := id + 1, sessions := v.sessions ++ [newSession id keys share s.aonClk from_]
            exchanges := v.exchanges.filter (· != e) }
          let (g, s2) := (s1.count48 (.eth 3) 0x20 1).takeGseq
          let s3 := s2.emit (.reply from_ 0 0 2 St.accepted false false (replyPrefix (some g) (Reply.plain St.accepted)))
          let s4 := s3.sendCommand g 2 0 id 0 (beNat ((beBytes 48 (Config.sha384 p)).take 8)) p
          let others := (List.range 64).filter fun d => s.grp.members.testBit d && d != s.devIndex
          let s5 := others.foldl (fun s d => s.sendSync d 0xF (BitVec.ofNat 32 id :: Config.wrapKeys keys d)) s4
          s5.applySeq g 2 0 id from_ 0 p none false

end Sys2Proof.Machine
end

