-- ==== Sys2Proof/Machine/Sleep.lean ====
section
/-! DEFINITION. DOZE and waking from it (R250, R360). -/

namespace Sys2Proof.Machine

/-- The device is in DOZE (R359). -/
def State.dozing (s : State) : Bool := s.rfield (.pwr 0) 4 1 2 == 2

/-- What a core loses when it is power-gated (R359, R360): operand buffers, accumulator memory and read cache. Its registers are restored. -/
def CoreState.gated (x : CoreState) : CoreState := { x with cache := [], vec := ⟨[], none, [], []⟩, tlb := [] }

/-- Memory with every core's operand buffers and accumulators empty. -/
def Mem.noBuffers (m : Mem) : Mem :=
  let keep := fun (a : Nat) => decide (a < 0x8000000000) || decide (0x8030000000 ≤ a)
  { m with cells := m.cells.filter fun e => keep e.1, synd := m.synd.filter fun e => keep e.1 }

/-- This device goes into DOZE (R360): COLT is asked for on every port, the Ethernet port goes down to come up again at 200 Gbit/s, and the cores
are power-gated. -/
def State.dozeHere (s : State) : State :=
  if s.dozing || (List.range 4).any (fun k => (s.ctx k).isSome) then s
  else
    let s1 := (List.range 8).foldl (fun s p => s.wantColt p) s
    let s2 := (s1.rput (.pwr 0) 4 1 2 2).rput (.eth 0) 4 1 2 0
    { s2 with cores := s2.cores.map CoreState.gated, mem := s2.mem.noBuffers }

/-- This device leaves DOZE (R360): the cores are powered, the ports leave COLT by a retrain, and the Ethernet port goes down to come up again at
1.6 Tbit/s. -/
def State.wakeHere (s : State) : State :=
  if !s.dozing then s
  else
    let s1 := (s.rput (.pwr 0) 4 1 2 0).rput (.eth 0) 4 1 2 0
    let s2 := (List.range 8).foldl (init := { s1 with pwr := { s1.pwr with idleFrom := s1.aonClk } }) fun s p =>
      let s' := if (s.port p).st = .colt then s.retrain p else s
      s'.modPort p fun x => { x with coltWanted := false, coltAsked := false }
    s2

/-- Everything that runs on the device is gone: contexts, cores, the Hen, links, sessions, commands, images and the group (R347, R426). Fences of
cores, registers, memory, the error log and the security block stay. -/
def State.stopWork (s : State) : State :=
  let s1 := (List.range 8).foldl (fun s p => s.portTo p .down) s
  { s1 with
    cores := s1.cores.map fun x => { CoreState.empty with fenced := x.fenced }
    ctxs := Vector.replicate 4 none, gbars := Vector.replicate 64 GroupBar.empty, dsps := Vector.replicate 64 Dispense.empty
    links := LinkState.empty, grp := GroupState.empty, svc := Service.empty, pwr := Power.empty, latches := [] }

/-- A packet reaches the device: in DOZE it wakes and tells every member (R360). -/
def State.wakeOn (s : State) : State := if s.dozing then (s.broadcast 0x13 []).wakeHere else s

end Sys2Proof.Machine
end

