-- ==== Sys2Proof/Machine/Bcp.lean ====
section
/-! DEFINITION. BCP packets (R275 to R290): the handling order of R284, data packets (R278, R300, R303), packet windows (R282), reassembly
(R277), sequence numbers and retries (R285, R286), and the commands and queries of R295. -/

namespace Sys2Proof.Machine

/-- A packet is dropped and counted in `ETH_BCP_DROP`. -/
def State.dropBcp (s : State) : State := s.count48 (.eth 3) 0x40 1

/-- The digest of R285. -/
def digestOf (p : List Byte) : Nat := beNat ((beBytes 48 (Config.sha384 p)).take 8)

/-- The queries of R295. -/
def isQuery (op : Nat) : Bool := [0x01, 0x10, 0x11, 0x12, 0x14, 0x16, 0x17].contains op

/-- The run commands. -/
def isRun (op : Nat) : Bool := op == 0x30 || op == 0x31 || op == 0x32

/-- The sequenced commands of R295. -/
def isSequenced (op : Nat) : Bool := isRun op || [0x02, 0x03, 0x04, 0x13, 0x15, 0x18, 0x19, 0x20, 0x22, 0x23, 0x24, 0x33].contains op

/-! ### Packet protection (R282) -/

/-- Take a protected packet of a session: whether it is accepted, and the state after its counts and its window. -/
def State.acceptPkt (s : State) (x : Session) (p : BcpPkt) : Bool × State :=
  if !p.tagOk then (false, (s.count48 (.eth 3) 0x28 1).authRecord x.id p.from_)
  else
    let c := p.pktCtr
    if !x.ctrSeen.isEmpty && (decide (c + 1023 < x.ctrHigh) || x.ctrSeen.contains c) then (false, s.count48 (.eth 3) 0x30 1)
    else
      let h := if x.ctrSeen.isEmpty then c else max x.ctrHigh c
      (true, s.modSession x.id fun y => { y with
        ctrHigh := h, ctrSeen := (c :: y.ctrSeen).filter (fun d => decide (h ≤ d + 1023)), lastSrc := p.from_ })

/-! ### Data packets (R278) -/

/-- Bytes of an image part (R303). -/
def State.imageBytes (s : State) (id off : Nat) (data : List Byte) : Option State :=
  match s.image id with
  | none => none
  | some g =>
    if g.st ≠ .loading ∨ g.partBytes < off + data.length then none
    else
      let a := g.base + off
      let units := (List.range (data.length / 1024)).map (· + off / 1024)
      some ((s.putBytes (unitOfAddr a) (islandOfAddr a) a data).modImage id fun x =>
        { x with got := x.got.filter (fun u => !units.contains u) ++ units })

/-- Host-held pages that a handle names and that are awaited (R300). -/
def State.awaited (s : State) (handle : Nat) : List PageFetch := s.svc.fetches.filter fun f => f.host && !f.ready && f.handle == handle

/-- Bytes of a host-held page, or its refusal (R300): a whole page becomes resident. -/
def State.pageBytes (s : State) (handle off : Nat) (refuse : Bool) (data : List Byte) : Option State :=
  match s.awaited handle with
  | [] => none
  | fs =>
    if refuse then some (fs.foldl (fun s f => (s.failWaiters f.page).unfetch f.page) s)
    else if frameBytes < off + data.length then none
    else
      let units := (List.range (data.length / 1024)).map (· + off / 1024)
      some (fs.foldl (init := s) fun s f =>
        let s1 := (s.putBytes (unitOfAddr f.frame) (islandOfAddr f.frame) (f.frame + off) data).modFetch f.page fun y =>
          { y with got := y.got.filter (fun u => !units.contains u) ++ units }
        if (s1.fetch f.page).any (fun y => decide (2048 ≤ y.got.length)) then s1.pageHere f.page else s1)

/-- A data packet whose session and tag have passed: stored, or discarded. -/
def State.dataBody (s : State) (op : Nat) (p : BcpPkt) : State :=
  let pl := p.payload
  let data := pl.drop 16
  let off := if op = 0x21 then beAt pl 8 8 else beAt pl 8 4
  let refuse := op = 0x41 ∧ bitOf (beAt pl 12 1) 0
  if p.total ≠ pl.length ∨ p.offset ≠ 0 ∨ pl.length < 16 ∨ data.length % 1024 ≠ 0 ∨ off % 1024 ≠ 0 then s.dropBcp
  else
    let r := if op = 0x21 then s.imageBytes (beAt pl 0 4) off data
      else if op = 0x41 then s.pageBytes (beAt pl 0 8) off refuse data
      else none
    match r with
    | some s1 => s1.count48 (.eth 3) 0x48 1
    | none => s.dropBcp

/-- A data packet (R278, R280, R282). -/
def State.dataIn (s : State) (op : Nat) (p : BcpPkt) : State :=
  if p.session = 0 ∨ !bitOf p.flags 1 then s.dropBcp
  else
    match s.openSessions.find? (·.id == p.session) with
    | none => s.dropBcp
    | some x =>
      match s.acceptPkt x p with
      | (true, s1) => s1.dataBody op p
      | (false, s1) => s1

/-! ### Reassembly (R277) -/

/-- Two parts agree where they overlap. -/
def partsAgree (a b : Nat × List Byte) : Bool :=
  let lo := max a.1 b.1
  let hi := min (a.1 + a.2.length) (b.1 + b.2.length)
  if hi ≤ lo then true else slice a.2 (lo - a.1) (hi - lo) == slice b.2 (lo - b.1) (hi - lo)

/-- The bytes from `pos` on that parts in rising order give without a gap. -/
def joinParts : Nat → List (Nat × List Byte) → List Byte
  | _, [] => []
  | pos, (o, b) :: t =>
    if pos < o then []
    else
      let fresh := b.drop (pos - o)
      fresh ++ joinParts (pos + fresh.length) t

/-- Bytes that a partial message holds. -/
def Partial.bytes (x : Partial) : Nat := (x.parts.map fun q => q.2.length).sum

/-- What the parts of a message come to: dropped, discarded with a reply, held, or whole. -/
inductive Whole where
  | drop
  | malformed
  | held (ps : List Partial)
  | whole (bytes : List Byte) (ps : List Partial)
deriving DecidableEq, Repr

/-- Add a packet to the partial messages of a session. -/
def Session.reassemble (x : Session) (op : Nat) (p : BcpPkt) (now : Nat) : Whole :=
  let others := x.parts.filter (·.seq != p.seq)
  let part := (p.offset, p.payload)
  match x.parts.find? (·.seq == p.seq) with
  | none =>
    if p.payload.length = p.total then .whole p.payload others
    else if 64 ≤ x.parts.length ∨ 0x2000000 < (x.parts.map Partial.bytes).sum + p.payload.length then .drop
    else .held (others ++ [⟨p.seq, op, p.total, [part], now⟩])
  | some q =>
    if q.opcode ≠ op ∨ q.total ≠ p.total ∨ !q.parts.all (partsAgree part) then .malformed
    else
      let parts := sortBy (fun a b => decide (a.1 ≤ b.1)) (q.parts.filter (· != part) ++ [part])
      let all := joinParts 0 parts
      if p.total ≤ all.length then .whole (all.take p.total) others
      else if 0x2000000 < (x.parts.map Partial.bytes).sum + p.payload.length then .drop
      else .held (others ++ [{ q with parts := parts }])

/-! ### Queries -/

/-- READ_REG (R297). -/
def State.readReg (s : State) (session : Nat) (p : List Byte) : Reply × State :=
  let d := beAt p 0 1
  let a := beAt p 8 8
  let n := beAt p 16 2
  if p.length ≠ 32 ∨ !isZero p 1 7 ∨ !isZero p 18 14 ∨ !s.isMember d ∨ n = 0 ∨ 256 < n ∨ !regRange a n then (Reply.plain St.paramInvalid, s)
  else if d ≠ s.devIndex then s.askOther d 0x12 (4 * n) p
  else if !regRights (s.levelOf session) false a n then (⟨St.regAccessDenied, d, 0, []⟩, s)
  else
    let (ws, s1) := s.readRegs a n
    (⟨St.ok, 0xFF, 0, ws.flatMap fun w => beBytes 4 w.toNat⟩, s1)

/-- MEM_READ (R297). -/
def State.memRead (s : State) (session : Nat) (p : List Byte) : Reply × State :=
  let d := beAt p 0 1
  let a := beAt p 8 8
  let n := beAt p 16 4
  if p.length ≠ 32 ∨ !isZero p 1 7 ∨ !isZero p 20 12 ∨ !s.isMember d ∨ n % 4 ≠ 0 ∨ a % 4 ≠ 0 ∨ 0xF00000 < n then (Reply.plain St.paramInvalid, s)
  else if d ≠ s.devIndex then s.askOther d 0x14 (n + ceilDiv (n / 4) 8) p
  else
    match s.memStatus (s.levelOf session) false a n with
    | some st => (⟨st, d, 0, []⟩, s.memRefused st a)
    | none =>
      let ws := s.gPeek a (n / 4)
      let s1 := if regionOf a = .redWin then s else s.noteWords (unitGander 0) (islandOfAddr a) a (n / 4)
      (⟨St.ok, 0xFF, 0, (ws.flatMap fun w => leBytes 4 w.bits.toNat) ++ poisonBits ws⟩, s1)

/-- TELEMETRY (R358): one block for each device asked for; those of other members come by no message of the spec. -/
def State.telemetryAll (s : State) (p : List Byte) : Reply × State :=
  let d := beAt p 0 1
  if p.length ≠ 1 ∨ ¬(d = 0xFF ∨ s.isMember d) then (Reply.plain St.paramInvalid, s)
  else
    let ds := (List.range 64).filter fun i => s.isMember i && (d == 0xFF || d == i)
    let r := ds.foldl (init := (([] : List Byte), s)) fun r i =>
      if i = s.devIndex then (r.1 ++ s.telemetry, r.2)
      else
        let (b, s1) := (r.2.emit (.ask i 0x16 [BitVec.ofNat 8 i])).freeBytes 127
        (r.1 ++ beBytes 1 i ++ b, s1)
    (⟨St.ok, 0xFF, 0, r.1⟩, r.2)

/-- ERROR_READ (R295, R371): device in byte 0, cursor in bytes 8 to 15, count in bytes 16 and 17, the places of R297. -/
def State.errorReadAt (s : State) (p : List Byte) : Reply × State :=
  let d := beAt p 0 1
  let n := beAt p 16 2
  if p.length < 18 ∨ 32 < p.length ∨ !isZero p 1 7 ∨ !isZero p 18 14 ∨ !s.isMember d ∨ n = 0 ∨ 128 < n then (Reply.plain St.paramInvalid, s)
  else if d ≠ s.devIndex then (s.drawFree).askOther d 0x17 (64 * (s.nextFree % (n + 1)) + 8) p
  else (⟨St.ok, 0xFF, 0, s.errorRead (beAt p 8 8) n⟩, s)

/-- Answer a query but for ATTEST. -/
def State.query (s : State) (op session : Nat) (p : List Byte) : Reply × State :=
  match op with
  | 0x10 =>
    if p.length ≠ 0 then (Reply.plain St.paramInvalid, s)
    else
      let (b, s1) := s.groupState
      (⟨St.ok, 0xFF, 0, b⟩, s1)
  | 0x11 => (if p.length = 4 then s.commandStatus (beAt p 0 4) else Reply.plain St.paramInvalid, s)
  | 0x12 => s.readReg session p
  | 0x14 => s.memRead session p
  | 0x16 => s.telemetryAll p
  | _ => s.errorReadAt p

/-! ### Sequence numbers (R285) -/

/-- The classes of R285. -/
inductive SeqClass where
  | new | window | stale | conflict
  | again (r : SeqRec)
deriving DecidableEq, Repr

/-- The class of a message by its `SEQ`. -/
def Session.classify (x : Session) (seq digest : Nat) : SeqClass :=
  match x.high with
  | none => .new
  | some h =>
    match x.recs.find? (·.seq == seq) with
    | some r => if r.digest ≠ digest then .conflict else .again r
    | none =>
      if serialNewer 32 seq h then (if (seq + 2 ^ 32 - h) % 2 ^ 32 ≤ 256 then .new else .window)
      else if (h + 2 ^ 32 - seq) % 2 ^ 32 ≤ 255 then .new
      else .stale

/-- Record a new `SEQ` (R285): HIGH moves, and records older than HIGH − 255 go. -/
def Session.record (x : Session) (r : SeqRec) : Session :=
  let h := match x.high with
    | none => r.seq
    | some h => if serialNewer 32 r.seq h then r.seq else h
  { x with high := some h, recs := (x.recs ++ [r]).filter fun q => decide ((h + 2 ^ 32 - q.seq) % 2 ^ 32 ≤ 255) }

/-! ### Commands -/

/-- Why a management command's parameters break its rules, as the head sees it (R284, R297, R298, R302, R409, R410). -/
def State.mgmtBad (s : State) (op : Nat) (p : List Byte) : Option Reply :=
  let bad := Reply.fail St.paramInvalid
  let d := beAt p 0 1
  let n := beAt p 16 2
  let m := beAt p 16 4
  match op with
  | 0x03 => if p.length = 0 then none else bad
  | 0x04 =>
    let level := beAt p 0 1
    let len := beAt p 3 1
    if p.length < 8 ∨ !s.isMember (beAt p 2 1) ∨ level = 0 ∨ 2 < level ∨ 1 < beAt p 1 1 then bad
    else if level = 1 ∧ (len < 16 ∨ 64 < len ∨ p.length < 8 + len) then bad
    else none
  | 0x13 =>
    if p.length ≠ 32 + 4 * n ∨ !isZero p 1 7 ∨ !isZero p 18 14 ∨ !s.isMember d ∨ n = 0 ∨ 256 < n ∨ !regRange (beAt p 8 8) n then bad
    else none
  | 0x15 =>
    if p.length ≠ 32 + m ∨ !isZero p 1 7 ∨ !isZero p 20 12 ∨ !s.isMember d ∨ m % 4 ≠ 0 ∨ beAt p 8 8 % 4 ≠ 0 ∨ 0x1000000 - 32 < m then bad
    else none
  | 0x18 => if p.length < 16 ∨ 32 < p.length ∨ !isZero p 1 7 ∨ !isZero p 16 16 ∨ !s.isMember d then bad else none
  | 0x19 => (s.configBad p).map fun i => ⟨St.configItemInvalid, 0xFF, i, []⟩
  | 0x20 => (s.imageBeginBad p).bind Reply.fail
  | 0x22 => (s.imageBad p (· == .loading)).bind Reply.fail
  | 0x23 => (s.imageBad p (· == .verified)).bind Reply.fail
  | 0x24 => (s.imageBad p fun _ => true).bind Reply.fail
  | 0x33 => if p.length = 4 then none else bad
  | _ => none

/-- Why a sequenced command fails before it is given a number (R284, steps 11 and 12). -/
def State.seqBad (s : State) (op : Nat) (p : List Byte) : Option Reply :=
  match op with
  | 0x30 => s.execBad p
  | 0x31 => s.prefillBad p
  | 0x32 => s.scoreBad p
  | _ => s.mgmtBad op p

/-- The hold of a PREFILL when its payload takes the descriptor's (R315). -/
def State.holdOf (s : State) (p : List Byte) : Nat := (((s.image (beAt p 4 4)).bind s.descr).map (·.holdUs)).getD 0

/-- A command is sequenced at the head (R284, step 13): it gets its number, is told to every member and applied here. A PREFILL with text is
told to the members once it is tokenized. -/
def State.sequence (s : State) (op session src seq : Nat) (p : List Byte) (proofOk : Bool) : State :=
  let (g, s1) := s.takeGseq
  let cls := if isRun op then beAt p 0 1 % 4 else 0
  let ids := bitOf (beAt p 1 1) 0 || (op == 0x31 && (parsePrompt p false 0).text.isEmpty)
  let prompt := if op = 0x31 then some (parsePrompt p ids (s.holdOf p)) else none
  let note := fun (x : Session) => { x with recs := x.recs.map fun r => if r.seq = seq then { r with gseq := some g } else r }
  let s2 := (s1.modSession session note).encReply src session seq op false (some g) (Reply.plain St.accepted)
  let s3 := if op = 0x31 ∧ !ids then s2 else s2.sendCommand g op cls session seq (digestOf p) p
  s3.applySeq g op cls session src seq p prompt proofOk

/-- A new message is recorded and handled (R284, steps 11 to 13). -/
def State.runNew (s : State) (op session src seq : Nat) (p : List Byte) (proofOk : Bool) : State :=
  let r : SeqRec := ⟨seq, digestOf p, none, isQuery op, none⟩
  let s1 := (s.modSession session fun x => x.record r).count48 (.eth 3) 0x20 1
  if op = 1 then s1.attest src session seq p
  else if isQuery op then
    let (q, s2) := s1.query op session p
    s2.encReply src session seq op false none q
  else
    let bad := if isSequenced op && op != 2 then s1.seqBad op p else Reply.fail St.unsupportedOperation
    match bad with
    | some q => (s1.modSession session fun x => { x with recs := noteFinal seq q x.recs }).encReply src session seq op false none q
    | none => s1.sequence op session src seq p proofOk

/-- The member that keeps run commands from being taken (R290, R386). -/
def State.notServing (s : State) : Option Nat :=
  if s.grp.quiesced ∨ s.grp.left then some s.devIndex else (s.grp.joins.find? (·.left.isSome)).map (·.dev)

/-- A whole message of a session (R284, steps 8 to 13). -/
def State.message (s : State) (x : Session) (op src seq : Nat) (p : List Byte) (proofOk : Bool) : State :=
  let say := fun (s : State) (r : Reply) => s.encReply src x.id seq op false none r
  match x.classify seq (digestOf p) with
  | .window => say s (Reply.plain St.seqWindow)
  | .stale => say s (Reply.plain St.seqStale)
  | .conflict => say s (Reply.plain St.seqConflict)
  | .again r =>
    if r.query then
      if op = 1 then s.attest src x.id seq p
      else
        let (q, s1) := s.query op x.id p
        say s1 q
    else
      let s1 := s.count48 (.eth 3) 0x38 1
      match r.final with
      | some q => s1.encReply src x.id seq op true r.gseq q
      | none => s1.encReply src x.id seq op false r.gseq (Reply.plain St.accepted)
  | .new =>
    if !s.grp.formed && op != 1 then say s (Reply.plain St.notReady)
    else
      match if isRun op then s.notServing else none with
      | some d => say s ⟨St.quiesced, d, 0, []⟩
      | none =>
        if isRun op && decide (256 ≤ (s.classQueue (beAt p 0 1 % 4)).length) then say s (Reply.plain St.queueFull)
        else s.runNew op x.id src seq p proofOk

/-- A packet of a session after its tag and window (R277). -/
def State.sessionIn (s : State) (id op : Nat) (p : BcpPkt) (proofOk : Bool) : State :=
  match s.session id with
  | none => s
  | some x =>
    let say := fun (s : State) (st : Nat) => s.encReply p.from_ id p.seq op false none (Reply.plain st)
    let without := fun (y : Session) => { y with parts := y.parts.filter (·.seq != p.seq) }
    if 0x1000000 < p.total then say s St.bcpTooLarge
    else if s.maxLen < p.payload.length ∨ p.total < p.offset + p.payload.length then say s St.bcpMalformed
    else
      match x.reassemble op p s.aonClk with
      | .drop => s.dropBcp
      | .malformed => say (s.modSession id without) St.bcpMalformed
      | .held ps => s.modSession id fun y => { y with parts := ps }
      | .whole b ps =>
        let s1 := s.modSession id fun y => { y with parts := ps }
        match s1.session id with
        | some y => s1.message y op p.from_ p.seq b proofOk
        | none => s1

/-- A packet in clear with no session (R280, R285, R403): ATTEST or SESSION_OPEN, in one packet. -/
def State.clearIn (s : State) (op : Nat) (p : BcpPkt) (sigOk : Bool) : State :=
  let say := fun (s : State) (st : Nat) => s.clearReply p.from_ 0 p.seq op (Reply.plain st)
  if op = 1 ∧ s.attestFull then s.dropBcp
  else
    let s1 := if op = 1 then s.countAttest else s
    if 0x1000000 < p.total then say s1 St.bcpTooLarge
    else if p.seq ≠ 0 ∨ s.maxLen < p.payload.length ∨ p.total < p.offset + p.payload.length then say s1 St.bcpMalformed
    else if p.payload.length < p.total then s1.dropBcp
    else if op = 1 then s1.attest p.from_ 0 0 p.payload
    else if !s1.grp.formed then say s1 St.notReady
    else s1.openSession p.from_ p.payload sigOk

/-- A packet with an opcode arrives (R284). `ok` is the verdict on the signatures or the proof that its payload carries. -/
def State.bcpIn (s0 : State) (op : Nat) (p : BcpPkt) (ok : Bool) : State :=
  let s := (s0.count48 (.eth 0) 0x48 1).wakeOn
  let clear := fun (r : Reply) => s.clearReply p.from_ p.session p.seq op r
  if !s0.brd.booted || !s0.ethUp then s0
  else if p.magic ≠ 0x4243 then s.dropBcp
  else if p.version ≠ 1 ∨ p.flags / 32 ≠ 0 ∨ bitOf p.flags 0 then clear (Reply.plain St.bcpMalformed)
  else if bitOf p.flags 3 then s.dataIn op p
  else if s.leftOut then clear (Reply.plain St.notReady)
  else if s.grp.headLost then clear (Reply.plain St.headLost)
  else if !s.isHead then clear ⟨St.notGroupHead, 0xFF, 0, beBytes 16 s.grp.headIp⟩
  else if p.session = 0 ∧ !bitOf p.flags 1 ∧ (op = 1 ∨ op = 2) then s.clearIn op p ok
  else if p.session = 0 ∨ !bitOf p.flags 1 ∨ op = 2 then clear (Reply.plain St.authRequired)
  else
    match s.openSessions.find? (·.id == p.session) with
    | none => clear (Reply.plain St.sessionUnknown)
    | some x =>
      match s.acceptPkt x p with
      | (true, s1) => s1.sessionIn x.id op p ok
      | (false, s1) => s1

/-- The answer to a BCP packet: RWS fields of the page come into force at its end (R310). -/
def bcp (s : State) (op : Nat) (p : BcpPkt) (ok : Bool) : Host.Outcome State Fault Refusal := settled ((s.bcpIn op p ok).takeRws (.eth 3))

/-- A packet of ATTEST (R404). -/
def execAttest (p : BcpPkt) (s : State) : Host.Outcome State Fault Refusal := bcp s 0x01 p false

/-- A packet of SESSION_OPEN (R406). -/
def execSessionOpen (p : BcpPkt) (sigOk : Bool) (s : State) : Host.Outcome State Fault Refusal := bcp s 0x02 p sigOk

/-- A packet of SESSION_CLOSE (R283). -/
def execSessionClose (p : BcpPkt) (s : State) : Host.Outcome State Fault Refusal := bcp s 0x03 p false

/-- A packet of DEBUG_UNLOCK (R409 to R411). -/
def execDebugUnlock (p : BcpPkt) (proofOk : Bool) (s : State) : Host.Outcome State Fault Refusal := bcp s 0x04 p proofOk

/-- A packet of GROUP_STATE (R299). -/
def execGroupState (p : BcpPkt) (s : State) : Host.Outcome State Fault Refusal := bcp s 0x10 p false

/-- A packet of COMMAND_STATUS (R299). -/
def execCommandStatus (p : BcpPkt) (s : State) : Host.Outcome State Fault Refusal := bcp s 0x11 p false

/-- A packet of READ_REG (R297). -/
def execReadReg (p : BcpPkt) (s : State) : Host.Outcome State Fault Refusal := bcp s 0x12 p false

/-- A packet of WRITE_REG (R297). -/
def execWriteReg (p : BcpPkt) (s : State) : Host.Outcome State Fault Refusal := bcp s 0x13 p false

/-- A packet of MEM_READ (R297). -/
def execMemRead (p : BcpPkt) (s : State) : Host.Outcome State Fault Refusal := bcp s 0x14 p false

/-- A packet of MEM_WRITE (R297). -/
def execMemWrite (p : BcpPkt) (s : State) : Host.Outcome State Fault Refusal := bcp s 0x15 p false

/-- A packet of TELEMETRY (R358). -/
def execTelemetry (p : BcpPkt) (s : State) : Host.Outcome State Fault Refusal := bcp s 0x16 p false

/-- A packet of ERROR_READ (R371). -/
def execErrorRead (p : BcpPkt) (s : State) : Host.Outcome State Fault Refusal := bcp s 0x17 p false

/-- A packet of ERROR_ACK (R371). -/
def execErrorAck (p : BcpPkt) (s : State) : Host.Outcome State Fault Refusal := bcp s 0x18 p false

/-- A packet of SET_CONFIG (R298). -/
def execSetConfig (p : BcpPkt) (s : State) : Host.Outcome State Fault Refusal := bcp s 0x19 p false

/-- A packet of IMAGE_BEGIN (R302). -/
def execImageBegin (p : BcpPkt) (s : State) : Host.Outcome State Fault Refusal := bcp s 0x20 p false

/-- A packet of IMAGE_DATA (R303). -/
def execImageData (p : BcpPkt) (s : State) : Host.Outcome State Fault Refusal := bcp s 0x21 p false

/-- A packet of IMAGE_COMMIT (R304). -/
def execImageCommit (p : BcpPkt) (s : State) : Host.Outcome State Fault Refusal := bcp s 0x22 p false

/-- A packet of IMAGE_ACTIVATE (R301). -/
def execImageActivate (p : BcpPkt) (s : State) : Host.Outcome State Fault Refusal := bcp s 0x23 p false

/-- A packet of IMAGE_UNLOAD (R305). -/
def execImageUnload (p : BcpPkt) (s : State) : Host.Outcome State Fault Refusal := bcp s 0x24 p false

/-- A packet of EXEC (R296). -/
def execExec (p : BcpPkt) (s : State) : Host.Outcome State Fault Refusal := bcp s 0x30 p false

/-- A packet of PREFILL (R315). -/
def execPrefill (p : BcpPkt) (s : State) : Host.Outcome State Fault Refusal := bcp s 0x31 p false

/-- A packet of SCORE (R329). -/
def execScore (p : BcpPkt) (s : State) : Host.Outcome State Fault Refusal := bcp s 0x32 p false

/-- A packet of CANCEL (R294). -/
def execCancel (p : BcpPkt) (s : State) : Host.Outcome State Fault Refusal := bcp s 0x33 p false

/-- A packet of KV_PAGE_DATA (R300). -/
def execKvPageData (p : BcpPkt) (s : State) : Host.Outcome State Fault Refusal := bcp s 0x41 p false

/-- A packet with an opcode that R295 does not list. -/
def execReservedOpcode (opcode : Nat) (p : BcpPkt) (s : State) : Host.Outcome State Fault Refusal :=
  if isQuery opcode || isSequenced opcode || opcode == 0x21 || opcode == 0x41 then .next s else bcp s opcode p false

/-- A message still incomplete 100 ms after its first packet is discarded (R277). -/
def execReassemblyTimeout (session seq : Nat) (s : State) : Host.Outcome State Fault Refusal :=
  let keep := fun (q : Partial) => q.seq != seq || decide (s.aonClk < q.since + 10000000)
  .next (s.modSession session fun x => { x with parts := x.parts.filter keep })

end Sys2Proof.Machine
end

