-- ==== Sys2Proof/Machine/Flits.lean ====
section
/-! DEFINITION. The sequenced flits but SYNC: WRITE, READ, RDATA, ACK, MULE, REDUCE and PIECE_END (R239, R262, R263, R265, R266), flits that no
router takes (R239), and the datagrams of d4 and d5 (R256, R257). -/

namespace Sys2Proof.Machine

/-! ### Pairings -/

/-- The `FTYPE` and `VC` of a flit are a pairing of R239, with a SYNC subtype of R243. -/
def Flit.paired (f : Flit) : Bool :=
  match f.ftype with
  | 1 => f.vc == 1 || f.vc == 2 || f.vc == 3
  | 2 => f.vc == 2 || f.vc == 3
  | 3 => f.vc == 2 || f.vc == 3
  | 4 => f.vc == 1 || f.vc == 2 || f.vc == 3
  | 5 => f.vc == 3
  | 6 => f.vc == 1
  | 7 => f.vc == 0 && decide (1 ≤ f.aux % 256 ∧ f.aux % 256 ≤ 0x18)
  | 8 => f.vc == 1
  | _ => false

/-- The router's record of a flit that it does not take (R239, R272): the port is its unit, the source stands in `ADDR` as a device. -/
def State.invalidFlit (s : State) (p : Nat) (f : Flit) : State :=
  if p < 8 then s.raise (St.islLink p) (s.newRec St.clsProtocol St.linkFlitInvalid (unitLink p) (f.src * 2 ^ 48) 0)
  else s.raise St.islEth (s.newRec St.clsProtocol St.linkFlitInvalid unitEth (f.src * 2 ^ 48) 0)

/-! ### Reads and writes of peers -/

/-- The ACK of a flit's transfer; `AUX` carries the status with which a refused one returns (R19, R239). -/
def State.ackOf (s : State) (f : Flit) (st : Nat) : Flit :=
  ⟨4, f.vc, true, f.src, s.devIndex, 0, f.tid, st, [⟨0, false⟩]⟩

/-- The target of a refused access raises its record (R19, R151). -/
def State.refusedHere (s : State) (st a : Nat) : State :=
  s.raise (islandOfAddr a) (s.newRec St.clsConfig st (unitOfAddr a) (s.globalAddr a) 0)

/-- A WRITE from a peer (R239): performed and, at the end of its transfer, acknowledged; refused where R151 refuses it. Collective pieces are
ended by PIECE_END instead, and those of a stopped operation are discarded (R269). -/
def State.takeWrite (s : State) (f : Flit) : State :=
  let n := 4 * f.words.length
  match s.refusalRange true f.addr n with
  | some st =>
    let s1 := s.refusedHere st f.addr
    if f.vc ≠ 1 && f.last then s1.sendFlit none false (s1.ackOf f st) else s1
  | none =>
    let slot := if f.vc = 1 then field f.aux 0 2 else s.activeSlot.getD 4
    let s1 := (s.putWords f.addr f.words).noteWrote slot f.addr n
    if f.vc ≠ 1 && f.last then s1.sendFlit none false (s1.ackOf f St.ok) else s1

/-- A READ from a peer (R239): its words return as RDATA flits to the address it names. -/
def State.takeRead (s : State) (f : Flit) : State :=
  let n := min (f.aux % 1024 + 1) 512
  let to_ := (f.words.getD 0 ⟨0, false⟩).bits.toNat + 2 ^ 32 * (f.words.getD 1 ⟨0, false⟩).bits.toNat
  match s.refusalRange false f.addr (4 * n) with
  | some st => let s1 := s.refusedHere st f.addr; s1.sendFlit none false (s1.ackOf f st)
  | none =>
    (s.noteWords (unitOfAddr f.addr) (islandOfAddr f.addr) f.addr n).sendFlits (bitOf f.addr 11)
      (wordFlits 3 f.vc f.src s.devIndex f.tid 0 (n + 1) to_ (s.peekWords f.addr n))

/-- The stream context of core c that holds a tag. -/
def CoreState.tagged (x : CoreState) (tag : Nat) : Option (Nat × StreamCtx) :=
  x.streams.find? fun e => e.2.segs.any (·.tag == tag)

/-- Addresses of poisoned words among those written from `a`. -/
def badAt (a : Nat) (ws : List PWord) : List Nat :=
  (((List.range ws.length).zip ws).filter (·.2.poison)).map fun e => a + 4 * e.1

/-- Words of a READ that a stream segment or a Mule transfer of core c asked for (R183, R190, R239): written here, or sent on to the peer that
is their destination. A poisoned word taints the tile (R189). -/
def State.coreData (s : State) (c tag : Nat) (f : Flit) : State :=
  let n := f.words.length
  if f.vc = 2 then
    match (s.core c).tagged tag with
    | none => s
    | some (k, st) =>
      match st.segs.find? (·.tag == tag) with
      | none => s
      | some g =>
        let s1 := s.modStream c k fun y =>
          { y with segs := y.segs.map fun h => if h.tag = tag then { h with got := h.got + n } else h }
        if g.dstDev = s.devIndex then (s1.putWords f.addr f.words).taintTile c st.unit (badAt (g.srcAddr + 4 * g.got) f.words)
        else
          let a := g.dstAddr + 4 * g.got
          (s1.taintTile c st.unit (badAt (g.srcAddr + 4 * g.got) f.words)).sendFlit none (bitOf a 11)
            ⟨1, 2, decide (g.n ≤ g.got + n), g.dstDev, s.devIndex, a, f.tid, 0, f.words⟩
  else
    match (s.core c).mule tag with
    | none => s
    | some m =>
      let s1 := s.modCore c fun x => { x with mules := x.mules.map fun e =>
        if e.1 = tag then (tag, { e.2 with words := e.2.words ++ f.words, need := e.2.need - n }) else e }
      let s2 := s1.taintTile c m.unit (badAt (m.srcAddr + 4 * m.words.length) f.words)
      State.sendMules c m.dstDev (s2.core c).mules s2

/-- An RDATA flit (R239): for a core's stream or Mule transfer, or for Gander 2, which asked for a page or a twin's granule (R170, R376). -/
def State.takeRdata (s : State) (f : Flit) : State :=
  let u := f.tid / 256
  if u < 48 then s.coreData u (f.tid % 256) f
  else if u < 52 then s.putWords f.addr f.words
  else s

/-- An ACK flit (R239): the transfer of its tag is over, with the status it carries. -/
def State.takeAck (s : State) (f : Flit) : State :=
  let u := f.tid / 256
  let t := f.tid % 256
  if 48 ≤ u then s
  else if f.vc = 2 then
    match (s.core u).tagged t with
    | some (k, _) => s.ackSegment u k t (f.aux % 65536)
    | none => s
  else if f.vc = 3 then s.endMule u t (f.aux % 65536)
  else s

/-- A MULE flit (R190, R191, R239). -/
def State.takeMule (s : State) (f : Flit) : State :=
  match s.refusalRange true f.addr 4 with
  | some st => let s1 := s.refusedHere st f.addr; s1.sendFlit none false (s1.ackOf f st)
  | none =>
    let s1 := (s.applyWord (bitOf f.aux 0) f.addr (f.words.headD ⟨0, false⟩)).noteWrote (s.activeSlot.getD 4) f.addr 4
    s1.sendFlit none false (s1.ackOf f St.ok)

/-! ### Collectives -/

/-- The router that serves the step of an operation tag (R251, R267). -/
def tagPort (tag : Nat) : Nat := if field tag 9 3 < 4 then 2 * field tag 9 3 + field tag 19 13 % 2 else field tag 9 3 + 4

/-- The operation of a tag has been stopped here (R269 step 2). -/
def State.tagStopped (s : State) (tag : Nat) : Bool :=
  match s.ctx (field tag 0 2) with
  | none => false
  | some x => s.links.aborted.any fun o =>
      o % 2 ^ 32 == x.gseq && field o 42 1 == field tag 2 1 && field o 44 18 % 64 == field tag 3 6 && field o 62 2 == x.reexec % 4

/-- The M group of a tag among those in flight (R113, R260). -/
def State.tagGroup (s : State) (tag : Nat) : Nat :=
  let r := (s.ctx (field tag 0 2)).bind (·.run)
  let mgs := match r with
    | none => []
    | some r => if field tag 2 1 = 0 then r.gathers.map (fun g : Gather => g.mg) else r.scatters.map (fun g : Scatter => g.mg)
  (mgs.find? fun m => m % 64 == field tag 3 6).getD (field tag 3 6)

/-- A PIECE_END (R265): it is kept until the launch when the operation has not been launched here; a piece that is whole goes on over the
higher dimensions. -/
def State.takePieceEnd (s : State) (f : Flit) : State :=
  let tag := f.aux
  let k := field tag 0 2
  let mg := s.tagGroup tag
  let q := field tag 12 7
  let d := field tag 9 3
  if s.tagStopped tag then s
  else
    match ((s.ctx k).bind (·.run)).bind fun r => (r.gather mg).map fun g => (r, g) with
    | none => { s with links := { s.links with earlyEnds := s.links.earlyEnds ++ [(tag, 0)] } }
    | some (r, g) =>
      if !g.launched then { s with links := { s.links with earlyEnds := s.links.earlyEnds ++ [(tag, 0)] } }
      else
        let s1 := s.shareEnd k mg q d
        let whole := (((s1.ctx k).bind (·.run)).bind (·.gather mg)).any fun h => h.mask.testBit q
        match r.prog.gmmRec with
        | some m =>
          if whole && !g.mask.testBit q then
            ((dimList (sget 0 r.groupDims m.group)).filter fun e => decide (d < e)).foldl (fun s e => s.sendPiece k r m mg q e) s1
          else s1
        | none => s1

/-- Words of a partner's segment reach their slot (R262, R263): once the segment is whole and the own operand is held, they are added and the
sum goes on. -/
def State.takeReduce (s : State) (f : Flit) : State :=
  let tag := f.aux
  let port := tagPort tag
  let a := port * 32 + field f.addr 18 5
  if s.tagStopped tag then s
  else
    match s.links.slots.find? fun e => e.1 == a && e.2.tag == tag with
    | none => s
    | some (_, sl) =>
      let o := field f.addr 0 18 / 4
      let sl2 := { sl with words := sl.words ++ ((List.range f.words.length).zip f.words).map fun e => (o + e.1, e.2) }
      let s1 := s.setSlot a sl2
      match sl.own with
      | none => s1
      | some own =>
        if sl2.words.length < sl2.len then s1
        else
          let k := field tag 0 2
          let mg := s.tagGroup tag
          match ((s.ctx k).bind (·.run)).bind fun r => r.prog.mrsRec.map fun m => (r, m) with
          | none => s1
          | some (r, m) =>
            let other := (List.range own.length).map fun i => sget ⟨0, false⟩ sl2.words i
            let s2 := s1.clearSlot a
            let s3 := if port < 8 then s2.count48 (.lnk port) 0x50 1 else s2
            State.passOn k mg (field tag 12 7) (field tag 19 13)
              ((dimList (sget 0 r.groupDims m.group)).filter fun e => decide (field tag 9 3 < e))
              ((own.zip other).map fun e => redAdd m.bf16 e.1 e.2) s3

/-- A partner asks for a place for a segment (R263): an operand held in a slot is met there, else a free slot is given, or the request waits. -/
def State.takeGrantReq (s : State) (src tag bytes : Nat) : State :=
  let port := tagPort tag
  let k := field tag 0 2
  if s.tagStopped tag then s
  else
    let free := match s.slotOf port tag with
      | some (a, _) => if a < 1024 then some a else s.freeSlot port k
      | none => s.freeSlot port k
    match free with
    | some a => s.grantSlot a port src tag bytes
    | none => { s with links := { s.links with grants := s.links.grants ++ [⟨port, src, tag, bytes⟩] } }

/-- The flits of a segment of partial sums to a slot (R262). -/
def reduceFlits (dst src port tag slot : Nat) : Nat → Nat → List PWord → List Flit
  | 0, _, _ => []
  | fuel + 1, off, ws =>
    let f : Flit := ⟨6, 1, decide (ws.length ≤ 64), dst, src, put slot 18 5 + put off 0 18, (56 + port % 8) * 256, tag, ws.take 64⟩
    if ws.length ≤ 64 then [f] else f :: reduceFlits dst src port tag slot fuel (off + 256) (ws.drop 64)

/-- A place is granted: the segment that waits for it is sent (R263). -/
def State.takeGrant (s : State) (src tag slot : Nat) : State :=
  match s.links.sends.find? fun w => w.tag == tag && w.dst == src with
  | none => s
  | some w =>
    let s1 : State := { s with links := { s.links with sends := s.links.sends.filter (· != w) } }
    (reduceFlits src s.devIndex w.port tag slot (w.words.length + 1) 0 w.words).foldl
      (fun s f => s.sendOver (field tag 9 3) (w.port % 2 == 1) f) s1

/-! ### Reception -/

/-- What a flit that has been delivered does (R239, R251): it is refused, carried out here, or sent on over the dimension after `from_`. SYNC
messages have their own commands. -/
def State.route (s : State) (p from_ : Nat) (f : Flit) : State :=
  if !f.paired then s.invalidFlit p f
  else if f.dst ≠ s.devIndex then (if f.ftype = 7 then s else s.sendFlit (some from_) (p % 2 == 1) f)
  else
    match f.ftype with
    | 1 => if f.vc = 1 ∧ s.tagStopped f.aux then s else s.takeWrite f
    | 2 => s.takeRead f
    | 3 => s.takeRdata f
    | 4 => s.takeAck f
    | 5 => s.takeMule f
    | 6 => s.takeReduce f
    | 8 => s.takePieceEnd f
    | _ => s

/-- A flit arrives at a port. -/
def State.flitIn (s : State) (p : Nat) (f : Flit) (tr : Trailer) : Host.Outcome State Fault Refusal :=
  settled (s.deliver p tr f.vc 1 fun s => s.route p (p / 2) f)

/-- A WRITE flit. -/
def execWrite (port : Fin 8) (f : Flit) (tr : Trailer) (s : State) : Host.Outcome State Fault Refusal :=
  s.flitIn port { f with ftype := 1 } tr

/-- A READ flit. -/
def execRead (port : Fin 8) (f : Flit) (tr : Trailer) (s : State) : Host.Outcome State Fault Refusal :=
  s.flitIn port { f with ftype := 2 } tr

/-- An RDATA flit. -/
def execRdata (port : Fin 8) (f : Flit) (tr : Trailer) (s : State) : Host.Outcome State Fault Refusal :=
  s.flitIn port { f with ftype := 3 } tr

/-- An ACK flit. -/
def execAck (port : Fin 8) (f : Flit) (tr : Trailer) (s : State) : Host.Outcome State Fault Refusal :=
  s.flitIn port { f with ftype := 4 } tr

/-- A MULE flit. -/
def execMule (port : Fin 8) (f : Flit) (tr : Trailer) (s : State) : Host.Outcome State Fault Refusal :=
  s.flitIn port { f with ftype := 5 } tr

/-- A REDUCE flit. -/
def execReduce (port : Fin 8) (f : Flit) (tr : Trailer) (s : State) : Host.Outcome State Fault Refusal :=
  s.flitIn port { f with ftype := 6 } tr

/-- A PIECE_END flit. -/
def execPieceEnd (port : Fin 8) (f : Flit) (tr : Trailer) (s : State) : Host.Outcome State Fault Refusal :=
  s.flitIn port { f with ftype := 8 } tr

/-- A flit with a reserved type, VC pairing or SYNC subtype (R239, R243): acknowledged in sequence and discarded. -/
def execLinkFlitInvalid (port : Fin 8) (f : Flit) (tr : Trailer) (s : State) : Host.Outcome State Fault Refusal :=
  if f.paired || f.ftype == 0 || f.ftype == 0xF then .next s
  else .next (s.deliver port tr (f.vc % 4) 1 fun s => s.invalidFlit port f)

/-! ### Datagrams -/

/-- A datagram of d4 (0) or d5 (1) arrives (R256, R257): its ACK and credits are taken; it is delivered in sequence, or discarded. A datagram
without flits carries an ACK alone. SYNC messages among its flits are their own commands. -/
def State.datagramIn (s : State) (i version seq ack : Nat) (flits : List Flit) (credits : List (Nat × Nat)) : State :=
  let s0 := s.count48 (.eth 0) 0x48 1
  if version ≠ 1 then s0.count48 (.eth 0) 0x50 1
  else
    let x := s0.ethDim i
    let top : Vector Nat 4 := #v[256, 4096, 4096, 256]
    let left := match x.unacked.findIdx? (·.seq == ack) with
      | some j => x.unacked.drop (j + 1)
      | none => x.unacked
    let cr := credits.foldl (fun (v : Vector Nat 4) c => v.mapIdx fun j n => if j = c.1 then min (n + c.2) (top.toList.getD j 0) else n) x.credits
    let s1 := s0.setEthDim i { x with unacked := left, credits := cr }
    if flits.isEmpty then s1.drainEth i
    else if seq ≠ x.rxNext then s1.drainEth i
    else
      let s2 := s1.setEthDim i { (s1.ethDim i) with rxNext := (seq + 1) % 2 ^ 32 }
      let s3 := flits.foldl (fun s f => s.route (8 + i) (4 + i) f) s2
      let back := (List.range 4).map fun v => (v, (flits.filter (·.vc == v)).length)
      (s3.emit (.datagram (4 + i) (s3.ethDim i).txSeq seq [] (back.filter (·.2 != 0)))).drainEth i

/-- A datagram arrives. -/
def execDatagramReceive (dim : Fin 2) (version seq ack : Nat) (flits : List Flit) (credits : List (Fin 4 × Nat)) (s : State) :
    Host.Outcome State Fault Refusal :=
  settled (s.datagramIn dim version seq ack flits (credits.map fun c => (c.1.val, c.2)))

end Sys2Proof.Machine
end

