-- ==== Sys2Proof/Machine/Group.lean ====
section
/-! DEFINITION. What the members of a group tell one another over VC0 (R243): commands and their ends (R26, R35, R287, R288), the head's life
(R289), barriers (R207), grants (R263), aborts and freezes (R268 to R271), re-executions (R376, R377), wrapped keys (R407) and departures (R216);
and edges that go down (R253, R257). -/

namespace Sys2Proof.Machine

/-! ### Reception (R243, R255) -/

/-- Dimensions over which a broadcast is forwarded: those of the group; a CALL and a FORMED carry the size themselves (R433). -/
def State.castDims (s : State) (sub : Nat) (ws : List Word) : Nat :=
  let w := (ws.headD 0).toNat
  if sub = 0x15 then Nat.log2 (field w 8 8) else if sub = 0x17 then max (Nat.log2 (field w 0 7)) (Nat.log2 (beAt s.sec.board 400 1)) else s.dims

/-- A SYNC message that has been delivered: the head has been heard (R289), a broadcast goes on over the higher dimensions (R255), and a message
for another device is forwarded (R251). -/
def State.takeSync (s : State) (m : SyncMsg) (sub : Nat) (here : State → State) : State :=
  let heard := s.grp.formed && decide (m.src = s.grp.head)
  let s0 : State := if heard then { s with grp := { s.grp with headSeen := s.aonClk } } else s
  let from_ := if m.via.val < 8 then m.via.val / 2 else m.via.val - 4
  if m.dst ≠ s.devIndex then
    (s0.syncFlits m.dst sub (m.bcast.map (·.val)) m.words).foldl (fun s f => s.sendFlit (some from_) false { f with src := m.src }) s0
  else
    here (match m.bcast with
      | some b => s0.castOver (b.val + 1) (s0.castDims sub m.words) sub m.src m.words
      | none => s0)

/-- A SYNC message arrives: over a chip link as its flits in sequence, over d4 or d5 in a datagram that has been delivered. -/
def State.syncIn (s : State) (m : SyncMsg) (sub : Nat) (here : State → State) : Host.Outcome State Fault Refusal :=
  if m.via.val < 8 then
    settled (s.deliver m.via.val m.tr 0 (max 1 (ceilDiv m.words.length 64)) fun s => s.takeSync m sub here)
  else if s.ethUp then settled (s.takeSync m sub here)
  else .next s

/-- Word i of a message as a number. -/
def SyncMsg.at_ (m : SyncMsg) (i : Nat) : Nat := (m.words.getD i 0).toNat

/-- A 64-bit number from two words, the low word first. -/
def SyncMsg.at64 (m : SyncMsg) (i : Nat) : Nat := m.at_ i + 2 ^ 32 * m.at_ (i + 1)

/-- A member that follows the head's news. -/
def State.follows (s : State) : Bool := s.grp.formed && !s.isHead && !s.grp.headLost

/-! ### Commands (R26, R287) -/

/-- The payload bytes of a COMMAND. -/
def commandBytes (ws : List Word) : List Byte := (ws.drop 6).flatMap fun w => beBytes 4 w.toNat

/-- Apply the words of a COMMAND. -/
def State.applyWords (s : State) (ws : List Word) (proofOk : Bool) : State :=
  let w := fun i => (ws.getD i 0).toNat
  let p := commandBytes ws
  let op := w 1 % 2 ^ 16
  let prompt := if op = 0x31 then some (parsePrompt p true (s.holdOf p)) else none
  s.applySeq (w 0) op (field (w 1) 16 2) (w 2) 0 (w 3) p prompt proofOk

/-- Apply the held commands that are next in sequence; `fuel` is at least the number held. -/
def State.applyHeld : Nat → State → State
  | 0, s => s
  | fuel + 1, s =>
    match s.svc.held.find? fun e => e.1 == (s.grp.lastGseq + 1) % 2 ^ 32 with
    | none => s
    | some e => State.applyHeld fuel ((s.modSvc fun v => { v with held := v.held.filter (·.1 != e.1) }).applyWords e.2.2 (e.2.1 == 1))

/-- A COMMAND (R26, R287): applied when it is next in sequence, with what was held behind it; held when it is ahead of a gap. -/
def State.takeCommand (s : State) (ws : List Word) (proofOk : Bool) : State :=
  let g := (ws.getD 0 0).toNat
  let d := (g + 2 ^ 32 - s.grp.lastGseq) % 2 ^ 32
  if !s.follows || d == 0 || decide (2 ^ 31 ≤ d) then s
  else if d = 1 then
    let s1 := s.applyWords ws proofOk
    State.applyHeld s1.svc.held.length s1
  else if s.svc.held.any (·.1 == g) then s
  else s.modSvc fun v => { v with held := v.held ++ [(g, b01 proofOk, ws)] }

/-- A SYNC COMMAND; `proofOk` is the outcome of the checks that a DEBUG_UNLOCK in it needs on the device that it names. -/
def execCommand (m : SyncMsg) (proofOk : Bool) (s : State) : Host.Outcome State Fault Refusal :=
  s.syncIn m 1 fun s => s.takeCommand m.words proofOk

/-- A prompt or command that failed on a member (R35, R380) ends here too: its context is reset, or only the prompt leaves its chunk (R319). -/
def State.memberFailed (s : State) (gseq : Nat) (r : Reply) : State :=
  match s.cmd gseq with
  | none => s
  | some c =>
    if c.ownDone then (s.finalReply gseq r).cancelOthers gseq else s.endCommand gseq r

/-- A host's CANCEL of a command has been sequenced. -/
def State.hostCancelled (s : State) (gseq : Nat) : Bool :=
  s.svc.cmds.any fun c => c.opcode == 0x33 && beAt c.payload 0 4 == gseq

/-- A DONE reaches the head (R35, R288): the member has finished the command. What DONE does not carry of a failure is open. -/
def State.takeDone (s : State) (dev gseq st : Nat) (recAck : Bool) : State :=
  if !s.isHead then s
  else
    match s.cmd gseq with
    | none => s
    | some c =>
      let detail := s.nextFree % 2 ^ 64
      if !c.run then
        if c.opcode = 4 ∧ st = St.ok ∧ beAt c.payload 0 1 = 2 ∧ beAt c.payload 1 1 = 0 ∧ beAt c.payload 2 1 = dev then
          let (b, s1) := s.freeBytes 64
          s1.mgmtDone gseq dev ⟨st, 0xFF, 0, b⟩
        else if st = St.ok then s.mgmtDone gseq dev (Reply.plain st)
        else s.drawFree.mgmtDone gseq dev ⟨st, dev, detail, []⟩
      else
        let s1 := s.modCmd gseq fun x => { x with
          doneMask := x.doneMask ||| 2 ^ dev
          recMask := if recAck then x.recMask ||| 2 ^ dev else x.recMask
          reply := if st = St.debugForced && x.reply.status == St.ok then { x.reply with status := st } else x.reply }
        if st = St.ok ∨ st = St.debugForced then s1.tryFinal gseq
        else if c.final ∨ (st = St.cancelled ∧ s.hostCancelled gseq) then s1
        else if st = St.cancelled then s1.drawFree.memberFailed gseq ⟨st, dev, detail % 2 ^ 56, []⟩
        else s1.memberFailed gseq ⟨st, dev, 0, []⟩

/-- A SYNC DONE. -/
def execDone (m : SyncMsg) (s : State) : Host.Outcome State Fault Refusal :=
  s.syncIn m 0xC fun s => s.takeDone m.src (m.at_ 0) (m.at_ 1 % 2 ^ 16) (bitOf (m.at_ 2) 0)

/-- The first token of a prompt is known (R320): what waited for it goes on. -/
def State.takeToken (s : State) (gseq token : Nat) (logp : Word) : State :=
  let s1 := s.modCmd gseq fun c => { c with prompt := c.prompt.map fun q => { q with firstToken := some (token, logp) } }
  match s1.promptCtx gseq with
  | some (k, _) => s1.chunkGo k
  | none => s1

/-- A SYNC FIRST_TOKEN. -/
def execFirstToken (m : SyncMsg) (s : State) : Host.Outcome State Fault Refusal :=
  s.syncIn m 0xD fun s => if s.follows then s.takeToken (m.at_ 0) (m.at_ 1) (m.words.getD 2 0) else s

/-- A SYNC ROUTE_DIGEST, compared at the head (R33). -/
def execRouteDigest (m : SyncMsg) (s : State) : Host.Outcome State Fault Refusal :=
  s.syncIn m 0xE fun s => if s.isHead then s.takeDigest (m.at_ 0) (m.at_ 1 % 2 ^ 7) m.src (m.at_ 2) else s

/-- A SYNC KEY_WRAP (R407): the keys of a session, kept when their tag verifies. -/
def execKeyWrap (m : SyncMsg) (tagOk : Bool) (s : State) : Host.Outcome State Fault Refusal :=
  s.syncIn m 0xF fun s => if s.follows && tagOk then s.keepSession (m.at_ 0) (Config.unwrapKeys (m.words.drop 1)) else s

/-! ### The head's life (R289) -/

/-- The head is lost (R289): every context is reset, every session is told and ends, and no command starts any more. -/
def State.headGone (s : State) : State :=
  if s.grp.headLost then s
  else
    let s1 := (List.range 4).foldl (fun s k => (s.resetCtx k).endCtx k) s
    let s2 := s1.svc.egress.foldl (fun s e => s.dropEgress e.gseq) s1
    let s3 : State := { s2 with grp := { s2.grp with headLost := true } }
    let s4 := (s3.stateNotice St.headLost).modSvc fun v => { v with sessions := [], queues := Vector.replicate 4 [], held := [] }
    (s4.rput .aon 4 6 1 0).startSt St.headLost 0

/-- What HEAD_LOST states of the head holds: nothing heard for 16 ms, no path to it, or its own news that it leaves (R289). -/
def State.headSilent (s : State) : HeadLoss → Bool
  | .silent => !s.isHead && decide (s.grp.headSeen + 1600000 ≤ s.aonClk)
  | .unreachable => !s.isHead && (s.hop s.grp.head none).isNone
  | .mgmtLost => s.grp.joins.any fun j => j.dev == s.grp.head && j.left == some St.mgmtLost

/-- A device declares the head lost. -/
def execHeadLost (cause : HeadLoss) (s : State) : Host.Outcome State Fault Refusal :=
  if s.grp.formed && s.headSilent cause then settled s.headGone else .next s

/-- A SYNC HEARTBEAT: that the head has been heard is noted for every message of it. -/
def execHeartbeat (m : SyncMsg) (s : State) : Host.Outcome State Fault Refusal := s.syncIn m 2 fun s => s

/-- The head's heartbeat is due (R289). -/
def execHeartbeatPeriod (s : State) : Host.Outcome State Fault Refusal :=
  if s.grp.formed && s.isHead && !s.grp.headLost then
    .next (s.broadcast 2 [BitVec.ofNat 32 s.grp.lastGseq, BitVec.ofNat 32 s.aonClk])
  else .next s

/-! ### Barriers and grants -/

/-- An arrival message of a group barrier (R207): held until the barrier can use it. -/
def State.takeArrive (s : State) (g k gen context : Nat) : State :=
  let b := s.gbar g
  let e := (gen + 65536 * context, k)
  noteEnd g ((s.setGbar g { b with msgs := if b.msgs.contains e then b.msgs else b.msgs ++ [e] }).gStep g)

/-- A SYNC ARRIVE. -/
def execArrive (m : SyncMsg) (s : State) : Host.Outcome State Fault Refusal :=
  s.syncIn m 3 fun s => s.takeArrive (field (m.at_ 0) 0 6) (field (m.at_ 0) 6 3) (field (m.at_ 1) 0 16) (field (m.at_ 1) 16 16)

/-- A SYNC GRANT_REQ. -/
def execGrantReq (m : SyncMsg) (s : State) : Host.Outcome State Fault Refusal :=
  s.syncIn m 4 fun s => s.takeGrantReq m.src (m.at_ 0) (m.at_ 2)

/-- A SYNC GRANT. -/
def execGrant (m : SyncMsg) (s : State) : Host.Outcome State Fault Refusal :=
  s.syncIn m 5 fun s => s.takeGrant m.src (m.at_ 0) (m.at_ 1 % 32)

/-! ### Aborts (R268 to R271) -/

/-- The slot whose running program has launched an operation of this ID. -/
def State.opSlot (s : State) (opid : Nat) : Option Nat :=
  (List.range 4).find? fun k =>
    (s.ctx k).any fun x => x.run.any fun r => x.gseq == opid % 2 ^ 32 && r.index == field opid 32 10 && x.reexec % 4 == field opid 62 2 &&
      (if field opid 42 1 = 0 then r.gathers.any fun g => g.mg == field opid 44 18 && g.launched
       else r.scatters.any fun g => g.mg == field opid 44 18)

/-- An ABORT is held here (R269, R271): an operation launched here stops; one not yet launched aborts at its launch. -/
def State.takeAbort (s : State) (a : AbortNote) : State :=
  let s1 := s.noteAbort a
  match s1.opSlot a.opid with
  | some k => if s1.links.aborted.contains a.opid then s1 else s1.stopOp k a.opid
  | none => s1

/-- A SYNC ABORT. -/
def execAbort (m : SyncMsg) (s : State) : Host.Outcome State Fault Refusal :=
  let w := m.at_ 2
  let a : AbortNote := ⟨m.at64 0, field w 0 6, if bitOf w 14 then some (field w 8 6) else none, field w 16 3⟩
  s.syncIn m 6 fun s => if s.grp.formed then s.takeAbort a else s

/-- The dimension of the lowest step of an operation whose input has not come (R268): a piece of a gather, a segment or a grant of a scatter. -/
def State.missingStep (s : State) (k opid : Nat) : Option Nat :=
  let mg := field opid 44 18
  match (s.ctx k).bind (·.run) with
  | none => none
  | some r =>
    if field opid 42 1 = 0 then
      match r.prog.gmmRec, r.gather mg with
      | some g, some h =>
        let dims := dimList (sget 0 r.groupDims g.group)
        let me := rankOf (sget 0 r.groupDims g.group) s.devIndex
        let missing := (List.range (r.prog.gmmPieces)).filter fun q => !h.mask.testBit q
        let steps := missing.filterMap fun q => dims[Nat.log2 (q ^^^ me)]?
        steps.min?
      | _, _ => none
    else
      let mine := fun (t : Nat) => field t 0 2 == k && field t 2 1 == 1 && field t 3 6 == mg % 64
      let waits := (s.links.sends.filter fun e => mine e.tag).map fun e => field e.tag 9 3
      let slots := (s.links.slots.filter fun e => mine e.2.tag && e.2.own.isSome && decide (e.2.words.length < e.2.len)).map fun e => field e.2.tag 9 3
      (waits ++ slots).min?

/-- The timer of an operation has run out with an input missing (R268): this member aborts it, accusing the partner of that step. -/
def State.collTimeout (s : State) (opid : Nat) : State :=
  match s.opSlot opid with
  | none => s
  | some k =>
    if !s.links.timers.contains (opid, 0) || s.opLive opid != some false || s.links.aborted.contains opid then s
    else
      match s.missingStep k opid with
      | none => s
      | some d => (s.sendAbort opid (some (s.devIndex ^^^ 2 ^ d)) 0).stopOp k opid

/-- A collective operation times out. -/
def execCollectiveTimeout (opid : Nat) (s : State) : Host.Outcome State Fault Refusal := settled (s.collTimeout opid)

/-- Eight ticks after its first ABORT the member records it (R270): the lowest accused, the lowest accuser and that accuser's cause, latched in
the registers of port 0. -/
def State.recordAbort (s : State) (opid : Nat) : State :=
  let l := s.links.aborts.filter (·.opid == opid)
  match s.links.abortDue.contains (opid, 0), (l.map (·.accuser)).min? with
  | true, some accuser =>
    let accused := (l.filterMap (·.accused)).min?
    let cause := ((l.find? (·.accuser == accuser)).map (·.cause)).getD 0
    let d := put (accused.getD 0) 0 6 + put (b01 accused.isSome) 6 1 + put accuser 8 6 + put cause 16 3
    let cx := ((List.range 4).filterMap s.ctx).find? fun x => x.gseq == opid % 2 ^ 32
    let s1 : State := { s with links := { s.links with abortDue := s.links.abortDue.filter (·.1 != opid) } }
    let s2 := s1.raise St.islSync ((s1.newRec St.clsTimeout St.collectiveAbort unitSync opid d).ofCtx cx)
    let s3 := (s2.rset (.lnk 0) 0x104 (BitVec.ofNat 32 (d + 2 ^ 31))).rset (.lnk 0) 0x108 (BitVec.ofNat 32 opid)
    (s3.rset (.lnk 0) 0x10C (BitVec.ofNat 32 (opid / 2 ^ 32))).count48 (.lnk 0) 0x110 1
  | _, _ => s

/-- The record of an abort is due. -/
def execAbortRecord (opid : Nat) (s : State) : Host.Outcome State Fault Refusal := .next (s.recordAbort opid)

/-- A SYNC FREEZE suspends an operation's timer here (R270). -/
def execFreeze (m : SyncMsg) (s : State) : Host.Outcome State Fault Refusal :=
  let e := (m.at64 0, m.src)
  s.syncIn m 7 fun s =>
    { s with links := { s.links with frozenOps := if s.links.frozenOps.contains e then s.links.frozenOps else s.links.frozenOps ++ [e] } }

/-- A SYNC THAW lets an operation's timer go on with the ticks left (R270). -/
def execThaw (m : SyncMsg) (s : State) : Host.Outcome State Fault Refusal :=
  let e := (m.at64 0, m.src)
  s.syncIn m 8 fun s => { s with links := { s.links with frozenOps := s.links.frozenOps.filter (· != e) } }

/-! ### Re-execution (R376, R377) -/

/-- The slot of a command. -/
def State.slotFor (s : State) (gseq : Nat) : Option Nat := (List.range 4).find? fun k => (s.ctx k).any (·.gseq == gseq)

/-- A SYNC STEP_REQ at the head. -/
def execStepReq (m : SyncMsg) (s : State) : Host.Outcome State Fault Refusal :=
  s.syncIn m 9 fun s =>
    match s.slotFor (m.at_ 0) with
    | some k => if s.isHead then s.headStep k (field (m.at_ 1) 0 10) (field (m.at_ 1) 10 18) else s
    | none => s

/-- A SYNC REEXEC on a member: a collective step, or with bit 2 a restart. -/
def State.takeReexec (s : State) (m : SyncMsg) : State :=
  match s.slotFor (m.at_ 0) with
  | some k =>
    if !s.follows then s
    else if bitOf (m.at_ 1) 2 then s.rewind k (m.at_ 1 % 4)
    else s.redoStep k (field (m.at_ 2) 0 10) (field (m.at_ 2) 10 18) (m.at_ 1 % 4)
  | none => s

/-- A SYNC REEXEC of a collective step. -/
def execReexec (m : SyncMsg) (s : State) : Host.Outcome State Fault Refusal := s.syncIn m 0xA fun s => s.takeReexec m

/-- A SYNC REEXEC that restarts a command. -/
def execCommandRestart (m : SyncMsg) (s : State) : Host.Outcome State Fault Refusal := s.syncIn m 0xA fun s => s.takeReexec m

/-! ### Departures (R216, R386) -/

/-- Note that a member has left. -/
def State.noteLeft (s : State) (dev st : Nat) : State :=
  let l := s.grp.joins
  let l' := if l.any (·.dev == dev) then l.map fun j => if j.dev = dev then { j with left := some st } else j
    else l ++ [⟨dev, true, some st⟩]
  { s with grp := { s.grp with joins := l' } }

/-- A group barrier's members agree with this device outside `DIMS` (R206). -/
def State.spans (s : State) (dims dev : Nat) : Bool := (List.range 6).all fun k => dims.testBit k || s.devIndex.testBit k == dev.testBit k

/-- Operations in flight here in which a device takes part, with their slots. -/
def State.opsWith (s : State) (dev : Nat) : List (Nat × Nat) :=
  (List.range 4).flatMap fun k =>
    match s.ctx k with
    | none => []
    | some x => (x.ops.filter fun o =>
        x.run.any fun r =>
          let g := if field o 42 1 = 0 then (r.prog.gmmRec.map (·.group)) else (r.prog.mrsRec.map (·.group))
          g.any fun e => s.spans (sget 0 r.groupDims e) dev).map fun o => (k, o)

/-- Abort the operations in which a device takes part. -/
def State.abortWith (s : State) (dev cause : Nat) : State :=
  (s.opsWith dev).foldl (init := s) fun s e =>
    if s.links.aborted.contains e.2 then s else (s.sendAbort e.2 (some dev) cause).stopOp e.1 e.2

/-- The group is no longer formed (R361, R435): contexts are reset and commands fail with `CANCELLED`, every session ends, and the device waits for a
new CALL. Images stay. -/
def State.disband (s : State) : State :=
  let r := Reply.plain St.cancelled
  let s1 := (List.range 4).foldl (fun s k => s.failCtx k r) s
  let s2 := ((s1.svc.cmds.filter (!·.final)).map (·.gseq)).foldl (fun s g => (s.dropEgress g).finalReply g r) s1
  let s3 := s2.modSvc fun v => { v with
    sessions := [], cmds := [], queues := Vector.replicate 4 [], held := [], challenges := v.challenges.filter (·.session == 0) }
  let s4 : State := { s3 with grp := { GroupState.empty with left := s3.grp.left, headLost := s3.grp.headLost, quiesced := s3.grp.quiesced } }
  ((s4.rput .aon 4 6 1 0).rput .aon 0x1C 0 7 0).rput .aon 0x1C 8 9 0

/-- Another device enters DEEP (R435): a member of its group is joining again. -/
def State.deepNotice (s : State) : State :=
  if !s.grp.formed || s.grp.headLost || s.grp.left then s else s.disband.toSt 4

/-- A member leaves the group (R216, R386): barriers that span it break, operations with it abort, and a command whose end barrier needs it
fails. A head that leaves is lost. -/
def State.memberGone (s : State) (dev st : Nat) : State :=
  if !s.grp.formed ∨ dev = s.devIndex then s
  else
    let s1 := (s.noteLeft dev st).rput .aon 4 6 1 0
    let gs := (List.range 64).filter fun g => (s1.gbar g).dims != 0 && s1.spans (s1.gbar g).dims dev && (s1.gbar g).st != .free
    let s2 := gs.foldl (fun s g => s.breakGbar g) s1
    let s3 := s2.abortWith dev 2
    let s4 := (gs.filter fun g => g % 16 == 15).foldl (fun s g => s.failCtx (g / 16) ⟨St.barrierBroken, dev, 0, []⟩) s3
    if dev = s.grp.head then s4.headGone else s4.stateNotice St.quiesced

/-- A SYNC MEMBER_LEFT; status 0 tells that the member enters DEEP. -/
def execMemberLeft (m : SyncMsg) (s : State) : Host.Outcome State Fault Refusal :=
  s.syncIn m 0x18 fun s =>
    if m.at_ 1 % 2 ^ 16 = 0 then s.deepNotice else s.memberGone (m.at_ 0 % 64) (m.at_ 1 % 2 ^ 16)

/-! ### Edges (R253, R257) -/

/-- Devices of the group that no path reaches. -/
def State.unreachable (s : State) : List Nat :=
  (List.range 64).filter fun d => d != s.devIndex && s.grp.members.testBit d && (s.hop d none).isNone

/-- Fail what this device has under way with a device that no path reaches (R188, R253, R269, R289). -/
def State.cutOff (s : State) (dev : Nat) : State :=
  let s1 := (List.range 48).foldl (init := s) fun s c =>
    let ks := (s.core c).streams.flatMap fun e => (e.2.segs.filter fun g => g.srcDev == dev || g.dstDev == dev).map fun g => (e.1, g.tag)
    let s' := ks.foldl (fun s e => s.ackSegment c e.1 e.2 St.linkUnreachable) s
    let ms := (s'.core c).mules.filter fun e => e.2.dstDev == dev
    ms.foldl (fun s e => s.endMule c e.1 St.linkUnreachable) s'
  let ps := (s1.svc.fetches.filter fun f => !f.host && !f.ready && f.device == dev).map (·.page)
  let s2 := ps.foldl (fun s p => (s.failWaiters p).unfetch p) s1
  let s3 := s2.abortWith dev 3
  if s3.grp.formed && dev == s3.grp.head then s3.headGone else s3

/-- Flits that wait for dimension k, in order (R252, R253). -/
def State.waitingOver (s : State) (k : Nat) : List Flit :=
  if k < 4 then
    [2 * k, 2 * k + 1].flatMap fun p => (s.port p).held.map (·.flit) ++ (s.port p).queues.toList.flatten
  else (s.ethDim (k - 4)).unacked.flatMap (·.flits) ++ (s.ethDim (k - 4)).queues.toList.flatten

/-- The flits that wait for dimension k are taken off it. -/
def State.emptied (s : State) (k : Nat) : State :=
  let clear := fun (x : Port) => { x with held := [], handing := false, queues := Vector.replicate 4 [] }
  if k < 4 then (s.modPort (2 * k) clear).modPort (2 * k + 1) clear
  else s.setEthDim (k - 4) { (s.ethDim (k - 4)) with unacked := [], queues := Vector.replicate 4 [], down := true }

/-- The edge of dimension k is down (R253): it is marked and recorded, what waits for it takes the detour, and what is left without a path
fails. -/
def State.edgeGone (s : State) (k : Nat) : State :=
  if !s.edgeUp k then s
  else
    let peer := s.devIndex ^^^ 2 ^ k
    let fs := s.waitingOver k
    let s1 := s.emptied k
    let s2 := if k < 4 then
        ((s1.ror (.lnk (2 * k)) 4 0x200).ror (.lnk (2 * k + 1)) 4 0x200).linkRec (2 * k) St.linkEdgeDown k peer 0
      else s1.raise St.islEth (s1.newRec St.clsLink St.linkEdgeDown unitEth 0 (k + 256 * peer))
    let s3 := fs.foldl (fun s f => s.sendFlit none false f) s2
    s3.unreachable.foldl (fun s d => s.cutOff d) s3

/-- Both ports of a dimension have been out of ACTIVE beyond TRAIN_TMO. -/
def execEdgeDown (dim : Fin 4) (s : State) : Host.Outcome State Fault Refusal :=
  if (s.port (2 * dim)).up || (s.port (2 * dim + 1)).up then .next s else settled (s.edgeGone dim)

/-- The ACK of d4 (0) or d5 (1) has not advanced for 20 µs (R257): the datagrams are sent again; one sent for the 8th time marks the dimension
down. -/
def State.resendEth (s : State) (i : Nat) : State :=
  let x := s.ethDim i
  if x.unacked.isEmpty || x.down then s
  else
    let again := x.unacked.map fun d => { d with times := d.times + 1 }
    let ack := (x.rxNext + 2 ^ 32 - 1) % 2 ^ 32
    let s1 := ((s.setEthDim i { x with unacked := again }).count48 (.eth 0) 0x40 again.length).emits
      (again.map fun d => .datagram (4 + i) d.seq ack d.flits [])
    if again.any fun d => decide (8 ≤ d.times) then s1.edgeGone (4 + i) else s1

/-- Datagrams are retransmitted. -/
def execDatagramRetransmit (dim : Fin 2) (s : State) : Host.Outcome State Fault Refusal := settled (s.resendEth dim)

end Sys2Proof.Machine
end

