-- ==== Sys2Proof/Machine/Power.lean ====
section
/-! DEFINITION. The power grant unit and the policy of Gander 3: leave (R336 to R342), the evaluation window (R334, R344 to R351, R356, R357),
operating points (R345), temperatures (R347), droops (R352), margins (R354), group shifting (R350), and IDLE and DOZE (R359, R360). -/

namespace Sys2Proof.Machine

/-! ### Leave (R336, R337) -/

/-- The slice of a core at the start of a program run (R202): a barrier that a WAIT record names is OPEN with the record's kind, `PARTS` and `CMAX`. -/
def openBars (p : Prog) : Vector CoreBar 32 :=
  Vector.ofFn fun (b : Fin 32) =>
    if b.val < p.barriers then
      let w := p.ops.findSome? fun o => match o.body with
        | .wait n _ credit _ parts cmax => if n = b.val then some (credit, parts, cmax) else none
        | _ => none
      match w with
      | some (credit, parts, cmax) => { CoreBar.empty with st := .open, credit := credit, parts := parts, cmax := cmax }
      | none => { CoreBar.empty with st := .open }
    else CoreBar.empty

/-- A core begins a program run (R106, R202, R337). -/
def CoreState.begin (x : CoreState) (k : Nat) (id : Nat) (r : ProgRun) : CoreState :=
  { x with run := some (k, r.index), owner := id, units := Vector.replicate 8 UnitRun.empty, bars := openBars r.prog
           threads := x.threads.map fun t => { t with watch := none, expect := [] }
           flights := [], convs := [], vec := ⟨[], none, [], []⟩ }

/-- The context that a core may ask leave for, with its slot (R293, R336): the active one, while it runs. -/
def State.leaveCtx (s : State) : Option (Nat × Ctx × ProgRun) :=
  match s.activeSlot with
  | none => none
  | some k =>
    match s.ctx k with
    | none => none
    | some x =>
      match x.run with
      | none => none
      | some r => if x.frozen || x.draining || x.cancel || x.ended then none else some (k, x, r)

/-- The next operation of a thread for a unit is a pass or a chain operation. -/
def State.nextIssues (s : State) (c u t : Nat) : Option Bool :=
  (s.nextOp c u t).map fun o => match o.rcd.body with
    | .pass .. => true
    | .chain .. => true
    | _ => false

/-- The threads of a core that need its leave: what they have to issue is passes and chain operations (R219, R336). -/
def State.leaveThreads (s : State) (c : Nat) : List Nat :=
  (List.range 16).filter fun t =>
    let l := (List.range 8).filterMap fun u => s.nextIssues c u t
    !l.isEmpty && l.all id

/-- A core asks for leave (R336): for a program that starts on it, or on its return from a lend. -/
def State.leaveRequest (s : State) (c : Nat) : State :=
  let x := s.core c
  if x.fenced || x.selfTest || s.pwr.queue.any (·.core == c) then s
  else
    match s.leaveCtx with
    | none => s
    | some (k, cx, r) =>
      let ask := fun (s : State) (ret : Bool) =>
        let q : LeaveReq := ⟨c, r.prog.actClass + 1, cx.cls, ret, k⟩
        ({ s with pwr := { s.pwr with queue := s.pwr.queue ++ [q] } } : State)
      match x.run with
      | none =>
        if !r.inBlock || r.arrived.contains c then s
        else (ask ((s.modCore c fun y => { y with owner := cx.id }).register c 0 8 0 0 false false 8) false).noteReasons
      | some (j, _) =>
        let held := x.threads.toList.any fun t => t.watch.any (·.kind == 8)
        if j ≠ k ∨ !x.lent ∨ !(s.coreIssuing c || held) then s
        else (ask ((s.leaveThreads c).foldl (fun s t => s.register c t 8 0 0 false false 8) s) true).noteReasons

/-- A core requests leave. -/
def execLeaveRequest (core : Fin 48) (s : State) : Host.Outcome State Fault Refusal := .next (s.leaveRequest core)

/-- A request comes before another (R336): by class of its context, then returning requests, then in order of arrival. -/
def LeaveReq.before (a b : LeaveReq) : Bool := decide (a.prio < b.prio) || (a.prio == b.prio && a.returning && !b.returning)

/-- The request at the head of the order. -/
def headReq : List LeaveReq → Option LeaveReq
  | [] => none
  | q :: t =>
    match headReq t with
    | none => some q
    | some h => if h.before q then some h else some q

/-- The admission test (R334, R336): P_b with a core raised fits L; under mismatch budgeting 1.1 times the larger of it and P_m does. -/
def State.admits (s : State) (c code : Nat) : Bool :=
  let pb := s.budget s.kNow fun d => if d = c then max code (s.charges d) else s.charges d
  if bitOf (s.rget (.pwr 0) 4).toNat 4 then
    decide (11 * max pb (s.rfield (.pwr 0) 0x24 0 11 * wattUnit) ≤ 10 * s.limit * wattUnit)
  else fitsW pb s.limit

/-- The grant reaches the core (R336, R337): its watches fire, its run starts, and a core whose threads all wait lends again (R341). -/
def State.giveLeave (s : State) (q : LeaveReq) : State :=
  let c := q.core
  let s1 : State := { s with pwr := { s.pwr with
    queue := s.pwr.queue.filter (·.core != c), order := s.pwr.order.filter (· != c) ++ [c] } }
  let low := s.pwr.hot && decide (1 < q.cls)
  let s2 := s1.modCore c fun x => { x with charge := if low then 1 else q.cls, demoted := if low then some q.cls else none, lent := false }
  let s3 := (List.range 16).foldl (init := s2) fun s t =>
    if ((s.core c).thread t).watch.any (·.kind == 8) then s.fire c t wmMet else s
  let s4 := match (s3.core c).run, (s3.ctx q.slot).bind fun x => x.run.map fun r => (x.id, r) with
    | none, some (id, r) => s3.modCore c fun x => x.begin q.slot id r
    | _, _ => s3
  s4.lendIfWaiting c

/-- The head request is granted when it fits (R336); a request behind it is not passed. -/
def State.leaveGrant (s : State) : State :=
  match headReq s.pwr.queue with
  | none => s
  | some q => if s.admits q.core q.cls && !s.brd.thermtrip then (s.noteReasons.giveLeave q).noteReasons else s

/-- The power grant unit grants the head request. -/
def execLeaveGrant (s : State) : Host.Outcome State Fault Refusal := .next s.leaveGrant

/-! ### Demotion (R340, R347) -/

/-- A core's charge is lowered to a code; its grant stays. -/
def State.demoteTo (s : State) (c code : Nat) : State :=
  s.modCore c fun x => { x with demoted := some (x.demoted.getD x.charge), charge := code }

/-- Demote until P_b fits L (R340): the core granted last first, one class at a time. -/
def State.demote : Nat → State → State
  | 0, s => s
  | fuel + 1, s =>
    if fitsW s.pb s.limit then s
    else
      match s.pwr.order.reverse.find? fun c => decide (1 < (s.core c).charge) with
      | none => s
      | some c => State.demote fuel (s.demoteTo c ((s.core c).charge - 1))

/-- Restore demoted cores in the reverse order as far as L allows (R340). -/
def State.restore : Nat → State → State
  | 0, s => s
  | fuel + 1, s =>
    match s.pwr.order.find? fun c => (s.core c).demoted.isSome with
    | none => s
    | some c =>
      let n := (s.core c).charge + 1
      let s1 := s.modCore c fun x => { x with charge := n, demoted := if x.demoted = some n then none else x.demoted }
      if fitsW s1.pb s1.limit then State.restore fuel s1 else s

/-- Every core with a grant goes down to A0 (R347). -/
def State.allToA0 (s : State) : State :=
  (List.range 48).foldl (fun s c => if 1 < (s.core c).charge then s.demoteTo c 1 else s) s

/-! ### Energy (R356, R357) -/

/-- Split what the cores do not account for among CLASS0 to CLASS3 and IDLE in proportion to their core energies (R357): the remainder goes to the
lowest with a share; with no core energy all goes to IDLE. -/
def splitRest (rest : Nat) (shares : List Nat) : List Nat :=
  let total := shares.sum
  if total = 0 then shares.mapIdx fun i _ => if i = 4 then rest else 0
  else
    let parts := shares.map fun x => rest * x / total
    let first := (shares.findIdx? (· != 0)).getD 4
    parts.mapIdx fun i x => if i = first then x + (rest - parts.sum) else x

/-- Where a core's energy goes: the class of the context that owns its running program, or IDLE (R357). -/
def State.energyClass (s : State) (c : Nat) : Nat := ((s.coreCtx c).map (·.cls)).getD 4

/-- The core energies by class and for IDLE. -/
def State.coreShares (s : State) (es : List Nat) : List Nat :=
  (List.range 5).map fun i => (((List.range 48).filter fun c => s.energyClass c == i).map fun c => es.getD c 0).sum

/-- The energy counters at a window end (R356, R357). -/
def State.addEnergy (s : State) (w : Window) : State :=
  let s1 := (List.range 7).foldl (fun s i => s.count64 (.pwr 1) (8 * i) (w.energy.getD i 0)) s
  let shares := s.coreShares w.coreEnergy
  let parts := splitRest (w.energy.getD 0 0 - shares.sum) shares
  (List.range 5).foldl (fun s i => s.count64 (.pwr 1) (0x40 + 8 * i) (shares.getD i 0 + parts.getD i 0)) s1

/-! ### The evaluation window -/

/-- `PWR_STATUS.MISMATCH` (R351). -/
def State.mismatched (s : State) : Bool := bitOf (s.rget (.pwr 0) 4).toNat 4

/-- The burst reserve at a window end (R346), in tenths of a µJ. -/
def State.burstEnd (s : State) (w : Window) : State :=
  let cap := s.ffield (.pwr 0) 0x1C 0 8
  let own := s.rfield (.pwr 0) 0x10 16 11
  let used := if s.mismatched then max w.mean w.measured * 11264 else w.mean * 10240
  let full := cap * 10000000
  let b := min (s.pwr.burst + own * 10240 - used) full
  let was := bitOf (s.rget (.pwr 0) 4).toNat 5
  let empty := b == 0 || (was && decide (4 * b < full))
  let s1 : State := { s with pwr := { s.pwr with burst := b } }
  (s1.rput (.pwr 0) 4 5 1 (b01 empty)).rput (.pwr 0) 0x1C 16 7 (b * 100 / max full 1)

/-- The measured power is held against P_b,mean (R351): eight windows more than 15% apart start mismatch budgeting, with a record. -/
def State.compareEnd (s : State) (w : Window) : State :=
  let d := if w.mean ≤ w.measured then w.measured - w.mean else w.mean - w.measured
  let n := if 15 * w.mean < 100 * d then min (s.rfield (.pwr 0) 0x24 16 4 + 1) 15 else 0
  let s1 := (((s.rput (.pwr 0) 0x24 0 11 w.measured).rput (.pwr 0) 0x24 16 4 n).rput (.pwr 0) 0x20 16 11 w.mean)
  if 8 ≤ n ∧ !s.mismatched then
    (s1.rput (.pwr 0) 4 4 1 1).raise St.islAon
      (s1.newRec St.clsPower St.powerModelMismatch unitPwr 0 (put w.mean 0 16 + put w.measured 16 16))
  else s1

/-- A term that falls by 25 W a window while its condition holds and rises again once it has gone (R347, R348): new value and whether it held. -/
def stepTerm (term : Option Nat) (was high low : Bool) (mean : Nat) : Option Nat × Bool :=
  if high then (some (max (match term, was with | some t, true => t - 25 | _, _ => mean - 25) 500), true)
  else if low then ((term.bind fun t => if 1400 ≤ t + 25 then none else some (t + 25)), false)
  else (term, false)

/-- The thermal term at a window start (R347). -/
def State.thermalTerm (s : State) (mean : Nat) : State :=
  let tj := s.rfield (.pwr 0) 0x30 0 10
  let r := stepTerm s.pwr.thermal s.pwr.thermalOn (decide (400 ≤ tj)) (decide (tj < 388)) mean
  { s with pwr := { s.pwr with thermal := r.1, thermalOn := r.2 } }

/-- The current limit of a rail in mA (R430). -/
def State.railLimit (s : State) (r : Nat) : Nat := beAt s.sec.board (496 + 16 * r + 4) 4

/-- The rail term at a window start (R348); regulators that do not answer leave it as it is, with a record once each (R419). -/
def State.railTerm (s : State) (w : Window) : State :=
  let deaf := w.deafRails.map (·.val)
  let fresh := deaf.filter fun r => !s.brd.deafRails.contains r
  let s1 := fresh.foldl (init := s) fun s r =>
    s.raise St.islAon (s.newRec St.clsPower St.cfgUninitialised unitPwr 0 (0x100 + r))
  let s2 : State := { s1 with brd := { s1.brd with deafRails := deaf } }
  if !deaf.isEmpty || s2.sec.board.isEmpty then s2
  else
    let ma := fun r => w.railMa.getD r 0
    let high := (List.range 8).any fun r => decide (95 * s2.railLimit r < 100 * ma r)
    let low := (List.range 8).all fun r => decide (100 * ma r < 85 * s2.railLimit r)
    let t := stepTerm s2.pwr.rail s2.pwr.railOn high low w.mean
    { s2 with pwr := { s2.pwr with rail := t.1, railOn := t.2 } }

/-- Some member has left the group. -/
def State.someLeft (s : State) : Bool := s.grp.joins.any (·.left.isSome)

/-- The share and S at a window start (R349, R350): a share that changes, a member that leaves or, on the head, shifting that is off takes S back to
the share; else S is what the head has set. -/
def State.takeShare (s : State) : State :=
  let sus := s.ffield (.pwr 0) 0xC 0 11
  let share := if s.pwr.cap = 0 then sus else min sus (s.pwr.cap / max s.grp.size 1)
  let old := s.rfield (.pwr 0) 0x10 0 11
  let off := s.isHead && !bitOf (s.rforce (.pwr 0) 8).toNat 2
  let own := if share ≠ old ∨ s.someLeft ∨ off then share else s.pwr.newS.getD (s.rfield (.pwr 0) 0x10 16 11)
  let s1 : State := { s with pwr := { s.pwr with newS := none } }
  (s1.rput (.pwr 0) 0x10 0 11 share).rput (.pwr 0) 0x10 16 11 own

/-- The terms of L with their places in R334. -/
def State.limitTerms (s : State) : List (Nat × Nat) :=
  [(0, 1400)] ++ (if s.pmode = 2 then [(1, 800)] else []) ++
    (if bitOf (s.rget (.pwr 0) 4).toNat 5 then [(2, s.rfield (.pwr 0) 0x10 16 11)] else []) ++
    (match s.pwr.thermal with | some t => [(3, t)] | none => []) ++ (match s.pwr.rail with | some t => [(4, t)] | none => [])

/-- The smallest term, the first of equals (R334, R353). -/
def lowestTerm (l : List (Nat × Nat)) : Nat × Nat := l.foldl (fun a b => if b.2 < a.2 then b else a) (0, 1400)

/-- L at a window start (R334, R335). -/
def State.takeLimit (s : State) : State :=
  let t := lowestTerm s.limitTerms
  let s1 : State := { s with pwr := { s.pwr with term := t.1 } }
  s1.rput (.pwr 0) 0x20 0 11 (max t.2 500)

/-- The rail target of a point in mV, with the trim (R345, R354); half a millivolt is rounded up. -/
def State.railTarget (s : State) (p : Nat) : Nat := (opPoints.getD p (24, 750)).2 - s.rfield (.pwr 0) 0x2C 0 8 / 2

/-- Set the rail over AVSBus (R345). -/
def State.setRail (s : State) (p : Nat) : State := (s.rput (.pwr 0) 0x28 12 12 (s.railTarget p)).emit (.avs (s.railTarget p))

/-- Move the core clocks to a point (R345). -/
def State.setClock (s : State) (p : Nat) : State :=
  (s.rput (.pwr 0) 0x28 0 12 ((opPoints.getD p (24, 750)).1 * 100)).rput (.pwr 0) 0x28 24 4 p

/-- A change of operating point, one point a window (R344, R345): lowering moves the clocks and then the rail; raising sets the rail, if P_b at the
new point fits, and the clocks follow when it has settled. -/
def State.movePoint (s : State) : State :=
  let want := s.selectPoint s.pmode s.limit
  let p := s.point
  if s.pwr.target.isSome || want == p then s
  else if want < p then (s.setClock (p - 1)).setRail (p - 1)
  else if fitsW (s.budget (pointK (p + 1)) s.charges) s.limit then
    ({ s with pwr := { s.pwr with target := some (p + 1) } }).setRail (p + 1)
  else s

/-- The end of a window (R334): its energy, burst reserve and mismatch, and the telemetry of that moment. -/
def State.windowEnd (s : State) (w : Window) : State :=
  let s1 := ((s.addEnergy w).burstEnd w).compareEnd w
  { s1 with pwr := { s1.pwr with telemetry := some s1.telemetryNow } }

/-- The start of a window (R334, R345): what takes effect now, then the terms, L and the operating point. -/
def State.windowStart (s : State) (w : Window) : State :=
  ((((s.takeRw (.pwr 0)).thermalTerm w.mean).railTerm w).takeShare.takeLimit).movePoint

/-- A window boundary (R334, R340, R341): the end of one window and the start of the next, and then demotion or restoration. -/
def State.window (s : State) (w : Window) : State :=
  let old := (s.windowEnd w).limit
  let s3 := (s.windowEnd w).windowStart w
  let s4 := if fitsW s3.pb s3.limit then (if old < s3.limit && !s3.pwr.hot then State.restore 200 s3 else s3) else State.demote 200 s3
  s4.noteReasons

/-- A window boundary. -/
def execEvaluationWindow (w : Window) (s : State) : Host.Outcome State Fault Refusal :=
  if s.brd.booted then .next (s.window w) else .next s

/-- The rail has settled at its target, and the clocks move (R345). -/
def execRailSettled (s : State) : Host.Outcome State Fault Refusal :=
  match s.pwr.target with
  | none => .next s
  | some p => .next ({ s.setClock p with pwr := { s.pwr with target := none } })

/-! ### Group shifting (R350) -/

/-- The transfers of a ranked list (R350): the device of rank i from the top gives 25 W to that of rank i from the bottom, within 200 W of the share
and 1,400 W. -/
def shiftPairs (share : Nat) (ranked : List (Nat × Nat)) (n : Nat) : List (Nat × Nat) :=
  (List.range n).foldl (init := ranked) fun l i =>
    let j := l.length - 1 - i
    match l[i]?, l[j]? with
    | some g, some r =>
      if i < j ∧ share ≤ g.2 - 25 + 200 ∧ 25 ≤ g.2 ∧ r.2 + 25 ≤ min (share + 200) 1400 then (l.set i (g.1, g.2 - 25)).set j (r.1, r.2 + 25)
      else l
    | _, _ => l

/-- The head has every member's report (R350): it ranks them by slack and broadcasts the new values. -/
def State.shiftGo (s : State) : State :=
  let reps := s.grp.shiftReports
  let ms := (List.range 64).filter s.memberMask.testBit
  if !s.isHead || !s.grp.formed || !ms.all (fun d => reps.any (·.1 == d)) then s
  else
    let s1 : State := { s with grp := { s.grp with shiftReports := [] } }
    let share := s.rfield (.pwr 0) 0x10 0 11
    let on := bitOf (s.rforce (.pwr 0) 8).toNat 2
    if s.pmode = 2 ∨ s.someLeft then s1
    else
      let ranked : List (Nat × Nat) := (sortBy (fun a b => decide (b.2.1 < a.2.1) || (a.2.1 == b.2.1 && decide (a.1 ≤ b.1))) reps).map fun r => (r.1, r.2.2)
      let out : List (Nat × Nat) := if on then shiftPairs share ranked (s.grp.size / 4) else ranked.map fun (r : Nat × Nat) => (r.1, share)
      let val := fun (d : Nat) => ((out.find? (·.1 == d)).map (·.2)).getD share
      let s2 := s1.broadcast 0x11 (ms.map fun d => BitVec.ofNat 32 (val d))
      { s2 with pwr := { s2.pwr with newS := some (val s.devIndex) } }

/-- A report reaches the head (R350). -/
def State.takeReport (s : State) (dev slack own : Nat) : State :=
  ({ s with grp := { s.grp with shiftReports := s.grp.shiftReports.filter (·.1 != dev) ++ [(dev, slack, own)] } } : State).shiftGo

/-- The end of a shift period (R350): the slack of the period and S go to the head. -/
def State.shiftPeriod (s : State) : State :=
  if !s.grp.formed || s.grp.headLost then s
  else
    let slack := s.pwr.slack
    let own := s.rfield (.pwr 0) 0x10 16 11
    let s1 : State := { s with pwr := { s.pwr with slack := 0 } }
    if s.isHead then s1.takeReport s.devIndex slack own else s1.toHead 0x10 (words64 slack ++ [BitVec.ofNat 32 own])

/-- The end of a shift period. -/
def execShiftPeriod (s : State) : Host.Outcome State Fault Refusal := .next s.shiftPeriod

/-- A SYNC SHIFT_REPORT. -/
def execShiftReport (m : SyncMsg) (s : State) : Host.Outcome State Fault Refusal :=
  s.syncIn m 0x10 fun s => if s.isHead && s.grp.formed then s.takeReport m.src (m.at64 0) (m.at_ 2 % 2 ^ 11) else s

/-- A SYNC SHIFT_SET (R243, R350): this device's word is applied at its next window start. -/
def execShiftSet (m : SyncMsg) (s : State) : Host.Outcome State Fault Refusal :=
  s.syncIn m 0x11 fun s =>
    let i := ((List.range s.devIndex).filter s.memberMask.testBit).length
    if s.follows then { s with pwr := { s.pwr with newS := some (m.at_ i % 2 ^ 11) } } else s

/-! ### Temperatures, droops and margins -/

/-- The trip (R347): every core clock stops, THERMTRIP_N is driven and the device does nothing more until power is removed. -/
def State.trip (s : State) : State :=
  let s1 := (s.rput (.pwr 0) 4 3 1 1).toSt 9
  let s2 := (s1.rput .aon 4 6 1 0).rput (.eth 0) 4 1 2 0
  { s2.stopWork with brd := { s2.brd with thermtrip := true, booted := false } }

/-- The sensors are read (R347): the hottest is shown; at 115 °C the device trips, at 105 °C every grant goes to A0 until the hottest is below
100 °C. -/
def State.sampleTj (s : State) (tj : List Nat) : State :=
  let top := tj.foldl max 0
  let s1 := (s.rput (.pwr 0) 0x30 0 10 top).rput (.pwr 0) 0x30 10 7 (tj.findIdx (· == top))
  let s2 := (List.range 48).foldl (fun s c => s.rput (.core c) 0x20 0 10 (tj.getD c 0)) s1
  if 460 ≤ top then s2.trip
  else if 420 ≤ top then
    let s3 := if s2.pwr.hot then s2 else s2.raise St.islAon (s2.newRec St.clsThermal 0 unitPwr 0 0)
    ((({ s3 with pwr := { s3.pwr with hot := true } }).allToA0).noteReasons)
  else if top < 400 ∧ s2.pwr.hot then (State.restore 200 { s2 with pwr := { s2.pwr with hot := false } }).noteReasons
  else s2

/-- The sensors are read. -/
def execTjSample (tj : List Nat) (s : State) : Host.Outcome State Fault Refusal :=
  if s.brd.booted then .next (s.sampleTj tj) else .next s

/-- A core's supply droops, and it stretches its clock (R352). -/
def execDroop (core : Fin 48) (s : State) : Host.Outcome State Fault Refusal :=
  if (s.core core).fenced then .next s else .next ((s.modCore core fun x => { x with stretching := true }).noteReasons)

/-- The supply is back (R352): at least 256 cycles have been stretched. -/
def execDroopRecovery (core : Fin 48) (stretched : Nat) (s : State) : Host.Outcome State Fault Refusal :=
  if !(s.core core).stretching || decide (stretched < 256) then .next s
  else .next ((s.modCore core fun x => { x with stretching := false }).count48 (.core core) 0x28 stretched)

/-- A margin in steps of 2.5 mV as an eight-bit two's complement number (R32). -/
def marginByte (m : Int) : Nat := (m % 256).toNat

/-- The monitors are read and the trim moves one step (R354). -/
def State.marginTrim (s : State) (margins : List Int) : State :=
  let live := s.liveCores
  let m := fun (c : Nat) => margins.getD c 0
  let s1 := live.foldl (fun s c => s.rput (.core c) 0x24 0 8 (marginByte (m c))) s
  match live with
  | [] => s1
  | a :: rest =>
    let worst := rest.foldl (fun b c => if m c < m b then c else b) a
    let s2 := s1.rput (.pwr 0) 0x2C 8 6 worst
    let t := s2.rfield (.pwr 0) 0x2C 0 8
    if m worst < 0 then
      if t = 0 then (live.filter fun c => decide (m c < 0)).foldl (fun s c => s.fenceUnit c 3) s2
      else (s2.rput (.pwr 0) 0x2C 0 8 (t - 5)).setRail (s2.pwr.target.getD s2.point)
    else if live.all (fun c => decide (2 ≤ m c)) ∧ t < 100 then (s2.rput (.pwr 0) 0x2C 0 8 (t + 5)).setRail (s2.pwr.target.getD s2.point)
    else s2

/-- Gander 3 reads the margin monitors. -/
def execMarginTrim (margins : List Int) (s : State) : Host.Outcome State Fault Refusal :=
  if s.brd.booted && !s.dozing then settled (s.marginTrim margins) else .next s

/-- Recalibration (R351): at an IDLE interval of 10 ms or more U and `SCALE` are written, and mismatch budgeting ends. -/
def execRecalibration (uncore measured estimated : Nat) (s : State) : Host.Outcome State Fault Refusal :=
  if s.mismatched && s.rfield (.pwr 0) 4 1 2 == 1 && decide (s.pwr.idleAt + 1000000 ≤ s.aonClk) then
    .next ((s.rput (.pwr 0) 0x14 0 11 uncore).pwrCal (BitVec.ofNat 32 (min (max (1024 * measured / estimated) 820) 1536)))
  else .next s

/-! ### IDLE and DOZE (R359, R360) -/

/-- No started command for 100 µs (R359). -/
def execIdleEntry (s : State) : Host.Outcome State Fault Refusal :=
  if s.brd.booted && s.rfield (.pwr 0) 4 1 2 == 0 && s.activeSlot.isNone && decide (s.pwr.idleFrom + 10000 ≤ s.aonClk) then
    .next { s.rput (.pwr 0) 4 1 2 1 with pwr := { s.pwr with idleAt := s.aonClk } }
  else .next s

/-- What DOZE needs of the group, as the head knows it (R360). -/
def State.dozeFree (s : State) : Bool :=
  s.activeSlot.isNone && s.svc.queues.toList.all List.isEmpty && s.svc.cmds.all (fun c => !c.run || c.final) &&
    s.svc.images.all (fun g => g.st != .loading && g.st != .verifying) && s.svc.egress.isEmpty &&
    s.svc.conns.toList.all fun c => c.unacked.isEmpty && c.queue.isEmpty

/-- `DOZE_DELAY` has passed (R360, R362): the head puts the group into DOZE. -/
def execDozeDelay (s : State) : Host.Outcome State Fault Refusal :=
  let w := (s.rforce (.pwr 0) 8).toNat
  if s.isHead && s.grp.formed && bitOf w 3 && s.dozeFree && !s.dozing &&
      decide (s.pwr.idleFrom + max (field w 8 8) 1 * 1000000 ≤ s.aonClk) then .next (s.broadcast 0x12 []).dozeHere
  else .next s

/-- A SYNC DOZE. -/
def execDoze (m : SyncMsg) (s : State) : Host.Outcome State Fault Refusal :=
  s.syncIn m 0x12 fun s => if s.follows then s.dozeHere else s

/-- A SYNC WAKE. -/
def execWake (m : SyncMsg) (s : State) : Host.Outcome State Fault Refusal := s.syncIn m 0x13 fun s => s.wakeHere

end Sys2Proof.Machine
end

