-- ==== Sys2Proof/Machine/Clock.lean ====
section
/-! DEFINITION. What happens of itself when no command waits: one count of the always-on clock. -/

namespace Sys2Proof.Machine

/-- `CORE_CYCLE` of every core with its clock on advances (R15, R32, R343, R352): the core clock in units of the always-on clock, halved while the core
stretches its clock. -/
def State.tickCores (s : State) : State :=
  if s.rfield (.pwr 0) 4 1 2 ≠ 0 then s
  else
    let f := (opPoints.getD s.point (24, 750)).1
    (List.range 48).foldl (init := s) fun s c =>
      if (s.core c).fenced then s else s.count64 (.core c) 0x10 (if (s.core c).stretching then f / 2 else f)

/-- The counters of the reasons that apply advance (R353, R362). -/
def State.tickReasons (s : State) : State :=
  let r := s.reasons
  (((List.range 7).filter r.testBit).foldl (fun s i => s.count64 (.pwr 0) (0x80 + 8 * i) 1) s).noteReasons

/-- One count of the always-on clock. -/
def State.tick (s : State) : State :=
  let s1 : State := { s with aonClk := s.aonClk + 1 }
  if s.brd.booted then s1.tickCores.tickReasons else s1

end Sys2Proof.Machine
end

