-- ==== Sys2Proof/Machine/Errors.lean ====
section
/-! DEFINITION. From detection to the log (R367 to R371), accusations (R370), fencing (R383 to R386), frame remapping (R155), patrol scrubbing
(R158, R373) and self-tests (R32). -/

namespace Sys2Proof.Machine

/-! ### The log (R369, R371) -/

/-- Where a record to be stored goes (R369): the log without the slot that it takes; none when it is lost. -/
def logRoom (l : List LogSlot) (cls : Nat) : Option (List LogSlot) :=
  if l.length < 1024 then some l
  else if l.any (·.acked) then some (l.eraseP (·.acked))
  else if cls ≠ St.clsCe ∧ l.any (·.recd.cls == St.clsCe) then some (l.eraseP (·.recd.cls == St.clsCe))
  else none

/-- The action known when a record is stored (R364): that of the record, or of the recovery under way for its command. -/
def State.actionOf (s : State) (r : ErrRec) : Nat :=
  if r.action ≠ 0 ∨ !r.hasCmd then r.action
  else
    let cx := (List.range 4).findSome? fun k => (s.ctx k).bind fun x => if x.gseq = r.gseq then some x else none
    match cx.bind (·.recovery) with
    | some 1 => 2
    | some 2 => 3
    | some 3 => 4
    | _ => if (s.cmd r.gseq).any (fun c => c.ownDone && c.reply.status != St.ok) then 5 else 0

/-- Send an ERROR_NOTICE for a stored record (R371). -/
def State.errorNotice (s : State) (r : ErrRec) : State :=
  let w := (s.rforce .err 8).toNat
  let sec := s.aonClk / 100000000
  let n := (s.svc.sessions.filter (!·.closing)).length
  let sent := if s.err.noticeSecond = sec then s.err.notices else 0
  if !bitOf w 0 || (r.cls == St.clsCe && !bitOf w 1) || n == 0 || decide (max (field w 8 8) 1 < sent + n) then s
  else ({ s with err := { s.err with noticeSecond := sec, notices := sent + n } } : State).notices 0x0050 r.status r.bytes

/-- A record is stored with the next `RSEQ`, or lost (R368, R369). -/
def State.storeRec (s : State) (isl : Nat) (r : ErrRec) : State :=
  let s0 := s.takeRws .err
  match logRoom s0.err.log r.cls with
  | none =>
    let q := s0.errQueue isl
    (s0.setErrQueue isl { q with lossPending := true }).lostRec
  | some l =>
    let r1 := { r with rseq := s0.err.nextSeq, action := s0.actionOf r, escal := ((s0.cmd r.gseq).map (·.escal)).getD 0 % 256 }
    let s1 : State := { s0 with err := { s0.err with log := l ++ [⟨r1, false⟩], nextSeq := (s0.err.nextSeq + 1) % 2 ^ 48 } }
    (s1.count48 .err 0x40 1).errorNotice r1

/-! ### Accusations (R370) -/

/-- The device and the unit that a record accuses, if it is an accusation. -/
def State.accused (s : State) (r : ErrRec) : Option (Nat × UnitId) :=
  let e : Option (Nat × UnitId) :=
    if r.cls = St.clsTimeout ∧ r.status = St.waitTimeout ∧ r.addr % 16 = 1 ∧ bitOf r.detail 3 then some (field r.detail 4 6, unitSync)
    else if r.status = St.collectiveAbort ∧ bitOf r.detail 6 then some (field r.detail 0 6, unitSync)
    else if r.cls = St.clsLink ∧ (r.status = St.linkEdgeDown ∨ r.status = St.linkUnreachable) then
      some (field r.detail 8 6, if r.detail % 256 < 4 then unitLink (2 * (r.detail % 256)) else unitEth)
    else if r.cls = St.clsTimeout ∧ r.status = St.streamTimeout then some (field r.addr 48 6, unitOfAddr (r.addr % 2 ^ 48))
    else none
  e.bind fun x => if x.1 = s.devIndex then none else some x

/-- What the accusations of one merged record agree in (R370): unit, status, and context with its program-end barrier's generation, or the window
of 1.024 ms. -/
def State.accuseKey (s : State) (r : ErrRec) (a : Nat × UnitId) : List Nat :=
  [a.1, a.2.kind, a.2.index, a.2.sub, r.status, r.context,
    if r.context = 0xFFFF then s.aonClk / 102400 else (s.gbar (16 * (r.context / 0x4000 % 4) + 15)).gen]

/-- The head merges an accusation into the record of its key, or stores a new one (R370). -/
def State.mergeAccusation (s : State) (r : ErrRec) (a : Nat × UnitId) : State :=
  let key := s.accuseKey r a
  let old := (s.err.merged.find? (·.1 == key)).map (·.2)
  let rep := r.firstRep
  match old.bind fun n => (s.err.log.find? (·.recd.rseq == n)).map fun _ => n with
  | some n =>
    let up := fun (l : LogSlot) => if l.recd.rseq = n then
        { l with recd := { l.recd with count := min (l.recd.count + 1) 0xFFFFFFFF, last := s.aonClk, lastRep := rep } } else l
    ({ s with err := { s.err with log := s.err.log.map up } } : State).count48 .err 0x48 1
  | none =>
    let n := s.err.nextSeq
    let s1 := s.storeRec St.islSync { r with accused := true, device := a.1, unit := a.2, count := 1, first := s.aonClk, last := s.aonClk
                                             firstRep := rep, lastRep := rep, loss := false }
    if s1.err.nextSeq = n then s1
    else { s1 with err := { s1.err with merged := s1.err.merged.filter (·.1 != key) ++ [(key, n)] } }

/-- The words of a record as ACCUSE carries it. -/
def ErrRec.words (r : ErrRec) : List Word := (List.range 16).map fun i => BitVec.ofNat 32 (beAt r.bytes (4 * i) 4)

/-- The record in the words of an ACCUSE (R364). -/
def recOfWords (ws : List Word) : ErrRec :=
  let b := ws.flatMap fun w => beBytes 4 w.toNat
  let f := beAt b 7 1
  { rseq := beAt b 0 6, cls := beAt b 6 1, loss := bitOf f 1, accused := bitOf f 2, hasCmd := bitOf f 3, status := beAt b 8 2, device := beAt b 10 1
    unit := ⟨beAt b 11 1, beAt b 12 1, beAt b 13 1⟩, context := beAt b 14 2, gseq := beAt b 16 4, count := beAt b 20 4, addr := beAt b 24 8
    first := beAt b 32 8, last := beAt b 40 8, firstRep := beAt b 48 2, lastRep := beAt b 50 2, detail := beAt b 52 8, action := beAt b 60 1
    escal := beAt b 61 1 }

/-- A SYNC ACCUSE (R370). -/
def execAccuse (m : SyncMsg) (s : State) : Host.Outcome State Fault Refusal :=
  s.syncIn m 0xB fun s =>
    let r := recOfWords m.words
    if !s.isHead then s
    else
      -- an accusation of the head itself names no unit on another device here, but is one of the reporter's
      match ({ s with devIndex := m.src } : State).accused r with
      | some a => s.mergeAccusation r a
      | none => s

/-! ### Fencing of frames and channels (R155, R163, R383, R385) -/

/-- The pool frame that a remap takes (R155): the highest below 2,047 that is no target, no frame fenced or withdrawn, and not declared by a loaded
image. -/
def State.remapTarget (s : State) : Option Nat :=
  let entries := (List.range 2).flatMap fun d => (List.range 16).map fun i => (s.rget (.ssr d) (0x80 + 4 * i)).toNat
  let taken := (entries.filter fun e => bitOf e 31).flatMap fun e => [field e 11 11, field e 0 11]
  let held := s.svc.images.filter fun g => g.st == .verified || g.st == .active
  let used := fun (f : Nat) => held.any fun g => (s.regions g).any fun r =>
    decide (r.base < sramBase + (f + 1) * frameBytes ∧ sramBase + f * frameBytes < r.base + r.len)
  (((List.range 127).map (1920 + ·)).filter fun f =>
    !taken.contains f && !used f && !s.brd.framesLost.contains (sramBase + f * frameBytes)).getLast?

/-- The frame is taken for good from the KV allocation, and an image that declares it fails (R385). -/
def State.withdrawFrame (s : State) (f : Nat) : State :=
  let a := sramBase + f * frameBytes
  let ids := (s.svc.images.filter fun g => (g.st == .verified || g.st == .active) && (s.regions g).any fun r =>
    decide (r.base < a + frameBytes ∧ a < r.base + r.len)).map (·.id)
  let s1 : State := { s with brd := { s.brd with framesLost := s.brd.framesLost.filter (· != a) ++ [a] } }
  (ids.foldl (fun s i => s.imageFailed i) s1).serviceRec St.islSync (unitSram (frameDie f)) St.unitFenced 6 a 10

/-- A stacked SRAM frame is fenced (R155): its accesses go to a pool frame from now on, which is written with poisoned zeros; a fenced target has
its entry point to another. -/
def State.fenceFrame (s : State) (f trigger : Nat) : State :=
  let slots := (List.range 2).flatMap fun d => (List.range 16).map fun i => (d, 0x80 + 4 * i)
  let cur := slots.find? fun e => let v := (s.rget (.ssr e.1) e.2).toNat; bitOf v 31 && field v 11 11 == f
  let src := (cur.map fun e => field (s.rget (.ssr e.1) e.2).toNat 0 11).getD f
  let slot := cur.orElse fun _ => slots.find? fun e => e.1 == frameDie f && !bitOf (s.rget (.ssr e.1) e.2).toNat 31
  match slot, s.remapTarget with
  | some e, some t =>
    let s1 := (s.rset (.ssr e.1) e.2 (BitVec.ofNat 32 (2 ^ 31 + t * 2 ^ 11 + src))).poisonRange (sramBase + t * frameBytes) (frameBytes / 4)
    (s1.rset (.ssr 0) 0xC (s1.rget (.ssr 0) 0xC - 1)).serviceRec St.islSync (unitSram (frameDie f)) St.unitFenced 6 (sramBase + f * frameBytes)
      trigger
  | _, _ => s.withdrawFrame src

/-- An LPDDR5X channel has failed (R163, R386): its `CH_UP` falls and the device leaves the group. -/
def State.channelFailed (s : State) (n : Nat) : State :=
  (s.rput (.mem (n / 10)) 4 (2 + n % 10) 1 0).leaveGroup St.memChannelFailed 7 (unitMem (n / 10) (n % 10))

/-- Gander 2 fences what has met a trigger (R383). -/
def State.fenceGo (s : State) : State :=
  let s1 := (List.range 48).foldl (init := s) fun s c =>
    match (s.core c).fenceDue with
    | some t => (s.modCore c fun x => { x with fenceDue := none }).fenceUnit c t
    | none => s
  let s2 := s1.brd.framesDue.foldl (fun s e => s.fenceFrame e.1 e.2) { s1 with brd := { s1.brd with framesDue := [] } }
  s2.brd.channelsDue.foldl (fun s n => s.channelFailed n) { s2 with brd := { s2.brd with channelsDue := [] } }

/-- The aggregator drains the oldest entry of an island's queue (R367): an accusation goes to the head, any other record into the log; then what it
shows to be failing for good is fenced. -/
def State.drainErr (s : State) (isl : Nat) : State :=
  let q := s.errQueue isl
  match q.entries with
  | [] => s
  | r :: rest =>
    let s1 := s.setErrQueue isl { q with entries := rest }
    let s2 := match (if s.grp.formed && !s.grp.headLost && !s.grp.left then s.accused r else none) with
      | some a => if s.isHead then s1.mergeAccusation r a else (s1.toHead 0xB r.words).count48 .err 0x58 1
      | none => s1.storeRec isl r
    s2.fenceGo

/-- The aggregator drains one entry of an island. -/
def execErrorDrain (island : Fin 71) (s : State) : Host.Outcome State Fault Refusal := settled (s.drainErr island)

/-! ### Patrol scrub (R158, R373) -/

/-- The page that holds the scrub control of a stored address. -/
def scrubPage (a : Nat) : Option Page :=
  match regionOf a with
  | .lpddr => some (.mem (channelOf a / 10))
  | .home | .pool | .kvTable => some (.ssr (frameDie ((a - sramBase) / frameBytes)))
  | _ => none

/-- An uncorrectable word that a patrol has found is classified (R373, R382). -/
def State.patrolFound (s : State) (a : Nat) : State :=
  let tainted := (List.range 48).any fun c => (List.range 8).any fun u => ((s.core c).unit u).cur.any fun t => t.taints.contains a
  if tainted then s
  else
    match (List.range 4).find? fun k => (s.ctx k).any fun x => x.wrote.any fun r => decide (r.1 ≤ a ∧ a < r.1 + r.2) with
    | some k => s.errorAgainst k 0 0 .restart St.cancelled (some a)
    | none =>
      match s.svc.images.find? fun g => decide (g.base ≤ a ∧ a < g.base + g.partBytes) && (g.st == .verified || g.st == .active) with
      | none => s
      | some g =>
        if 16 < s.grp.size ∧ bitOf (s.rforce .err 8).toNat 2 then s.askTwin a
        else
          (List.range 4).foldl (init := s.imageFailed g.id) fun s k =>
            if (s.ctx k).any (·.image == g.id) then s.errorAgainst k 0 0 .failUe St.cancelled (some a) else s

/-- A patrol step reads stored words, corrects what it can and classifies what it cannot (R158). -/
def State.patrol (s : State) (addr words : Nat) : State :=
  match scrubPage addr with
  | none => s
  | some p =>
    (List.range words).foldl (init := s.takeRw p) fun s i =>
      let a := addr / 4 * 4 + 4 * i
      match scrubPage a with
      | none => s
      | some q =>
        if !bitOf (s.rforce q 8).toNat 0 then s
        else
          let s1 := s.noteWord (unitOfAddr a) (islandOfAddr a) a 1
          match s.mem.kind a with
          | .bad => s1.patrolFound a
          | _ => s1

/-- A step of the patrol scrub: nothing while stacked SRAM or LPDDR5X is not in service (R359). -/
def execPatrolScrub (addr words : Nat) (s : State) : Host.Outcome State Fault Refusal :=
  if !s.brd.booted || s.dozing then .next s else settled (s.patrol addr words)

/-- A package's MR4 field changes (R159): `HOT` of each controller group that serves its channels tells whether some channel of the group runs a
shortened interval; `rate` is the field, in which 9 is the full interval and higher codes shorten it. -/
def State.refreshRate (s : State) (package rate : Nat) : State :=
  let l := s.brd.rates.filter (·.1 != package) ++ [(package, rate)]
  let hot := fun g => l.any fun e => decide (9 < e.2) && (List.range 8).any fun i => (8 * e.1 + i) / 10 == g
  (List.range 8).foldl (fun s g => s.rput (.mem g) 4 12 1 (b01 (hot g))) { s with brd := { s.brd with rates := l } }

/-- A package's refresh rate changes. -/
def execRefreshIntervalChange (package : Fin 10) (rate : Fin 32) (s : State) : Host.Outcome State Fault Refusal :=
  .next (s.refreshRate package rate)

/-! ### Self-tests -/

/-- A core's self-test ends (R32): a failure fences it (R383); a quiesced device whose tests are over returns to service (R381). -/
def State.selftestDone (s : State) (c : Nat) (ok : Bool) : State :=
  if !(s.core c).selfTest then s
  else
    let s1 := s.modCore c fun x => { x with selfTest := false }
    let s2 := if ok then s1 else (s1.ror (.core c) 4 0x80).fenceUnit c 0
    s2.returnToService

/-- A core's self-test ends. -/
def execSelftestComplete (core : Fin 48) (ok : Bool) (s : State) : Host.Outcome State Fault Refusal := settled (s.selftestDone core ok)

end Sys2Proof.Machine
end

