-- ==== Sys2Proof/Machine/Eth.lean ====
section
/-! DEFINITION. The Ethernet port: frames answered or dropped (R311), PFC (R313), the port going down and coming up (R27, R331), and what the
connections for KV egress receive (R322, R323). -/

namespace Sys2Proof.Machine

/-! ### Frames (R311, R313) -/

/-- A frame has come in over a port that is up. -/
def State.frameIn (s : State) (f : State → State) : State :=
  if s.brd.booted && s.ethUp then f ((s.count48 (.eth 0) 0x48 1).wakeOn) else s

/-- A destination address is the port's own (R311): an address that has not been written matches nothing. -/
def State.ownAddr (s : State) (v6 : Bool) (a : Nat) : Bool :=
  let mine := if v6 then (List.range 4).foldl (fun n i => n * 2 ^ 32 + (s.rget (.eth 0) (0x30 + 4 * i)).toNat) 0 else (s.rget (.eth 0) 0x24).toNat
  a != 0 && a == mine

/-- An echo request to the own address is answered with its data (R311). -/
def execIcmpEcho (v6 : Bool) (to_ from_ : Nat) (data : List Byte) (s : State) : Host.Outcome State Fault Refusal :=
  .next (s.frameIn fun s => if s.ownAddr v6 to_ then (s.count48 (.eth 0) 0x40 1).emit (.frame 0 from_ data) else s)

/-- The own MAC address, most significant byte first (R331). -/
def State.macBytes (s : State) : List Byte := beBytes 2 (s.rfield (.eth 0) 0x18 0 16) ++ beBytes 4 (s.rget (.eth 0) 0x14).toNat

/-- An ARP request or a neighbour solicitation for the own address is answered with the own MAC address (R311). -/
def execArpRequest (v6 : Bool) (for_ from_ : Nat) (s : State) : Host.Outcome State Fault Refusal :=
  .next (s.frameIn fun s => if s.ownAddr v6 for_ then (s.count48 (.eth 0) 0x40 1).emit (.frame 1 from_ s.macBytes) else s)

/-- A frame with an option outside R311 is discarded and counted. -/
def execUnsupportedFrame (s : State) : Host.Outcome State Fault Refusal := .next (s.frameIn fun s => s.count48 (.eth 0) 0x50 1)

/-- Everything that waits for the port goes on as far as it can. -/
def State.portGo (s : State) : State :=
  (List.range 64).foldl (fun s i => s.connGo i) ((s.drainEth 0).drainEth 1)

/-- A PFC frame (R313): honoured on the priorities of `PFC_EN`. -/
def State.pfcIn (s : State) (prio : Nat) (pause : Bool) : State :=
  let s1 := s.count48 (.eth 0) 0x58 1
  if !bitOf (s.rfield (.eth 0) 0xC 16 8) prio then s1
  else
    let rest := s.svc.paused - (if s.svc.paused.testBit prio then 2 ^ prio else 0)
    (s1.modSvc fun v => { v with paused := if pause then rest + 2 ^ prio else rest }).portGo

/-- A PFC frame arrives. -/
def execPfcPause (prio : Fin 8) (pause : Bool) (s : State) : Host.Outcome State Fault Refusal := .next (s.frameIn fun s => s.pfcIn prio pause)

/-! ### Connections (R322, R323) -/

/-- A slot's prompts that send over connection i go on. -/
def State.connPrompts (s : State) (i : Nat) : State :=
  let gs := (s.svc.egress.filter (·.conn == i)).map (·.gseq)
  (List.range 4).foldl (init := s) fun s k =>
    match s.ctx k with
    | some x => if (s.ctxCmds x).any fun c => gs.contains c.gseq then s.chunkGo k else s
    | none => s

/-- A connection fails: its prompts fail with `EGRESS_PORT_DOWN` and a cause (R322). -/
def State.connFails (s : State) (i cause : Nat) : State :=
  let gs := (s.svc.egress.filter (·.conn == i)).map (·.gseq)
  let s1 := ((s.modConn i fun x => { Conn.empty with st := .failed, rxAddr := x.rxAddr, serviceId := x.serviceId }).ror (.eth 1) 0 0x100)
  gs.foldl (fun s g => s.failPrompt g St.egressPortDown cause) s1

/-- The region descriptor of a REP (R322): its address, key and length. -/
def regionOfRep (p : List Byte) : Option (Nat × Nat × Nat) :=
  if p.length < 32 ∨ leAt p 0 4 ≠ 0x53474552 ∨ leAt p 4 1 ≠ 1 then none else some (leAt p 8 8, leAt p 16 4, leAt p 24 8)

/-- A REP (R322). -/
def State.repIn (s : State) (i : Nat) (priv : List Byte) : State :=
  if (s.conn i).st ≠ .requested then s
  else
    match regionOfRep priv with
    | none => (s.emit (.cm i 2)).connFails i 1
    | some (va, key, len) =>
      ((s.modConn i fun x => { x with st := .ready, va := va, rkey := key, len := len }).emit (.cm i 1)).connPrompts i

/-- A REP arrives. -/
def execRep (conn : Fin 64) (priv : List Byte) (s : State) : Host.Outcome State Fault Refusal := settled (s.frameIn fun s => s.repIn conn priv)

/-- A REJ arrives (R322). -/
def execRej (conn : Fin 64) (s : State) : Host.Outcome State Fault Refusal :=
  settled (s.frameIn fun s => if (s.conn conn).st = .requested then s.connFails conn 1 else s)

/-- A REQ has been unanswered for 1 ms (R322): it is sent again; the third ends the attempt. -/
def State.reqAgain (s : State) (i : Nat) : State :=
  let x := s.conn i
  if x.st ≠ .requested then s
  else if x.reqs < 3 then (s.setConn i { x with reqs := x.reqs + 1 }).emit (.cm i 0)
  else s.connFails i 1

/-- A REQ is unanswered. -/
def execReqRetry (conn : Fin 64) (s : State) : Host.Outcome State Fault Refusal := settled (s.reqAgain conn)

/-- Everything before packet `next` of connection i is acknowledged (R323); a record's acknowledgement completes its prompt here (R35). -/
def State.ackUpTo (s : State) (i next : Nat) : State :=
  let x := s.conn i
  let n := (next + 2 ^ 24 - x.acked) % 2 ^ 24
  if x.st ≠ .ready ∨ x.inFlight < n ∨ n = 0 then s
  else
    let acked := fun (m : RcMsg) => decide ((m.psn + m.packets + 2 ^ 24 - x.acked) % 2 ^ 24 ≤ n)
    let done := x.unacked.filter acked
    let s1 := s.setConn i { x with acked := next % 2 ^ 24, unacked := x.unacked.filter (!acked ·), retries := 0, rnrs := 0 }
    done.foldl (init := s1) fun s m =>
      if m.record then (s.modEgress m.gseq fun e => { e with record := 2 }).count48 (.eth 1) 0x28 1 else s.count48 (.eth 1) 0x20 1

/-- Go-back-N (R323): what is unacknowledged is sent again from the oldest packet. -/
def State.resendConn (s : State) (i : Nat) : State :=
  let x := s.conn i
  if x.inFlight = 0 then s
  else
    let outs := x.unacked.map fun m =>
      let past := (x.acked + 2 ^ 24 - m.psn) % 2 ^ 24
      let off := if past < m.packets then past * s.pathMtu else 0
      Output.roce i (if past < m.packets then x.acked else m.psn) m.record (m.va + off) (m.data.drop off)
    (((s.modConn i fun y => { y with rnrWait := false }).count48 (.eth 1) 0x30 x.inFlight).count48 (.eth 0) 0x40 x.inFlight).emits outs

/-- An ACK arrives: everything up to its PSN is acknowledged. -/
def execRoceAck (conn : Fin 64) (psn : Nat) (s : State) : Host.Outcome State Fault Refusal :=
  settled (s.frameIn fun s => ((s.ackUpTo conn ((psn + 1) % 2 ^ 24)).connGo conn).connPrompts conn)

/-- One more attempt of a connection, or its end (R323). -/
def State.retryConn (s : State) (i : Nat) : State :=
  let x := s.conn i
  if x.st ≠ .ready ∨ x.unacked.isEmpty then s
  else if field x.ctrl.toNat 5 3 ≤ x.retries then s.connFails i 2
  else (s.setConn i { x with retries := x.retries + 1 }).resendConn i

/-- A NAK (R323): what is before its PSN is acknowledged; then it is retried, waits for the receiver, or fails. The cause that `DETAIL`
gives for a remote operational error is not stated. -/
def State.nakIn (s : State) (i psn : Nat) (kind : NakKind) : State :=
  if (s.conn i).st ≠ .ready then s
  else
    let r0 := (s.conn i).retries
    let n0 := (s.conn i).rnrs
    let s1 := (s.count48 (.eth 1) 0x38 1).ackUpTo i (psn % 2 ^ 24)
    let moved := decide ((s1.conn i).acked ≠ (s.conn i).acked)
    match kind with
    | .sequence => (s1.modConn i fun x => { x with retries := if moved then 0 else r0 }).retryConn i
    | .rnr =>
      let n := if moved then 0 else n0
      if field (s1.conn i).ctrl.toNat 8 3 ≤ n then s1.connFails i 4 else s1.modConn i fun x => { x with rnrs := n + 1, rnrWait := true }
    | .access => s1.connFails i 3
    | .operational => s1.drawFree.connFails i (s1.nextFree % 256)

/-- A NAK arrives. -/
def execRoceNak (conn : Fin 64) (psn : Nat) (kind : NakKind) (s : State) : Host.Outcome State Fault Refusal :=
  settled (s.frameIn fun s => (s.nakIn conn psn kind).connPrompts conn)

/-- An ACK timeout (R323). -/
def execRoceAckTimeout (conn : Fin 64) (s : State) : Host.Outcome State Fault Refusal := settled (s.retryConn conn)

/-- An RNR wait is over (R323). -/
def execRnrWait (conn : Fin 64) (s : State) : Host.Outcome State Fault Refusal :=
  if (s.conn conn).rnrWait then settled ((s.resendConn conn).connGo conn) else .next s

/-- A CNP (R323): the rate is halved, at most once per 50 µs. -/
def State.cnpIn (s : State) (i : Nat) : State :=
  let x := s.conn i
  let s1 := s.count48 (.eth 1) 0x40 1
  if x.cnpAt = 0 ∨ x.cnpAt + 5000 ≤ s.aonClk then s1.setConn i { x with rate := x.rate / 2, cnpAt := max s.aonClk 1 } else s1

/-- A CNP arrives. -/
def execCnp (conn : Fin 64) (s : State) : Host.Outcome State Fault Refusal :=
  .next (s.frameIn fun s => if (s.conn conn).st = .ready then s.cnpIn conn else s)

/-- 50 µs without a CNP raise the rate by RATE_STEP percent of the port rate (R323). -/
def execRateIncrease (conn : Fin 64) (s : State) : Host.Outcome State Fault Refusal :=
  let x := s.conn conn
  if x.st = .ready ∧ x.cnpAt + 5000 ≤ s.aonClk then
    .next (s.setConn conn { x with rate := min fullRate (x.rate + field x.ctrl.toNat 16 8 * (fullRate / 100)) })
  else .next s

/-! ### The port (R27, R331) -/

/-- The port goes down (R27): its record; KV egress goes by the d0 neighbour while that edge is up and the neighbour's own port is, which is not
known here; otherwise the prompts that need it fail. -/
def State.ethDown (s : State) : State :=
  if !s.ethUp then s
  else
    let s1 := ((s.rput (.eth 0) 4 1 2 0).ror (.eth 0) 4 16).modSvc fun v => { v with paused := 0 }
    let s2 := s1.raise St.islEth (s1.newRec St.clsLink St.linkPortDown unitEth 0 0)
    let by_ := s2.edgeUp 0 && decide (s2.nextFree % 2 = 1)
    let s3 := (s2.modSvc fun v => { v with relayed := by_ }).drawFree
    if by_ then s3.portGo
    else (s3.svc.egress.map (·.gseq)).foldl (fun s g => s.failPrompt g St.egressPortDown 0) s3

/-- The Ethernet port goes down. -/
def execEthPortDown (s : State) : Host.Outcome State Fault Refusal := settled s.ethDown

/-- The port's address fields have been written from the board configuration record (R312). -/
def State.addressed (s : State) : Bool :=
  let mac := fun a => (s.rget (.eth 0) a != 0 || s.rget (.eth 0) (a + 4) != 0)
  mac 0x14 && mac 0x1C && (s.rget (.eth 0) 0x24 != 0 || (List.range 4).any fun i => s.rget (.eth 0) (0x30 + 4 * i) != 0)

/-- The Ethernet port comes up at 1.6 Tbit/s, or at 200 Gbit/s (R27, R331, R431 step 9); a port with fields unwritten stays down (R312). -/
def execEthPortUp (full : Bool) (s : State) : Host.Outcome State Fault Refusal :=
  if !s.addressed || !s.brd.booted || s.brd.deep then .next s
  else
    let s1 := (s.rput (.eth 0) 4 1 2 (if full then 1 else 2)).modSvc fun v => { v with relayed := false }
    settled ({ s1 with brd := { s1.brd with steps := if s1.brd.steps.contains 9 then s1.brd.steps else s1.brd.steps ++ [9] } }).portGo

end Sys2Proof.Machine
end

