-- ==== Sys2Proof/Machine/Boot.lean ====
section
/-! DEFINITION. The kinds of start (R424 to R427), the boot of one device (R394 to R397, R428) and the board configuration record (R429, R430,
R432). -/

namespace Sys2Proof.Machine

/-! ### Resets (R425 to R427) -/

/-- The bits of a register that a device reset keeps (R383, R388, R426, R439): the always-on, error and energy pages, `TRIPPED`, fences and frame
remaps. -/
def keptBits (a : Nat) : Word :=
  match Page.ofAddr a with
  | some (.aon, off) => if off = 4 then 0x21 else if off = 0x18 ∨ off = 0x1C then 0 else 0xFFFFFFFF
  | some (.err, off) => if off = 4 then 0x5 else 0xFFFFFFFF
  | some (.pwr k, off) => if k = 1 then 0xFFFFFFFF else if off = 4 then 8 else 0
  | some (.ssr _, off) => if off = 0xC ∨ 0x80 ≤ off then 0xFFFFFFFF else 0
  | some (.core _, off) => if off = 4 then 2 else 0
  | some (.lamb _, off) => if off = 4 then 0xFF0000 else 0
  | _ => 0

/-- A store of register bits with only what a mask keeps of each. -/
def maskRegs (keep : Nat → Word) (l : List (Nat × Word)) : List (Nat × Word) :=
  l.filterMap fun e => if e.2 &&& keep e.1 = 0 then none else some (e.1, e.2 &&& keep e.1)

/-- The security block after a reset (R401, R408): its fuses, and a new period of R401. -/
def Secure.afterReset (x : Secure) : Secure := { Secure.empty with fuses := x.fuses }

/-- A device reset (R426): what it keeps is the always-on clock, the error log and `RSEQ`, energy counters, `TRIPPED`, fences and remaps. -/
def State.resetDevice (s : State) : State :=
  let n := min (s.rfield .aon 0xC 0 16 + 1) 0xFFFF
  let s1 := s.stopWork
  let s2 : State := { s1 with
    mem := Mem.empty, regs := maskRegs keptBits s1.regs, force := maskRegs keptBits s1.force
    err := { ErrState.empty with log := s1.err.log, nextSeq := s1.err.nextSeq }
    pwr := { Power.empty with idleFrom := s1.aonClk }, sec := s1.sec.afterReset
    brd := { Board.empty with
      pwrgood := s1.brd.pwrgood, resetN := s1.brd.resetN, brownRails := s1.brd.brownRails, brownRec := s1.brd.brownRec
      thermtrip := s1.brd.thermtrip, tap := s1.brd.tap, drive := s1.brd.drive, boundary := s1.brd.boundary, gandersLost := s1.brd.gandersLost
      framesLost := s1.brd.framesLost, alertState := s1.brd.alertState || s1.rfield .aon 4 1 4 != 0 } }
  s2.rput .aon 0xC 0 16 n

/-- A power-on reset (R426): everything but the fuses; commands that wait, what has been sent and the free values drawn are the model's own. The
rails out of range and the trip output stay as they are. -/
def State.resetPower (s : State) : State :=
  let s1 : State := { State.reset with
    pending := s.pending, out := s.out, freeCtr := s.freeCtr, sec := s.sec.afterReset
    brd := { Board.empty with resetN := s.brd.resetN, brownRails := s.brd.brownRails, thermtrip := s.brd.thermtrip
                              alertState := s.brd.alertState || s.rfield .aon 4 1 4 != 0 } }
  if s.brd.thermtrip then s1.toSt 9 else s1

/-- While PWRGOOD is high and a rail lies below its range the start-up status says so (R425). -/
def State.showRails (s : State) : State :=
  match s.brd.brownRails with
  | r :: _ => s.startSt St.cfgUninitialised (0x200 + r)
  | [] => s

/-- PWRGOOD rises (R426): power-on reset, with RESET_N low (R424). -/
def execPowerOnReset (s : State) : Host.Outcome State Fault Refusal :=
  let s1 := s.resetPower
  let s2 : State := { s1 with brd := { s1.brd with pwrgood := true, resetN := false, thermtrip := false } }
  .next (s2.toSt 0).showRails

/-- RESET_N falls with PWRGOOD high (R426, R427). A tripped device stays as it is (R347). -/
def State.resetFall (s : State) : State :=
  if !s.brd.pwrgood || !s.brd.resetN then s
  else
    let s1 := if s.brd.thermtrip then s else s.resetDevice
    ({ s1 with brd := { s1.brd with resetN := false } }).showRails

/-- RESET_N is low for 10 µs. -/
def execDeviceReset (s : State) : Host.Outcome State Fault Refusal := .next s.resetFall

/-- A rail falls below its range while PWRGOOD is high (R425): after reset has ended a brownout reset, which keeps the log, `RSEQ` and the
always-on clock unless the rail is VDD_AON. -/
def State.brownout (s : State) (rail : Nat) : State :=
  if !s.brd.pwrgood then s
  else
    let rails := if s.brd.brownRails.contains rail then s.brd.brownRails else s.brd.brownRails ++ [rail]
    if rail = 6 then
      let s1 := s.resetPower
      let s2 : State := { s1 with brd := { s1.brd with brownRails := rails, thermtrip := false } }
      (s2.toSt 0).showRails
    else if !s.brd.resetN then ({ s with brd := { s.brd with brownRails := rails } }).showRails
    else
      let s1 := s.resetPower
      let due := match s.brd.brownRec with
        | some r => r
        | none => rail
      ({ s1 with
        aonClk := s.aonClk, err := { ErrState.empty with log := s.err.log, nextSeq := s.err.nextSeq }
        brd := { s1.brd with brownRails := rails, brownRec := some due } } : State).showRails

/-- A rail falls below its range. -/
def execBrownoutReset (rail : Fin 8) (s : State) : Host.Outcome State Fault Refusal := .next (s.brownout rail)

/-- PWRGOOD falls (R427): the part stops at once. -/
def execPwrgoodFall (s : State) : Host.Outcome State Fault Refusal :=
  let s1 := s.resetPower
  .next { s1 with brd := { s1.brd with pwrgood := false } }

/-! ### The board configuration record (R429, R430) -/

/-- EDC of a rail in mA, and its range of voltages in tenths of a mV (R417). -/
def railLimits : List (Nat × Nat × Nat) :=
  [(1800000, 5335, 8240), (240000, 7275, 7725), (180000, 7760, 8240), (20000, 11760, 12240), (40000, 7275, 7725), (35000, 4900, 5100),
   (2000, 7125, 7875), (1000, 17100, 18900)]

/-- The offsets at which the record of a rail fails (R430). -/
def railBad (b : List Byte) (r : Nat) : List Nat :=
  let o := 496 + 16 * r
  let (edc, lo, hi) := railLimits.getD r (0, 0, 0)
  let vmin := beAt b (o + 8) 2
  let vmax := beAt b (o + 10) 2
  (if beAt b o 1 ≠ r then [o] else []) ++ (if 128 ≤ beAt b (o + 1) 1 then [o + 1] else []) ++
    (if 2 ≤ beAt b (o + 3) 1 then [o + 3] else []) ++ (if edc < beAt b (o + 4) 4 then [o + 4] else []) ++
    (if 10 * vmin < lo ∨ hi < 10 * vmin then [o + 8] else []) ++ (if hi < 10 * vmax ∨ vmax < vmin then [o + 10] else []) ++
    (List.range 4).filterMap fun i => if beAt b (o + 12 + i) 1 ≠ 0 then some (o + 12 + i) else none

/-- The first failing byte of a board configuration record (R429, R430). -/
def recordBad (b : List Byte) : Option Nat :=
  let n := beAt b 400 1
  let ip := beAt b 401 1
  let mtu := beAt b 472 4 % 2 ^ 14
  let l := (if n = 16 ∨ n = 32 ∨ n = 64 then [] else [400]) ++ (if ip = 0 ∨ 4 ≤ ip then [401] else []) ++
    (if beAt b 402 2 = 0 then [402] else []) ++ (if 2 ^ 11 ≤ beAt b 406 2 then [406] else []) ++
    (if n = 16 ∧ beAt b 440 16 ≠ 0 then [440] else []) ++ (if n ≠ 64 ∧ beAt b 456 16 ≠ 0 then [456] else []) ++
    (if mtu < 1280 ∨ 9216 < mtu then [472] else []) ++
    ((List.range 12).filterMap fun i => if beAt b (484 + i) 1 ≠ 0 then some (484 + i) else none) ++
    (List.range 8).flatMap (railBad b) ++ (if b.length < 640 then [b.length] else [])
  l.min?

/-- The first address field that is left unwritten (R312, R430). -/
def unwrittenField (b : List Byte) : Option Nat :=
  let ip := beAt b 401 1
  if beAt b 408 6 = 0 then some 408
  else if beAt b 414 6 = 0 then some 414
  else if bitOf ip 0 ∧ beAt b 420 4 = 0 then some 420
  else if bitOf ip 1 ∧ beAt b 424 16 = 0 then some 424
  else none

/-- Gander firmware writes the registers that the record gives (R298, R312, R349, R429, R431); of `PWR_UNCORE` no value is stated. -/
def State.writeRecord (s : State) (b : List Byte) : State :=
  let put := fun (s : State) (p : Page) (off v : Nat) => s.rset p off ((vetWrite p off (s.rget p off) (BitVec.ofNat 32 v)).1)
  let ip := beAt b 401 1
  let s1 := ((s.rput (.pwr 0) 0xC 0 11 (beAt b 406 2)).rput (.pwr 0) 0x14 0 11 s.nextFree).drawFree.takeRws (.pwr 0)
  let s2 := (put (put (put (put s1 (.eth 0) 0x14 (beAt b 410 4)) (.eth 0) 0x18 (beAt b 408 2)) (.eth 0) 0x1C (beAt b 416 4)) (.eth 0) 0x20 (beAt b 414 2))
  let s3 := if bitOf ip 0 then put s2 (.eth 0) 0x24 (beAt b 420 4) else s2
  let s4 := if bitOf ip 1 then (List.range 4).foldl (fun s i => put s (.eth 0) (0x30 + 4 * i) (beAt b (424 + 4 * i) 4)) s3 else s3
  let s5 := put (put (put s4 (.eth 0) 8 (beAt b 472 4 % 2 ^ 29)) (.eth 0) 0xC (beAt b 476 4)) (.eth 0) 0x10 (beAt b 480 4)
  (s5.rput (.eth 3) 8 0 16 (beAt b 404 2)).takeRws (.eth 3)

/-- Revoke bits that the record burns (R407): those of the owner slots it names, except the slot that signed it. -/
def Fuses.revoke (f : Fuses) (mask signer : Nat) : Fuses :=
  { f with owners := f.owners.mapIdx fun i o => if mask.testBit i ∧ i + 1 ≠ signer then { o with revoked := true } else o }

/-! ### Boot (R394 to R397, R428, R431) -/

/-- A firmware slot boots (R393, R395, R397, R428): the header is good, its manifest verifies and its SVN is not below the minimum. -/
def State.slotBoots (s : State) (f : Flash) (x : FwSlot) : Bool := f.headerOk && x.ok && decide (s.sec.fuses.minSvn ≤ x.svn)

/-- The record of a manifest that fails at boot (R395). -/
def State.bootRec (s : State) (detail : Nat) : State :=
  s.raise St.islAon (s.newRec St.clsSecurity St.imageSignatureInvalid unitSec 0 detail)

/-- The part halts (R5, R395, R416, R432). -/
def State.halt (s : State) (st detail : Nat) : State := (s.toSt 7).startSt st detail

/-- The fused minimum rises to the booted firmware's SVN (R397). -/
def State.burnSvn (s : State) : State :=
  if s.sec.commitSvn && decide (s.sec.fuses.minSvn < s.sec.fwSvn) then
    { s with sec := { s.sec with fuses := { s.sec.fuses with minSvn := s.sec.fwSvn } } }
  else s

/-- Step 6 of R394: the board configuration record, and the conditions that it sets (R432). -/
def State.bootRecord (s : State) (pins : Pins) (f : Flash) : State :=
  let signer := f.boardSigner
  if !(f.boardOk && decide (1 ≤ signer) && s.signerActive signer) then
    (s.bootRec 2).leaveOut St.imageSignatureInvalid 2
  else
    let b := f.board
    let s1 : State := { s with sec := { s.sec with
      board := b, boardDigest := f.boardDigest, boardSigner := signer, fuses := s.sec.fuses.revoke (beAt b 1 1 % 16) signer } }
    let s2 := s1.writeRecord b
    let s3 := match recordBad b with
      | some o => s2.leaveOut St.paramInvalid o
      | none => if beAt b 400 1 ≤ s2.devIndex then s2.drawFree.leaveOut St.paramInvalid s2.nextFree else s2
    let s4 := match pins.deafRails with
      | r :: _ => s3.leaveOut St.cfgUninitialised (0x100 + r)
      | [] => s3
    match unwrittenField b with
    | some o => s4.leaveOut St.cfgUninitialised o
    | none => s4

/-- A firmware slot has booted (steps 5 to 8 of R394, steps 2 to 4 of R431): the Gander cores run, and a lower tree is being made. -/
def State.bootFrom (s : State) (pins : Pins) (f : Flash) (x : FwSlot) (slotB : Bool) : State :=
  let s1 : State := { s with
    sec := { s.sec with fwDigest := x.digest, fwSvn := x.svn, commitSvn := x.commitSvn, slotB := slotB, endorsement := f.endorsement }
    brd := { s.brd with booted := true, steps := [1, 2, 3, 4] } }
  let s2 := match s1.brd.brownRec with
    | some r => s1.raise St.islAon (s1.newRec St.clsPower St.cfgUninitialised unitPwr 0 (0x200 + r))
    | none => s1
  let s3 := (({ s2 with brd := { s2.brd with brownRec := none } }).toSt 3).bootRecord pins f
  if s3.sec.fuses.topUsed < 1024 then { s3 with sec := { s3.sec with regen := true, exhaustedGen := false } }
  else ({ s3 with brd := { s3.brd with steps := s3.brd.steps ++ [11] } }).burnSvn

/-- The boot chain (R5, R394, R395, R416). -/
def State.boot (s : State) (pins : Pins) (f : Flash) : State :=
  let s1 := (s.toSt 1).startSt 0 0
  if s1.sec.fuses.lifecycle ≠ 1 ∧ s1.sec.fuses.lifecycle ≠ 2 then s1.halt St.lifecycleInvalid 0
  else if pins.bootSrc = 2 then s1
  else if pins.bootSrc = 3 then s1.halt St.cfgUninitialised 1
  else if s1.slotBoots f f.slotA then s1.bootFrom pins f f.slotA false
  else
    let s2 := s1.bootRec 0
    if s2.slotBoots f f.slotB then s2.bootFrom pins f f.slotB true else (s2.bootRec 1).halt St.imageSignatureInvalid 1

/-- Reset ends (R415, R416, R425): the straps are sampled, and the part boots unless TEST_MODE is high, a rail is below its range or the part has
tripped. -/
def State.leaveReset (s : State) (pins : Pins) (f : Flash) : State :=
  let strap := put pins.index 0 6 + put (b01 pins.head) 6 1 + put pins.bootSrc 8 2
  let s1 : State := { s.rset .aon 8 (BitVec.ofNat 32 strap) with devIndex := pins.index }
  if pins.testMode || s1.brd.thermtrip || !s1.brd.brownRails.isEmpty then s1 else s1.boot pins f

/-- RESET_N rises. -/
def execResetNRise (pins : Pins) (flash : Flash) (s : State) : Host.Outcome State Fault Refusal :=
  if !s.brd.pwrgood || s.brd.resetN then .next s
  else .next (({ s with brd := { s.brd with resetN := true } }).leaveReset pins flash)

/-- A rail is back in its range (R425): once every rail is and RESET_N is high, the part leaves reset. -/
def State.railBack (s : State) (rail : Nat) (pins : Pins) (f : Flash) : State :=
  if !s.brd.brownRails.contains rail then s
  else
    let rest := s.brd.brownRails.filter (· != rail)
    let s1 : State := { s with brd := { s.brd with brownRails := rest } }
    if !rest.isEmpty then s1.showRails
    else
      let s2 := s1.startSt 0 0
      if s2.brd.pwrgood && s2.brd.resetN then s2.leaveReset pins f else s2

/-- A rail is back in its range. -/
def execRailInRange (rail : Fin 8) (pins : Pins) (flash : Flash) (s : State) : Host.Outcome State Fault Refusal := .next (s.railBack rail pins flash)

end Sys2Proof.Machine
end

