-- ==== Sys2Proof/Machine/Startup.lean ====
section
/-! DEFINITION. Start-up to READY: training, self-test, the lower tree (R400, R401, R431, R432), the formation of the group (R433, R434) and DEEP
(R361, R435, R436). -/

namespace Sys2Proof.Machine

/-! ### The lower tree (R400, R401) -/

/-- A lower tree has been generated and signed by a burnt top leaf (R400, R401); `dead` bits read unprogrammed after their burn. At 1,024 no tree
can be signed (R402). -/
def State.treeMade (s : State) (dead : Nat) : State :=
  if !s.sec.regen then s
  else
    let x := s.sec
    let used := min 1024 (x.fuses.topUsed + dead + 1)
    let base : Secure := { x with fuses := { x.fuses with topUsed := used }, regen := false, exhaustedGen := false }
    let made : Secure := if 1024 ≤ x.fuses.topUsed + dead then base
      else if x.exhaustedGen then { base with nextTree := true }
      else { base with tree := some used, leaf := 0, nextTree := false }
    let steps := if s.brd.steps.contains 11 then s.brd.steps else s.brd.steps ++ [11]
    (({ s with sec := made, brd := { s.brd with steps := steps } }).swapTree.burnSvn).attestGo

/-- A lower tree has been generated. -/
def execLowerTreeGenerated (deadBits : Nat) (s : State) : Host.Outcome State Fault Refusal := .next (s.treeMade deadBits)

/-- The period of R401 ends: an exhaustion-driven generation may start. -/
def execRegenPeriodEnd (s : State) : Host.Outcome State Fault Refusal :=
  .next (({ s with sec := { s.sec with periodOpen := true } }).startRegen)

/-! ### Training and self-test (R431, R432) -/

/-- A chip-link port reaches ACTIVE on the lanes that have trained. -/
def execLinkTrained (port : Fin 8) (lanes : Fin 64) (s : State) : Host.Outcome State Fault Refusal := .next (s.trained port lanes)

/-- A step of R431 is complete. -/
def State.stepDone (s : State) (n : Nat) : State :=
  if s.brd.steps.contains n then s else { s with brd := { s.brd with steps := s.brd.steps ++ [n] } }

/-- LPDDR5X training is over (R163, R423, R431): `CH_UP` shows the channels; one that failed keeps the device out, with its record (R386). After
DEEP the contents are kept; otherwise they have been initialised. -/
def State.memTrained (s : State) (failed : List Nat) : State :=
  if !s.brd.booted ∨ s.brd.steps.contains 8 then s
  else
    let up := fun (g : Nat) => ((List.range 10).map fun c => b01 (!failed.contains (10 * g + c)) * 2 ^ c).sum
    let s1 := (List.range 8).foldl (fun s g => s.rput (.mem g) 4 2 10 (up g)) s
    let s2 := match failed with
      | [] => s1
      | c :: _ =>
        let r := s1.serviceRec St.islAon (unitMem (c / 10) (c % 10)) St.memChannelFailed 8 0 7
        ({ (r.ror .err 4 16).leaveOut St.memChannelFailed 0 with grp := { r.grp with left := true } })
    (s2.stepDone 8).stepDone 10

/-- LPDDR5X training is over. -/
def execMemoryTrained (failed : List (Fin 80)) (s : State) : Host.Outcome State Fault Refusal := .next (s.memTrained (failed.map (·.val)))

/-- A Gander core has failed its self-test (R28, R383): it is fenced, with its record. -/
def State.fenceGander (s : State) (n : Nat) : State :=
  if s.brd.gandersLost.testBit n then s
  else
    let s1 := s.serviceRec St.islAon (unitGander n) St.unitFenced 6 0 0
    { s1 with brd := { s1.brd with gandersLost := s1.brd.gandersLost + 2 ^ n } }

/-! ### The words of formation (R243, R433) -/

/-- `GROUP_SIZE` of the board configuration record. -/
def State.boardSize (s : State) : Nat := beAt s.sec.board 400 1

/-- What JOIN carries (R433): index, lifecycle, the digest of the firmware manifest, `GROUP_SIZE`, `IP_MTU` and the member key share. -/
def State.joinWords (s : State) : List Word :=
  [BitVec.ofNat 32 s.devIndex, BitVec.ofNat 32 s.sec.fuses.lifecycle] ++
    ((List.range 12).map fun i => BitVec.ofNat 32 (s.sec.fwDigest / 2 ^ (32 * (11 - i)))) ++
    [BitVec.ofNat 32 s.boardSize, BitVec.ofNat 32 (s.rfield (.eth 0) 8 0 14)] ++ Config.memberShare s.devIndex

/-- Start-up is complete and the device may join (R431, R432). -/
def State.mayJoin (s : State) : Bool :=
  s.brd.booted && s.brd.steps.contains 12 && !s.leftOut && !s.grp.left && !s.grp.headLost && !s.grp.formed

/-- A device that holds a CALL answers it once (R433). -/
def State.answerCall (s : State) : State :=
  if s.mayJoin && s.grp.called && !s.grp.joinSent && !s.isHead then
    ({ s with grp := { s.grp with joinSent := true } }).sendSync s.grp.head 0x16 s.joinWords
  else s

/-- Start-up is complete (step 12 of R431): failed cores and Gander cores are fenced (R28, R383), and the device answers the head's call. -/
def State.startUpDone (s : State) (coresFailed gandersFailed : List Nat) : State :=
  let trained := (List.range 8).all fun p => (s.port p).tried
  if !s.brd.booted || s.brd.steps.contains 12 || !trained || !s.brd.steps.contains 8 || !s.brd.steps.contains 11 then s
  else
    let s1 := gandersFailed.foldl State.fenceGander s
    let lost := ((List.range 4).filter s1.brd.gandersLost.testBit).length
    let s2 := if 3 ≤ lost then (s1.leaveGroup St.mgmtLost 9 (unitGander (gandersFailed.headD 0))).leaveOut St.mgmtLost 0 else s1
    let s3 := coresFailed.foldl (fun s c => s.fenceUnit c 0) s2
    let s4 := if s3.liveCores.length < 24 then s3.leaveOut St.unitFenced 0 else s3
    let s5 := (((s4.stepDone 5).stepDone 6).stepDone 7).stepDone 12
    let s6 : State := { s5 with brd := { s5.brd with calledAt := s5.aonClk } }
    if s6.leftOut || s6.grp.left then s6 else (s6.toSt 4).answerCall

/-- Start-up is complete. -/
def execStartUpComplete (coresFailed : List (Fin 48)) (gandersFailed : List (Fin 4)) (s : State) : Host.Outcome State Fault Refusal :=
  .next (s.startUpDone (coresFailed.map (·.val)) (gandersFailed.map (·.val)))

/-! ### Formation (R433, R434) -/

/-- A CALL is held (R433, R434): that of the head of lowest index counts. -/
def State.takeCall (s : State) (head : Nat) : State :=
  if s.grp.formed || s.grp.headLost || s.leftOut || (s.isHead && decide (s.devIndex ≤ head)) then s
  else if s.grp.called && decide (s.grp.head ≤ head) then s.answerCall
  else
    let own := s.isHead
    let s1 : State := { s with grp := { s.grp with called := true, head := head, joinSent := false, calling := false, joins := [] } }
    (if own then s1.startSt St.notGroupHead 0
     else if s1.rfield .aon 4 16 16 = St.headLost then s1.startSt 0 0 else s1).answerCall

/-- A SYNC CALL. -/
def execCall (m : SyncMsg) (s : State) : Host.Outcome State Fault Refusal := s.syncIn m 0x15 fun s => s.takeCall (m.at_ 0 % 64)

/-- A head calls (R433): its start-up is complete and its group is not formed. -/
def State.mayCall (s : State) : Bool := s.mayJoin && s.isHead

/-- Every 10 ms a head that forms its group calls, over the dimensions that its `GROUP_SIZE` spans. -/
def execCallPeriod (s : State) : Host.Outcome State Fault Refusal :=
  if !s.mayCall then .next s
  else
    let s1 : State := if s.grp.calling then s else { s with grp := { s.grp with calling := true, firstCall := s.aonClk } }
    .next (s1.castOver 0 (Nat.log2 s1.boardSize) 0x15 s1.devIndex [BitVec.ofNat 32 (s1.devIndex + 2 ^ 8 * s1.boardSize)])

/-- The devices that the head has accepted, itself among them. -/
def State.accepted (s : State) (d : Nat) : Bool := d == s.devIndex || s.grp.joins.any fun j => j.dev == d && j.accepted

/-- The sub-cube of a size that holds this device: the devices that agree with it in the index bits above the size. -/
def State.subCube (s : State) (n : Nat) : List Nat := (List.range n).map fun i => s.devIndex / n * n + i

/-- The formation limit has passed since the first CALL (R433, R429). -/
def State.formDue (s : State) : Bool :=
  s.grp.calling && decide (s.grp.firstCall + beAt s.sec.board 402 2 * 1000000 ≤ s.aonClk)

/-- The size that step 4 of R433 finds, if any. -/
def State.formSize (s : State) : Option Nat :=
  let n := s.boardSize
  ((if s.formDue then [n, n / 2, n / 4] else [n]).filter (16 ≤ ·)).find? fun k => (s.subCube k).all s.accepted

/-- What a device does that becomes a member (R287, R433, R439). -/
def State.becomeMember (s : State) (size head mask ip : Nat) : State :=
  let s1 : State := { s with grp := { s.grp with
    formed := true, size := size, head := head, members := mask, lastGseq := 0, headSeen := s.aonClk, headIp := ip, calling := false } }
  let s2 := (s1.rset .aon 0x1C (BitVec.ofNat 32 (put size 0 7 + put head 8 6 + put 1 16 1))).rset (.eth 3) 0xC 0
  (((s2.toSt 5).startSt 0 0).rput .aon 4 6 1 1)

/-- The head forms its group when it can (R433 steps 4 and 5); past the limit with no size complete it shows the lowest missing index. -/
def State.tryForm (s : State) : State :=
  if !s.mayCall || !s.grp.calling then s
  else
    match s.formSize with
    | some n =>
      let mask := ((s.subCube n).map fun d => 2 ^ d).sum
      let ip := s.ownIp
      let ws := [BitVec.ofNat 32 n, BitVec.ofNat 32 mask, BitVec.ofNat 32 (mask / 2 ^ 32)] ++
        (List.range 4).map fun i => BitVec.ofNat 32 (ip / 2 ^ (32 * (3 - i)))
      (s.castOver 0 (Nat.log2 s.boardSize) 0x17 s.devIndex ws).becomeMember n s.devIndex mask ip
    | none =>
      if s.formDue then
        match ((List.range s.boardSize).find? fun d => !s.accepted d) with
        | some d => s.startSt St.addrDeviceAbsent d
        | none => s
      else s

/-- Why the head refuses a JOIN (R433), in the order of its table. -/
def State.joinRefused (s : State) (m : SyncMsg) (keyOk : Bool) : Option Nat :=
  let own := s.joinWords
  if m.at_ 1 ≠ s.sec.fuses.lifecycle then some St.groupLifecycleMismatch
  else if (m.words.drop 2).take 13 ≠ (own.drop 2).take 13 then some St.paramInvalid
  else if !keyOk then some St.authFailed
  else none

/-- A JOIN reaches the head (R7, R407, R433). -/
def State.takeJoin (s : State) (m : SyncMsg) (keyOk : Bool) : State :=
  if !s.mayCall then s
  else
    let bad := s.joinRefused m keyOk
    let s1 : State := { s with grp := { s.grp with joins := s.grp.joins.filter (·.dev != m.src) ++ [⟨m.src, bad.isNone, none⟩] } }
    let s2 := match bad with
      | some st =>
        if st = St.groupLifecycleMismatch then s1.startSt st m.src
        else if st = St.authFailed then s1.raise (St.islGander 0) { s1.newRec St.clsSecurity st (unitGander 0) 0 0 with device := m.src }
        else s1
      | none => s1
    s2.tryForm

/-- A SYNC JOIN; `keyOk` tells whether its member key signature and endorsement verify. -/
def execJoin (m : SyncMsg) (keyOk : Bool) (s : State) : Host.Outcome State Fault Refusal := s.syncIn m 0x16 fun s => s.takeJoin m keyOk

/-- `FORM_TMO` has passed since the first CALL. -/
def execFormTmo (s : State) : Host.Outcome State Fault Refusal := if s.formDue then .next s.tryForm else .next s

/-- A FORMED (R433): the device becomes a member or is left out; why one inside the formed sub-cube was refused no message tells. -/
def State.takeFormed (s : State) (m : SyncMsg) : State :=
  let size := m.at_ 0 % 2 ^ 7
  let mask := m.at64 1
  if !s.mayJoin || !s.grp.joinSent || decide (m.src ≠ s.grp.head) then s
  else if mask.testBit s.devIndex then s.becomeMember size m.src mask (beNat ((m.words.drop 3).take 4 |>.flatMap fun w => beBytes 4 w.toNat))
  else if s.devIndex / max size 1 = m.src / max size 1 then
    s.drawFree.leaveOut ([St.groupLifecycleMismatch, St.paramInvalid, St.authFailed].getD (s.nextFree % 3) St.authFailed) 0
  else s.leaveOut St.addrDeviceAbsent 0

/-- A SYNC FORMED. -/
def execFormed (m : SyncMsg) (s : State) : Host.Outcome State Fault Refusal := s.syncIn m 0x17 fun s => s.takeFormed m

/-- No CALL is held within `FORM_TMO` of step 12 (R434). -/
def execMemberFormTmo (s : State) : Host.Outcome State Fault Refusal :=
  if s.mayJoin && !s.isHead && !s.grp.called && decide (s.brd.calledAt + beAt s.sec.board 402 2 * 1000000 ≤ s.aonClk) then
    .next (s.startSt St.headLost 0)
  else .next s

/-! ### DEEP (R361, R435, R436) -/

/-- A SYNC DEEP notice: members wait for a new CALL. -/
def execDeep (m : SyncMsg) (s : State) : Host.Outcome State Fault Refusal := s.syncIn m 0x14 fun s => s.deepNotice

/-- Memory that DEEP keeps: LPDDR5X (R426). -/
def Mem.deepKeep (m : Mem) : Mem :=
  let keep := fun (a : Nat) => decide (a < 0x1FFFFFE000)
  { m with cells := m.cells.filter fun e => keep e.1, synd := m.synd.filter fun e => keep e.1, seenBad := [] }

/-- Registers that DEEP keeps: those of units that stay powered, and the fences of cores. -/
def deepBits (a : Nat) : Word :=
  match Page.ofAddr a with
  | some (.core _, _) => keptBits a
  | some (.lamb _, _) => keptBits a
  | some (.tsq _, _) => 0
  | some (.vec _, _) => 0
  | some (.str _, _) => 0
  | some (.hen _, _) => 0
  | some (.cbuf _, _) => 0
  | _ => 0xFFFFFFFF

/-- The device enters DEEP (R361, R435): the group is told, contexts are reset, sessions end, and cores, links, SRAM and Ethernet are off. -/
def State.enterDeep (s : State) : State :=
  let s1 := if !s.grp.formed then s else if s.isHead then s.broadcast 0x14 [] else s.broadcast 0x18 [BitVec.ofNat 32 s.devIndex, 0]
  let s2 := s1.disband
  let s3 : State := { s2 with links := LinkState.empty }
  let s4 := (List.range 8).foldl (fun s p => s.portTo p .disabled) s3
  let s5 := (s4.rput (.eth 0) 4 1 2 0).rput (.pwr 0) 4 1 2 0
  ({ s5 with
    cores := s5.cores.map fun x => { CoreState.empty with fenced := x.fenced }
    gbars := Vector.replicate 64 GroupBar.empty, dsps := Vector.replicate 64 Dispense.empty
    mem := s5.mem.deepKeep, regs := maskRegs deepBits s5.regs, force := maskRegs deepBits s5.force, latches := []
    svc := { s5.svc with fetches := [], hostPages := [], conns := Vector.replicate 64 Conn.empty, challenges := [], paused := 0, relayed := false }
    pwr := { s5.pwr with queue := [], order := [], target := none, newS := none }
    sec := { s5.sec with tapLevel := 0 }
    brd := { s5.brd with deep := true, booted := false, steps := [1, 2, 3, 4, 10, 11] } } : State).toSt 8

/-- The device leaves DEEP (R426, R436): start-up goes on from chip-link training. -/
def State.exitDeep (s : State) : State :=
  if !s.brd.deep then s
  else
    let n := min (s.rfield .aon 0xC 16 16 + 1) 0xFFFF
    let s1 := (List.range 8).foldl (fun s p => s.enable p) (s.rput .aon 0xC 16 16 n)
    ({ s1 with pwr := { s1.pwr with idleFrom := s1.aonClk }, brd := { s1.brd with deep := false, booted := true } } : State).toSt
      (if s1.leftOut || s1.grp.left then 6 else 3)

end Sys2Proof.Machine
end

