-- ==== Sys2Proof/Machine/Smbus.lean ====
section
/-! DEFINITION. The SMBus port to the board controller (R437). -/

namespace Sys2Proof.Machine

/-- The port works: VDD_AON and VDDIO_1V8 are in range. -/
def State.smbusOn (s : State) : Bool := !s.brd.brownRails.contains 6 && !s.brd.brownRails.contains 7

/-- What a command of the port answers; nothing while it does not work. -/
def State.smbus (s : State) (f : State → State) : Host.Outcome State Fault Refusal := if s.smbusOn then .next (f s) else .next s

/-- A read answers bytes, the least significant first. -/
def State.smbusRead (s : State) (n v : Nat) : Host.Outcome State Fault Refusal := s.smbus fun s => s.emit (.smbus (leBytes n v))

/-- SMBus STATUS. -/
def execStatus (s : State) : Host.Outcome State Fault Refusal := s.smbusRead 2 (s.rfield .aon 4 16 16)

/-- SMBus DETAIL. -/
def execDetail (s : State) : Host.Outcome State Fault Refusal := s.smbusRead 2 (s.rfield .aon 0x18 0 16)

/-- SMBus STATE. -/
def execState (s : State) : Host.Outcome State Fault Refusal :=
  s.smbusRead 1 (put (s.rfield .aon 4 1 4) 0 4 + put (b01 s.isHead) 4 1 + put (b01 s.grp.quiesced) 5 1)

/-- SMBus INDEX. -/
def execIndex (s : State) : Host.Outcome State Fault Refusal := s.smbusRead 1 (s.rfield .aon 8 0 7)

/-- SMBus TEMP. -/
def execTemp (s : State) : Host.Outcome State Fault Refusal := s.smbusRead 2 (s.rfield (.pwr 0) 0x30 0 10)

/-- SMBus POWER. -/
def execPower (s : State) : Host.Outcome State Fault Refusal := s.smbusRead 2 (s.rfield (.pwr 0) 0x24 0 11)

/-- SMBus UID: a block of 16 bytes, the most significant first. -/
def execUid (s : State) : Host.Outcome State Fault Refusal := s.smbus fun s => s.emit (.smbus (beBytes 16 s.sec.fuses.uid))

/-- ALERT# is asserted: STATUS is nonzero, the hottest Tj is 100 °C or more, or STATE has changed. -/
def State.alerts (s : State) : Bool :=
  s.rfield .aon 4 16 16 != 0 || decide (400 ≤ s.rfield (.pwr 0) 0x30 0 10) || s.brd.alertState

/-- A read of the Alert Response Address: an alerting device answers with its own address. -/
def execAlertResponse (s : State) : Host.Outcome State Fault Refusal :=
  s.smbus fun s =>
    if s.alerts then
      ({ s with brd := { s.brd with alertState := false } } : State).emit (.smbus [BitVec.ofNat 8 (2 * (0x40 + s.devIndex % 16))])
    else s.emit .smbusNack

/-- A write command: ignored with a wrong PEC, not acknowledged with another data byte or before start-up is complete (R427, R437). -/
def State.smbusWrite (s : State) (data want : Byte) (pecOk : Bool) (f : State → State) : Host.Outcome State Fault Refusal :=
  s.smbus fun s =>
    if !pecOk then s
    else if data ≠ want ∨ s.brd.thermtrip ∨ ¬(s.brd.deep ∨ s.brd.steps.contains 12) then s.emit .smbusNack
    else f s

/-- SMBus DEEP_ENTER. -/
def execDeepEnter (data : Byte) (pecOk : Bool) (s : State) : Host.Outcome State Fault Refusal :=
  s.smbusWrite data 0xD5 pecOk fun s => if s.brd.deep then s else s.enterDeep

/-- SMBus DEEP_EXIT. -/
def execDeepExit (data : Byte) (pecOk : Bool) (s : State) : Host.Outcome State Fault Refusal := s.smbusWrite data 0xE5 pecOk State.exitDeep

/-- SMBus RESET: a device reset, from which the part boots again. -/
def execReset (data : Byte) (pecOk : Bool) (pins : Pins) (flash : Flash) (s : State) : Host.Outcome State Fault Refusal :=
  s.smbusWrite data 0x5A pecOk fun s => s.resetDevice.leaveReset pins flash

end Sys2Proof.Machine
end

