-- ==== Sys2Proof/Machine/Tap.lean ====
section
/-! DEFINITION. The boundary-scan port (R438): its instructions, its register access (R30), its debug levels (R408 to R411) and the owner fuses
(R390). -/

namespace Sys2Proof.Machine

/-- An instruction is in force; `drive` tells what drives the pins. -/
def State.tapTo (s : State) (i : TapInstr) (d : PinDrive) : State := { s with brd := { s.brd with tap := i, drive := d } }

/-- Bits that the spec leaves open are captured. -/
def State.captureFree (s : State) (n : Nat) : State := (s.emit (.tap n (s.nextFree % 2 ^ n))).drawFree

/-- The status of the last operation (R438). -/
def State.tapSays (s : State) (st : Nat) : State := { s with sec := { s.sec with tapStatus := st } }

/-- The debug level of the port (R408). -/
def State.portLevel (s : State) : Nat := if s.sec.fuses.lifecycle = 2 then 3 else s.sec.tapLevel

/-- Every rail is in range (R438). -/
def State.railsIn (s : State) : Bool := s.brd.pwrgood && s.brd.brownRails.isEmpty

/-- IDCODE. -/
def execIdcode (s : State) : Host.Outcome State Fault Refusal := .next ((s.tapTo .idcode .normal).emit (.tap 32 0x1D48055B))

/-- SAMPLE/PRELOAD: the boundary register is captured from the pins and loaded. -/
def execSamplePreload (bits : List Bool) (s : State) : Host.Outcome State Fault Refusal :=
  let s1 := (s.tapTo .sample .normal).captureFree bits.length
  .next { s1 with brd := { s1.brd with boundary := bits } }

/-- EXTEST: the pins are captured and driven from the boundary register. -/
def execExtest (bits : List Bool) (s : State) : Host.Outcome State Fault Refusal :=
  if !s.railsIn then .next s
  else
    let s1 := (s.tapTo .extest .extest).captureFree bits.length
    .next { s1 with brd := { s1.brd with boundary := bits } }

/-- CLAMP: the pins hold the boundary register's values; the bypass register is selected. -/
def execClamp (s : State) : Host.Outcome State Fault Refusal :=
  if !s.railsIn then .next s else .next ((s.tapTo .clamp .clamp).emit (.tap 1 0))

/-- HIGHZ: the pins float; the bypass register is selected. -/
def execHighz (s : State) : Host.Outcome State Fault Refusal :=
  if !s.railsIn then .next s else .next ((s.tapTo .highz .highz).emit (.tap 1 0))

/-- REG_ACCESS: the data of the last read is captured in bits [79:48]; then the access is made under the port's rights (R30). -/
def execRegAccess (addr : Nat) (data : Word) (write : Bool) (s : State) : Host.Outcome State Fault Refusal :=
  let low := s.nextFree % 2 ^ 48
  let top := (s.nextFree / 2 ^ 48) % 2
  let s1 := ((s.tapTo .regAccess .normal).emit (.tap 81 (low + s.sec.tapRead.toNat * 2 ^ 48 + top * 2 ^ 80))).drawFree
  let a := addr % 2 ^ 48
  match Page.ofAddr a with
  | none => .next (s1.tapSays St.ok)
  | some (p, _) =>
    if write then
      let s2 := s1.tapSays (if s1.mayWrite .tap p then St.ok else St.regAccessDenied)
      settled (s2.regWrite .tap a 4 data)
    else
      let s2 := s1.tapSays (if s1.mayRead .tap p then St.ok else St.regAccessDenied)
      let (w, s3) := s2.regRead .tap a
      .next { s3 with sec := { s3.sec with tapRead := w } }

/-- The end of an attempt at a level (R411): opened, or counted as a failure. -/
def State.tapLevelTo (s : State) (level : Nat) (good : Bool) : State :=
  if good then
    let s1 := s.debugOpened.tapSays St.ok
    { s1 with sec := { s1.sec with tapLevel := level } }
  else s.debugFailed.tapSays St.authFailed

/-- DBG_PW: a Level 1 password (R409, R411). -/
def execDbgPw (len : Nat) (password : List Byte) (s : State) : Host.Outcome State Fault Refusal :=
  let s1 := s.tapTo .dbgPw .normal
  if 1 ≤ s.portLevel then .next (s1.tapSays St.ok)
  else .next (s1.tapLevelTo 1 (!s1.debugLocked && decide (password.length = len) && s1.passwordOk password))

/-- DBG_CHAL: a challenge is captured (R410). -/
def execDbgChal (s : State) : Host.Outcome State Fault Refusal :=
  let (b, s1) := (s.tapTo .dbgChal .normal).challenge 0
  .next (s1.emit (.tap 512 (leNat b)))

/-- DBG_RESP: the response of phase 1 (R410, R411); `proofOk` tells whether its keys and signatures verify. -/
def execDbgResp (response : List Byte) (proofOk : Bool) (s : State) : Host.Outcome State Fault Refusal :=
  let s1 := s.tapTo .dbgResp .normal
  if 2 ≤ s.portLevel then .next (s1.tapSays St.ok)
  else
    let good := !s1.debugLocked && s1.challengeValid 0 && s1.signerActive (beAt response 0 1) && proofOk
    let s2 := s1.modSvc fun v => { v with challenges := v.challenges.filter (·.session != 0) }
    .next (s2.tapLevelTo 2 good)

/-- The owner fuses and the password may be written (R390): no slot is programmed, or the port holds Level 2. -/
def State.mayFuse (s : State) : Bool := !(s.sec.fuses.owners.toList.any (·.programmed)) || decide (2 ≤ s.portLevel)

/-- OTP_OWNER: an owner slot is programmed, once (R390). -/
def execOtpOwner (slot : Nat) (ecdsa hss : Nat) (s : State) : Host.Outcome State Fault Refusal :=
  let s1 := s.tapTo .otpOwner .normal
  if slot = 0 ∨ 4 < slot then .next (s1.tapSays St.paramInvalid)
  else if !s.mayFuse ∨ ((s.sec.fuses.owners.toList[slot - 1]?).any (·.programmed)) then .next (s1.tapSays St.authFailed)
  else
    let s2 := s1.tapSays St.ok
    let burn := fun (i : Nat) (o : Owner) => if i + 1 = slot then { o with programmed := true, ecdsa := ecdsa % 2 ^ 384, hss := hss % 2 ^ 384 } else o
    .next { s2 with sec := { s2.sec with fuses := { s2.sec.fuses with owners := s2.sec.fuses.owners.mapIdx burn } } }

/-- OTP_PW: the password digest is programmed (R390); a fuse once set stays set. -/
def execOtpPw (digest : Nat) (s : State) : Host.Outcome State Fault Refusal :=
  let s1 := s.tapTo .otpPw .normal
  if !s.mayFuse then .next (s1.tapSays St.authFailed)
  else
    let s2 := s1.tapSays St.ok
    .next { s2 with sec := { s2.sec with fuses := { s2.sec.fuses with password := s2.sec.fuses.password ||| digest % 2 ^ 384 } } }

/-- TAP_STATUS. -/
def execTapStatus (s : State) : Host.Outcome State Fault Refusal :=
  .next ((s.tapTo .tapStatus .normal).emit (.tap 32 (put s.sec.tapStatus 0 16 + put s.portLevel 16 2)))

/-- BYPASS. -/
def execBypass (s : State) : Host.Outcome State Fault Refusal := .next ((s.tapTo .bypass .normal).emit (.tap 1 0))

end Sys2Proof.Machine
end

