-- ==== Sys2Proof/Machine/Dispatch.lean ====
section
/-! DEFINITION. The effect of each command: one arm per constructor. -/

namespace Sys2Proof.Machine

/-- The command's effect on everything but the queue. -/
def exec (i : Instr) (s : State) : Host.Outcome State Fault Refusal :=
  match i with
  | .mac core unit thread ev => Sys2Proof.Machine.execMac core unit thread ev s
  | .l2sq core unit thread ev => Sys2Proof.Machine.execL2sq core unit thread ev s
  | .l1 core unit thread ev => Sys2Proof.Machine.execL1 core unit thread ev s
  | .maxplus core unit thread ev => Sys2Proof.Machine.execMaxplus core unit thread ev s
  | .minplus core unit thread ev => Sys2Proof.Machine.execMinplus core unit thread ev s
  | .hamming core unit thread ev => Sys2Proof.Machine.execHamming core unit thread ev s
  | .gtcount core unit thread ev => Sys2Proof.Machine.execGtcount core unit thread ev s
  | .passComplete core unit => Sys2Proof.Machine.execPassComplete core unit s
  | .conv core unit thread => Sys2Proof.Machine.execConv core unit thread s
  | .convComplete core unit => Sys2Proof.Machine.execConvComplete core unit s
  | .stream core unit thread => Sys2Proof.Machine.execStream core unit thread s
  | .segmentAcknowledged core ctx tag status => Sys2Proof.Machine.execSegmentAcknowledged core ctx tag status s
  | .streamTimeout core ctx => Sys2Proof.Machine.execStreamTimeout core ctx s
  | .faultLimit core ctx => Sys2Proof.Machine.execFaultLimit core ctx s
  | .copy core unit thread => Sys2Proof.Machine.execCopy core unit thread s
  | .put32 core unit thread => Sys2Proof.Machine.execPut32 core unit thread s
  | .add32 core unit thread => Sys2Proof.Machine.execAdd32 core unit thread s
  | .muleComplete core slot status => Sys2Proof.Machine.execMuleComplete core slot status s
  | .threadLoad core thread addr bytes tagParity => Sys2Proof.Machine.execThreadLoad core thread addr bytes tagParity s
  | .threadStore core thread addr data => Sys2Proof.Machine.execThreadStore core thread addr data s
  | .chain core unit thread parity => Sys2Proof.Machine.execChain core unit thread parity s
  | .chainComplete core stall => Sys2Proof.Machine.execChainComplete core stall s
  | .ld core => Sys2Proof.Machine.execLd core s
  | .ldv core => Sys2Proof.Machine.execLdv core s
  | .ldp core => Sys2Proof.Machine.execLdp core s
  | .st core => Sys2Proof.Machine.execSt core s
  | .ldq core => Sys2Proof.Machine.execLdq core s
  | .stq core => Sys2Proof.Machine.execStq core s
  | .add core => Sys2Proof.Machine.execAdd core s
  | .sub core => Sys2Proof.Machine.execSub core s
  | .mul core => Sys2Proof.Machine.execMul core s
  | .fma core => Sys2Proof.Machine.execFma core s
  | .max core => Sys2Proof.Machine.execMax core s
  | .min core => Sys2Proof.Machine.execMin core s
  | .neg core => Sys2Proof.Machine.execNeg core s
  | .abs core => Sys2Proof.Machine.execAbs core s
  | .sel core => Sys2Proof.Machine.execSel core s
  | .cgt core => Sys2Proof.Machine.execCgt core s
  | .cge core => Sys2Proof.Machine.execCge core s
  | .ceq core => Sys2Proof.Machine.execCeq core s
  | .permRotateHalf core => Sys2Proof.Machine.execPermRotateHalf core s
  | .permPairSwap core => Sys2Proof.Machine.execPermPairSwap core s
  | .exp core => Sys2Proof.Machine.execExp core s
  | .exp2 core => Sys2Proof.Machine.execExp2 core s
  | .log2 core => Sys2Proof.Machine.execLog2 core s
  | .rsqrt core => Sys2Proof.Machine.execRsqrt core s
  | .rcp core => Sys2Proof.Machine.execRcp core s
  | .rsum core => Sys2Proof.Machine.execRsum core s
  | .rmax core => Sys2Proof.Machine.execRmax core s
  | .rmin core => Sys2Proof.Machine.execRmin core s
  | .rssq core => Sys2Proof.Machine.execRssq core s
  | .osm core => Sys2Proof.Machine.execOsm core s
  | .topkLargest core => Sys2Proof.Machine.execTopkLargest core s
  | .topkSmallest core => Sys2Proof.Machine.execTopkSmallest core s
  | .selcnt core => Sys2Proof.Machine.execSelcnt core s
  | .stg core => Sys2Proof.Machine.execStg core s
  | .end_ core => Sys2Proof.Machine.execEnd core s
  | .phaseWait core unit thread => Sys2Proof.Machine.execPhaseWait core unit thread s
  | .creditWait core unit thread => Sys2Proof.Machine.execCreditWait core unit thread s
  | .signal core unit thread => Sys2Proof.Machine.execSignal core unit thread s
  | .waitTimeout => Sys2Proof.Machine.execWaitTimeout s
  | .longWaitLend core => Sys2Proof.Machine.execLongWaitLend core s
  | .gmm core unit thread => Sys2Proof.Machine.execGmm core unit thread s
  | .mrs core unit thread => Sys2Proof.Machine.execMrs core unit thread s
  | .dispenseRequest core unit waited => Sys2Proof.Machine.execDispenseRequest core unit waited s
  | .commandStart cls => Sys2Proof.Machine.execCommandStart cls s
  | .chunkStart cls prompts => Sys2Proof.Machine.execChunkStart cls prompts s
  | .maxHold gseq => Sys2Proof.Machine.execMaxHold gseq s
  | .contextFreeze slot => Sys2Proof.Machine.execContextFreeze slot s
  | .pageFault core ctx => Sys2Proof.Machine.execPageFault core ctx s
  | .pageFetchComplete page data => Sys2Proof.Machine.execPageFetchComplete page data s
  | .strResume by_ core ctx => Sys2Proof.Machine.execStrResume by_ core ctx s
  | .leaveRequest core => Sys2Proof.Machine.execLeaveRequest core s
  | .leaveGrant => Sys2Proof.Machine.execLeaveGrant s
  | .evaluationWindow w => Sys2Proof.Machine.execEvaluationWindow w s
  | .railSettled => Sys2Proof.Machine.execRailSettled s
  | .shiftPeriod => Sys2Proof.Machine.execShiftPeriod s
  | .tjSample tj => Sys2Proof.Machine.execTjSample tj s
  | .droop core => Sys2Proof.Machine.execDroop core s
  | .marginTrim margins => Sys2Proof.Machine.execMarginTrim margins s
  | .recalibration uncore measured estimated => Sys2Proof.Machine.execRecalibration uncore measured estimated s
  | .pwrCalWrite by_ value => Sys2Proof.Machine.execPwrCalWrite by_ value s
  | .idleEntry => Sys2Proof.Machine.execIdleEntry s
  | .dozeDelay => Sys2Proof.Machine.execDozeDelay s
  | .patrolScrub addr words => Sys2Proof.Machine.execPatrolScrub addr words s
  | .errorDrain island => Sys2Proof.Machine.execErrorDrain island s
  | .selftestComplete core ok => Sys2Proof.Machine.execSelftestComplete core ok s
  | .coreCmdSelftest by_ core => Sys2Proof.Machine.execCoreCmdSelftest by_ core s
  | .cbufInvAll by_ core => Sys2Proof.Machine.execCbufInvAll by_ core s
  | .henDbgForceRelease by_ core bar value => Sys2Proof.Machine.execHenDbgForceRelease by_ core bar value s
  | .henDbgSetArrivals by_ core bar value => Sys2Proof.Machine.execHenDbgSetArrivals by_ core bar value s
  | .henDbgSetConsumed by_ core bar value => Sys2Proof.Machine.execHenDbgSetConsumed by_ core bar value s
  | .henDbgBreak by_ core bar value => Sys2Proof.Machine.execHenDbgBreak by_ core bar value s
  | .hengDbgForceRelease by_ bar => Sys2Proof.Machine.execHengDbgForceRelease by_ bar s
  | .hengDbgBreak by_ bar => Sys2Proof.Machine.execHengDbgBreak by_ bar s
  | .lnkCmdRetrain by_ port => Sys2Proof.Machine.execLnkCmdRetrain by_ port s
  | .lnkCmdDisable by_ port => Sys2Proof.Machine.execLnkCmdDisable by_ port s
  | .lnkCmdEnable by_ port => Sys2Proof.Machine.execLnkCmdEnable by_ port s
  | .registerWrite by_ addr width value => Sys2Proof.Machine.execRegisterWrite by_ addr width value s
  | .idle port tr => Sys2Proof.Machine.execIdle port tr s
  | .write port f tr => Sys2Proof.Machine.execWrite port f tr s
  | .read port f tr => Sys2Proof.Machine.execRead port f tr s
  | .rdata port f tr => Sys2Proof.Machine.execRdata port f tr s
  | .ack port f tr => Sys2Proof.Machine.execAck port f tr s
  | .mule port f tr => Sys2Proof.Machine.execMule port f tr s
  | .reduce port f tr => Sys2Proof.Machine.execReduce port f tr s
  | .pieceEnd port f tr => Sys2Proof.Machine.execPieceEnd port f tr s
  | .flitDiscard port raw => Sys2Proof.Machine.execFlitDiscard port raw s
  | .linkFlitInvalid port f tr => Sys2Proof.Machine.execLinkFlitInvalid port f tr s
  | .replayTimer port => Sys2Proof.Machine.execReplayTimer port s
  | .nak port expected => Sys2Proof.Machine.execNak port expected s
  | .id port device peerPort lifecycle w3 colt => Sys2Proof.Machine.execId port device peerPort lifecycle w3 colt s
  | .train port state coefs => Sys2Proof.Machine.execTrain port state coefs s
  | .coltReq port => Sys2Proof.Machine.execColtReq port s
  | .coltAck port => Sys2Proof.Machine.execColtAck port s
  | .handover port failed lastSeq => Sys2Proof.Machine.execHandover port failed lastSeq s
  | .laneLockLoss port lane => Sys2Proof.Machine.execLaneLockLoss port lane s
  | .trainTmo port => Sys2Proof.Machine.execTrainTmo port s
  | .edgeDown dim => Sys2Proof.Machine.execEdgeDown dim s
  | .datagramReceive dim version seq ack flits credits => Sys2Proof.Machine.execDatagramReceive dim version seq ack flits credits s
  | .datagramRetransmit dim => Sys2Proof.Machine.execDatagramRetransmit dim s
  | .command m proofOk => Sys2Proof.Machine.execCommand m proofOk s
  | .heartbeat m => Sys2Proof.Machine.execHeartbeat m s
  | .heartbeatPeriod => Sys2Proof.Machine.execHeartbeatPeriod s
  | .headLost cause => Sys2Proof.Machine.execHeadLost cause s
  | .arrive m => Sys2Proof.Machine.execArrive m s
  | .grantReq m => Sys2Proof.Machine.execGrantReq m s
  | .grant m => Sys2Proof.Machine.execGrant m s
  | .abort m => Sys2Proof.Machine.execAbort m s
  | .collectiveTimeout opid => Sys2Proof.Machine.execCollectiveTimeout opid s
  | .abortRecord opid => Sys2Proof.Machine.execAbortRecord opid s
  | .freeze m => Sys2Proof.Machine.execFreeze m s
  | .thaw m => Sys2Proof.Machine.execThaw m s
  | .stepReq m => Sys2Proof.Machine.execStepReq m s
  | .reexec m => Sys2Proof.Machine.execReexec m s
  | .commandRestart m => Sys2Proof.Machine.execCommandRestart m s
  | .accuse m => Sys2Proof.Machine.execAccuse m s
  | .done m => Sys2Proof.Machine.execDone m s
  | .firstToken m => Sys2Proof.Machine.execFirstToken m s
  | .routeDigest m => Sys2Proof.Machine.execRouteDigest m s
  | .keyWrap m tagOk => Sys2Proof.Machine.execKeyWrap m tagOk s
  | .shiftReport m => Sys2Proof.Machine.execShiftReport m s
  | .shiftSet m => Sys2Proof.Machine.execShiftSet m s
  | .doze m => Sys2Proof.Machine.execDoze m s
  | .wake m => Sys2Proof.Machine.execWake m s
  | .deep m => Sys2Proof.Machine.execDeep m s
  | .call m => Sys2Proof.Machine.execCall m s
  | .callPeriod => Sys2Proof.Machine.execCallPeriod s
  | .join m keyOk => Sys2Proof.Machine.execJoin m keyOk s
  | .formTmo => Sys2Proof.Machine.execFormTmo s
  | .formed m => Sys2Proof.Machine.execFormed m s
  | .memberLeft m => Sys2Proof.Machine.execMemberLeft m s
  | .attest p => Sys2Proof.Machine.execAttest p s
  | .sessionOpen p sigOk => Sys2Proof.Machine.execSessionOpen p sigOk s
  | .exchangeExpiry digest => Sys2Proof.Machine.execExchangeExpiry digest s
  | .sessionClose p => Sys2Proof.Machine.execSessionClose p s
  | .debugUnlock p proofOk => Sys2Proof.Machine.execDebugUnlock p proofOk s
  | .challengeExpiry session => Sys2Proof.Machine.execChallengeExpiry session s
  | .groupState p => Sys2Proof.Machine.execGroupState p s
  | .commandStatus p => Sys2Proof.Machine.execCommandStatus p s
  | .readReg p => Sys2Proof.Machine.execReadReg p s
  | .writeReg p => Sys2Proof.Machine.execWriteReg p s
  | .memRead p => Sys2Proof.Machine.execMemRead p s
  | .memWrite p => Sys2Proof.Machine.execMemWrite p s
  | .telemetry p => Sys2Proof.Machine.execTelemetry p s
  | .errorRead p => Sys2Proof.Machine.execErrorRead p s
  | .errorAck p => Sys2Proof.Machine.execErrorAck p s
  | .setConfig p => Sys2Proof.Machine.execSetConfig p s
  | .imageBegin p => Sys2Proof.Machine.execImageBegin p s
  | .imageData p => Sys2Proof.Machine.execImageData p s
  | .imageCommit p => Sys2Proof.Machine.execImageCommit p s
  | .imageActivate p => Sys2Proof.Machine.execImageActivate p s
  | .imageUnload p => Sys2Proof.Machine.execImageUnload p s
  | .exec p => Sys2Proof.Machine.execExec p s
  | .prefill p => Sys2Proof.Machine.execPrefill p s
  | .tokenize gseq => Sys2Proof.Machine.execTokenize gseq s
  | .score p => Sys2Proof.Machine.execScore p s
  | .cancel p => Sys2Proof.Machine.execCancel p s
  | .kvPageData p => Sys2Proof.Machine.execKvPageData p s
  | .kvPageRequest page => Sys2Proof.Machine.execKvPageRequest page s
  | .reassemblyTimeout session seq => Sys2Proof.Machine.execReassemblyTimeout session seq s
  | .icmpEcho v6 to_ from_ data => Sys2Proof.Machine.execIcmpEcho v6 to_ from_ data s
  | .arpRequest v6 for_ from_ => Sys2Proof.Machine.execArpRequest v6 for_ from_ s
  | .pfcPause prio pause => Sys2Proof.Machine.execPfcPause prio pause s
  | .rep conn priv => Sys2Proof.Machine.execRep conn priv s
  | .rej conn => Sys2Proof.Machine.execRej conn s
  | .reqRetry conn => Sys2Proof.Machine.execReqRetry conn s
  | .roceAck conn psn => Sys2Proof.Machine.execRoceAck conn psn s
  | .roceNak conn psn kind => Sys2Proof.Machine.execRoceNak conn psn kind s
  | .roceAckTimeout conn => Sys2Proof.Machine.execRoceAckTimeout conn s
  | .rnrWait conn => Sys2Proof.Machine.execRnrWait conn s
  | .cnp conn => Sys2Proof.Machine.execCnp conn s
  | .rateIncrease conn => Sys2Proof.Machine.execRateIncrease conn s
  | .ethPortDown => Sys2Proof.Machine.execEthPortDown s
  | .powerOnReset => Sys2Proof.Machine.execPowerOnReset s
  | .deviceReset => Sys2Proof.Machine.execDeviceReset s
  | .brownoutReset rail => Sys2Proof.Machine.execBrownoutReset rail s
  | .pwrgoodFall => Sys2Proof.Machine.execPwrgoodFall s
  | .lowerTreeGenerated deadBits => Sys2Proof.Machine.execLowerTreeGenerated deadBits s
  | .linkTrained port lanes => Sys2Proof.Machine.execLinkTrained port lanes s
  | .memoryTrained failed => Sys2Proof.Machine.execMemoryTrained failed s
  | .startUpComplete coresFailed gandersFailed => Sys2Proof.Machine.execStartUpComplete coresFailed gandersFailed s
  | .status => Sys2Proof.Machine.execStatus s
  | .detail => Sys2Proof.Machine.execDetail s
  | .state => Sys2Proof.Machine.execState s
  | .index => Sys2Proof.Machine.execIndex s
  | .temp => Sys2Proof.Machine.execTemp s
  | .power => Sys2Proof.Machine.execPower s
  | .uid => Sys2Proof.Machine.execUid s
  | .alertResponse => Sys2Proof.Machine.execAlertResponse s
  | .deepEnter data pecOk => Sys2Proof.Machine.execDeepEnter data pecOk s
  | .deepExit data pecOk => Sys2Proof.Machine.execDeepExit data pecOk s
  | .reset data pecOk pins flash => Sys2Proof.Machine.execReset data pecOk pins flash s
  | .idcode => Sys2Proof.Machine.execIdcode s
  | .samplePreload bits => Sys2Proof.Machine.execSamplePreload bits s
  | .extest bits => Sys2Proof.Machine.execExtest bits s
  | .clamp => Sys2Proof.Machine.execClamp s
  | .highz => Sys2Proof.Machine.execHighz s
  | .regAccess addr data write => Sys2Proof.Machine.execRegAccess addr data write s
  | .dbgPw len password => Sys2Proof.Machine.execDbgPw len password s
  | .dbgChal => Sys2Proof.Machine.execDbgChal s
  | .dbgResp response proofOk => Sys2Proof.Machine.execDbgResp response proofOk s
  | .otpOwner slot ecdsa hss => Sys2Proof.Machine.execOtpOwner slot ecdsa hss s
  | .otpPw digest => Sys2Proof.Machine.execOtpPw digest s
  | .tapStatus => Sys2Proof.Machine.execTapStatus s
  | .bypass => Sys2Proof.Machine.execBypass s
  | .resetNRise pins flash => Sys2Proof.Machine.execResetNRise pins flash s
  | .railInRange rail pins flash => Sys2Proof.Machine.execRailInRange rail pins flash s
  | .droopRecovery core stretched => Sys2Proof.Machine.execDroopRecovery core stretched s
  | .ethPortUp full => Sys2Proof.Machine.execEthPortUp full s
  | .laneSignalDetect port => Sys2Proof.Machine.execLaneSignalDetect port s
  | .regenPeriodEnd => Sys2Proof.Machine.execRegenPeriodEnd s
  | .memberFormTmo => Sys2Proof.Machine.execMemberFormTmo s
  | .reservedOpcode opcode p => Sys2Proof.Machine.execReservedOpcode opcode p s
  | .unsupportedFrame => Sys2Proof.Machine.execUnsupportedFrame s
  | .commitChecksDone image sigOk => Sys2Proof.Machine.execCommitChecksDone image sigOk s
  | .refreshIntervalChange package rate => Sys2Proof.Machine.execRefreshIntervalChange package rate s

end Sys2Proof.Machine
end

