-- ==== Sys2Proof/WellFormed.lean ====
section
/-! DEFINITION. Well-formed commands: operands that fit the fields which carry them. -/

namespace Sys2Proof

open Sys2Proof.Machine (PWord Flit Trailer SyncMsg BcpPkt Flash Pins Window)

/-- The header of a flit fits its fields (R238), and its payload is 1 to 64 words. -/
def Machine.Flit.wf (f : Machine.Flit) : Bool :=
  decide (f.ftype < 2 ^ 4 ∧ f.vc < 2 ^ 2 ∧ f.dst < 2 ^ 6 ∧ f.src < 2 ^ 6) && decide (f.addr < 2 ^ 48 ∧ f.tid < 2 ^ 16 ∧ f.aux < 2 ^ 32)
    && decide (1 ≤ f.words.length ∧ f.words.length ≤ 64)

/-- The fields of a trailer fit their widths (R237); at most 12 bytes of a flit are corrected (R240). -/
def Machine.Trailer.wf (t : Machine.Trailer) : Bool :=
  decide (t.seq < 2 ^ 12 ∧ t.ack < 2 ^ 12 ∧ t.cvc < 2 ^ 2 ∧ t.cred < 2 ^ 6 ∧ t.fixed ≤ 12)

/-- Source and destination of a SYNC message are device indices (R238); the trailer fits too. -/
def Machine.SyncMsg.wf (m : Machine.SyncMsg) : Bool := m.tr.wf && decide (m.dst < 2 ^ 6 ∧ m.src < 2 ^ 6)

/-- The header of a BCP packet fits its fields (R276), and its payload a datagram. -/
def Machine.BcpPkt.wf (p : Machine.BcpPkt) : Bool :=
  decide (p.magic < 2 ^ 16 ∧ p.version < 2 ^ 8 ∧ p.flags < 2 ^ 8) && decide (p.session < 2 ^ 32 ∧ p.seq < 2 ^ 32)
    && decide (p.total < 2 ^ 32 ∧ p.offset < 2 ^ 32) && decide (p.pktCtr < 2 ^ 64) && decide (p.payload.length < 2 ^ 16)

/-- A value for each rail (R348), each partition and each core (R356). -/
def Machine.Window.wf (w : Machine.Window) : Bool := decide (w.railMa.length = 8 ∧ w.energy.length = 7 ∧ w.coreEnergy.length = 48)

/-- The operands of a command fit what carries them. -/
def Instr.wf : Instr → Bool
  | .threadLoad _ _ addr bytes _ => decide (addr < 2 ^ 54 ∧ bytes ≤ 64)
  | .threadStore _ _ addr data => decide (addr < 2 ^ 54 ∧ data.length ≤ 64)
  | .segmentAcknowledged _ _ _ code => decide (code < 2 ^ 16)
  | .muleComplete _ _ code => decide (code < 2 ^ 16)
  | .maxHold gseq => decide (gseq < 2 ^ 32)
  | .tokenize gseq => decide (gseq < 2 ^ 32)
  | .pageFetchComplete _ data => decide (data.length = 524288)
  | .evaluationWindow w => w.wf
  | .tjSample tj => decide (tj.length = 67)
  | .marginTrim ms => decide (ms.length = 48)
  | .write _ f tr | .read _ f tr | .rdata _ f tr | .ack _ f tr | .mule _ f tr | .reduce _ f tr | .pieceEnd _ f tr
  | .linkFlitInvalid _ f tr => f.wf && tr.wf
  | .idle _ tr => tr.wf
  | .flitDiscard _ raw => decide (raw.length = 360)
  | .nak _ e => decide (e < 2 ^ 12)
  | .train _ tst coefs => decide (tst < 2 ^ 4 ∧ coefs.length = 6)
  | .handover _ _ q => decide (q < 2 ^ 12)
  | .datagramReceive _ v q a fs _ => decide (v < 2 ^ 8 ∧ q < 2 ^ 32 ∧ a < 2 ^ 32) && fs.all Machine.Flit.wf
  | .command m _ | .heartbeat m | .arrive m | .grantReq m | .grant m | .abort m | .freeze m | .thaw m | .stepReq m | .reexec m
  | .commandRestart m | .accuse m | .done m | .firstToken m | .routeDigest m | .keyWrap m _ | .shiftReport m | .shiftSet m | .doze m
  | .wake m | .deep m | .call m | .join m _ | .formed m | .memberLeft m => m.wf
  | .attest p | .sessionOpen p _ | .sessionClose p | .debugUnlock p _ | .groupState p | .commandStatus p | .readReg p | .writeReg p
  | .memRead p | .memWrite p | .telemetry p | .errorRead p | .errorAck p | .setConfig p | .imageBegin p | .imageData p
  | .imageCommit p | .imageActivate p | .imageUnload p | .exec p | .prefill p | .score p | .cancel p | .kvPageData p => p.wf
  | .reservedOpcode op p => decide (op < 2 ^ 16) && p.wf
  | .registerWrite _ addr width _ => decide (addr < 2 ^ 48 ∧ 1 ≤ width ∧ width ≤ 64)
  | .regAccess addr _ _ => decide (addr < 2 ^ 48)
  | .memoryTrained failed => decide failed.Nodup
  | .mac _ _ _ _ | .l2sq _ _ _ _ | .l1 _ _ _ _ | .maxplus _ _ _ _ | .minplus _ _ _ _ | .hamming _ _ _ _ | .gtcount _ _ _ _
  | .passComplete _ _ | .conv _ _ _ | .convComplete _ _ | .stream _ _ _ | .streamTimeout _ _ | .faultLimit _ _ | .copy _ _ _ | .put32 _ _ _
  | .add32 _ _ _ | .chain _ _ _ _ | .chainComplete _ _ | .ld _ | .ldv _ | .ldp _ | .st _ | .ldq _ | .stq _ | .add _ | .sub _ | .mul _
  | .fma _ | .max _ | .min _ | .neg _ | .abs _ | .sel _ | .cgt _ | .cge _ | .ceq _ | .permRotateHalf _ | .permPairSwap _ | .exp _ | .exp2 _
  | .log2 _ | .rsqrt _ | .rcp _ | .rsum _ | .rmax _ | .rmin _ | .rssq _ | .osm _ | .topkLargest _ | .topkSmallest _ | .selcnt _ | .stg _
  | .end_ _ | .phaseWait _ _ _ | .creditWait _ _ _ | .signal _ _ _ | .waitTimeout | .longWaitLend _ | .gmm _ _ _ | .mrs _ _ _
  | .dispenseRequest _ _ _ | .commandStart _ | .chunkStart _ _ | .contextFreeze _ | .pageFault _ _ | .strResume _ _ _ | .leaveRequest _
  | .leaveGrant | .railSettled | .shiftPeriod | .droop _ | .recalibration _ _ _ | .pwrCalWrite _ _ | .idleEntry | .dozeDelay
  | .patrolScrub _ _ | .errorDrain _ | .selftestComplete _ _ | .coreCmdSelftest _ _ | .cbufInvAll _ _ | .henDbgForceRelease _ _ _ _
  | .henDbgSetArrivals _ _ _ _ | .henDbgSetConsumed _ _ _ _ | .henDbgBreak _ _ _ _ | .hengDbgForceRelease _ _ | .hengDbgBreak _ _
  | .lnkCmdRetrain _ _ | .lnkCmdDisable _ _ | .lnkCmdEnable _ _ | .replayTimer _ | .id _ _ _ _ _ _ | .coltReq _ | .coltAck _
  | .laneLockLoss _ _ | .trainTmo _ | .edgeDown _ | .datagramRetransmit _ | .heartbeatPeriod | .headLost _ | .collectiveTimeout _
  | .abortRecord _ | .callPeriod | .formTmo | .exchangeExpiry _ | .challengeExpiry _ | .kvPageRequest _ | .reassemblyTimeout _ _
  | .icmpEcho _ _ _ _ | .arpRequest _ _ _ | .pfcPause _ _ | .rep _ _ | .rej _ | .reqRetry _ | .roceAck _ _ | .roceNak _ _ _
  | .roceAckTimeout _ | .rnrWait _ | .cnp _ | .rateIncrease _ | .ethPortDown | .powerOnReset | .deviceReset | .brownoutReset _
  | .pwrgoodFall | .lowerTreeGenerated _ | .linkTrained _ _ | .startUpComplete _ _ | .status | .detail | .state | .index | .temp | .power
  | .uid | .alertResponse | .deepEnter _ _ | .deepExit _ _ | .reset _ _ _ _ | .idcode | .samplePreload _ | .extest _ | .clamp | .highz
  | .dbgPw _ _ | .dbgChal | .dbgResp _ _ | .otpOwner _ _ _ | .otpPw _ | .tapStatus | .bypass | .resetNRise _ _ | .railInRange _ _ _
  | .droopRecovery _ _ | .ethPortUp _ | .laneSignalDetect _ | .regenPeriodEnd | .memberFormTmo | .unsupportedFrame | .commitChecksDone _ _
  | .refreshIntervalChange _ _ => true

end Sys2Proof
end

