-- ==== Sys2Proof/Safety.lean ====
section
/-! DEFINITION. What holds in every state that the device can be in, in the terms that statements use. -/

namespace Sys2Proof.Machine

/-- The canonical form of memory: stored bytes, syndromes and granule poison bits stand in rising order of address, and no entry equals
what an unlisted address reads as. -/
abbrev Mem.wf (m : Mem) : Prop := swf 0#8 m.cells = true ∧ swf 0#7 m.synd = true ∧ swf false m.gran = true

/-- The canonical form of the register file: stored values and values in force stand in rising order of address, and no entry is one
at its reset value. -/
abbrev State.regsWf (s : State) : Prop := swf 0#32 s.regs = true ∧ swf 0#32 s.force = true

/-- Everything that is held sparsely is in its canonical form, so that equal contents are equal data. -/
abbrev State.canonical (s : State) : Prop := s.mem.wf ∧ s.regsWf

/-- An owner slot once programmed keeps its digests, and once revoked stays so (R389, R390). -/
def Owner.grows (a b : Owner) : Prop :=
  (a.programmed = true → b.programmed = true ∧ b.ecdsa = a.ecdsa ∧ b.hss = a.hss) ∧ (a.revoked = true → b.revoked = true)

/-- What is programmed once stays programmed (R389): the fields written at manufacture never change, an owner slot is written once, and
the thermometer codes of R397 and R403 only rise. -/
structure Fuses.Grows (a b : Fuses) : Prop where
  uid : b.uid = a.uid
  lifecycle : b.lifecycle = a.lifecycle
  vendor : b.vendorEcdsa = a.vendorEcdsa ∧ b.vendorHss = a.vendorHss
  owners : ∀ i : Fin 4, a.owners[i].grows b.owners[i]
  svn : a.minSvn ≤ b.minSvn
  top : a.topUsed ≤ 1024 → a.topUsed ≤ b.topUsed ∧ b.topUsed ≤ 1024

/-- The page is one of the device's (R29): the index of the unit that it names exists. -/
def Page.exists (p : Page) : Prop :=
  match p with
  | .core c | .tsq c | .vec c | .str c | .hen c | .lamb c | .cbuf c => c < 48
  | .lnk q => q < 8
  | .mem g => g < 8
  | .ssr d => d < 2
  | .eth k => k < 4
  | .heng k => k < 2
  | .pwr k => k < 2
  | .gnd n => n < 4
  | .aon | .err | .sec => True

/-- The next operation of thread t for the tile on unit u of core c is `o`, and its record holds `b`. -/
def State.atOp (s : State) (c u t : Nat) (o : OpCtx) (b : OpBody) : Prop := s.nextOp c u t = some o ∧ o.rcd.body = b

/-- The counters of a credit barrier fit it (R204): not more taken than arrived, and not more arrived and not taken than `CMAX`. -/
def CoreBar.creditOk (b : CoreBar) : Prop := b.consumed ≤ b.arrived ∧ b.arrived ≤ b.consumed + b.cmax

/-- The instruction `e`, of operation code `opc`, is the one that core c's vector engine has come to, and no pass in flight holds it up (R123, R134). -/
def State.chainAt (s : State) (c opc : Nat) (e : ChainEnv) : Prop := s.chainEnv c opc = some e ∧ e.slotBusy s = false

/-- A pass of operation `op` by record `q` can be issued now (R42, R53, R110, R134, R219): its core may issue, its Lambs are free, no chain still writes
the slots that it injects, and no conversion of its thread still writes what it reads. -/
def State.passReady (s : State) (op c u t : Nat) (o : OpCtx) (q : PassRec) : Prop :=
  s.nextOp c u t = some o ∧ o.rcd.pass? = some q ∧ q.op = op ∧ s.mayIssue c = true ∧
    (∀ f ∈ (s.core c).flights, f.lambs &&& lambMask o.run.prog (unitAt o.run.prog q.unit u) = 0) ∧
    ¬(o.injects q = true ∧ (s.core c).chainHolds u = true) ∧ s.convFeeds o c t q.aT = false ∧ s.convFeeds o c t q.wT = false

/-- The pass is skipped: skipping is enabled, it injects, every block under its weight tile is zero, and no tap sits on its unit (R56, R135). -/
def State.passSkipped (s : State) (c : Nat) (o : OpCtx) (q : PassRec) : Prop :=
  bitOf (s.rforce (.lamb c) 0xC).toNat 0 = true ∧ o.injects q = true ∧ s.allZero o q c = true ∧ o.run.prog.tap q.unit = none

/-- How many flits carry a message (R243). -/
def SyncMsg.flits (m : SyncMsg) : Nat := max 1 (ceilDiv m.words.length 64)

/-- The state in which a message of n flits is delivered at port p, if its link takes it (R241): the port is up, the trailer is taken, and the first flit
comes in sequence. -/
def State.linkTaken (s : State) (p : Nat) (tr : Trailer) (n : Nat) : Option State :=
  let s1 := s.takeTrailer p tr
  if (s.port p).up = true ∧ tr.seq = (s1.port p).rxNext then
    some ((s1.modPort p fun x => { x with rxNext := (x.rxNext + n) % 4096, nakOpen := false }).count48 (.lnk p) 0x28 n)
  else none

/-- The same of a SYNC message: over d4 or d5 the datagram that holds it has been delivered (R256). -/
def State.syncTaken (s : State) (m : SyncMsg) : Option State :=
  if m.via.val < 8 then s.linkTaken m.via.val m.tr m.flits else if s.ethUp then some s else none

/-- The state in which a SYNC message of a subtype acts on this device (R243, R255, R289): it is delivered and for this device, the head has been heard,
and a broadcast has gone on over the higher dimensions. -/
def State.syncActs (s : State) (m : SyncMsg) (sub : Nat) : Option State :=
  match s.syncTaken m with
  | none => none
  | some s1 =>
    if m.dst ≠ s1.devIndex then none
    else
      let s2 : State := if s1.grp.formed = true ∧ m.src = s1.grp.head then { s1 with grp := { s1.grp with headSeen := s1.aonClk } } else s1
      match m.bcast with
      | some b => some (s2.castOver (b.val + 1) (s2.castDims sub m.words) sub m.src m.words)
      | none => some s2

/-- The state after a SYNC message has acted: over a chip link its flits are answered (R241). -/
def State.syncOver (s : State) (m : SyncMsg) : State := if m.via.val < 8 then (s.answer m.via.val 0 m.flits).settle else s.settle

/-- The commands that bring a SYNC message, with their subtypes (R243). -/
def syncCommands : List (Nat × (SyncMsg → Instr)) :=
  [(1, fun m => .command m true), (1, fun m => .command m false), (2, .heartbeat), (3, .arrive), (4, .grantReq), (5, .grant), (6, .abort), (7, .freeze),
   (8, .thaw), (9, .stepReq), (0xA, .reexec), (0xA, .commandRestart), (0xB, .accuse), (0xC, .done), (0xD, .firstToken), (0xE, .routeDigest),
   (0xF, fun m => .keyWrap m true), (0xF, fun m => .keyWrap m false), (0x10, .shiftReport), (0x11, .shiftSet), (0x12, .doze), (0x13, .wake),
   (0x14, .deep), (0x15, .call), (0x16, fun m => .join m true), (0x16, fun m => .join m false), (0x17, .formed), (0x18, .memberLeft)]

/-- The commands that bring a sequenced flit other than SYNC, with their types (R239). -/
def flitCommands : List (Nat × (Fin 8 → Flit → Trailer → Instr)) :=
  [(1, .write), (2, .read), (3, .rdata), (4, .ack), (5, .mule), (6, .reduce), (8, .pieceEnd)]

/-- A BCP packet reaches the head's handling (R284, R331): the device serves it, its port is up, it wakes if it dozed, and the packet is counted. -/
def State.bcpSeen (s : State) : State := (s.count48 (.eth 0) 0x48 1).wakeOn

/-- The checks 1 to 5 of R284 pass: the header is BCP's, and this device is the head of its group and serves. -/
def State.bcpServes (s : State) (p : BcpPkt) : Prop :=
  s.brd.booted = true ∧ s.ethUp = true ∧ p.magic = 0x4243 ∧ p.version = 1 ∧ p.flags / 32 = 0 ∧ bitOf p.flags 0 = false ∧ bitOf p.flags 3 = false ∧
    s.bcpSeen.leftOut = false ∧ s.bcpSeen.grp.headLost = false ∧ s.bcpSeen.isHead = true

/-- A packet of session x whose tag verifies and whose counter its window takes (R282) makes a message whole (R277): t is the state in which the message is
handled, y its session and b its bytes. -/
def State.bcpGives (s : State) (op : Nat) (p : BcpPkt) (t : State) (y : Session) (b : List Byte) : Prop :=
  s.bcpServes p ∧ p.session ≠ 0 ∧ bitOf p.flags 1 = true ∧ op ≠ 2 ∧
    ∃ x s1 z ps, s.bcpSeen.openSessions.find? (·.id == p.session) = some x ∧ s.bcpSeen.acceptPkt x p = (true, s1) ∧ s1.session x.id = some z ∧
      p.total ≤ 0x1000000 ∧ p.payload.length ≤ s1.maxLen ∧ p.offset + p.payload.length ≤ p.total ∧
      z.reassemble op p s1.aonClk = .whole b ps ∧ t = s1.modSession x.id (fun y => { y with parts := ps }) ∧ t.session x.id = some y

/-- The state after a packet has been handled: fields of the page that take force at a message's end do so (R310). -/
def State.bcpOver (s : State) : State := (s.takeRws (.eth 3)).settle

/-- A reply of a state to a message under its session's keys, with no group sequence number (R286). -/
def State.says (s : State) (op : Nat) (p : BcpPkt) (y : Session) (r : Reply) : State := s.encReply p.from_ y.id p.seq op false none r

/-- The state in which a new message is carried out: it has been recorded and counted (R285, R310). -/
def State.recorded (s : State) (op : Nat) (p : BcpPkt) (y : Session) (b : List Byte) : State :=
  (s.modSession y.id fun x => x.record ⟨p.seq, digestOf b, none, isQuery op, none⟩).count48 (.eth 3) 0x20 1

/-- The queries but ATTEST, with their opcodes (R295). -/
def queryCommands : List (Nat × (BcpPkt → Instr)) :=
  [(0x10, .groupState), (0x11, .commandStatus), (0x12, .readReg), (0x14, .memRead), (0x16, .telemetry), (0x17, .errorRead)]

/-- The sequenced commands but SESSION_OPEN, with their opcodes and the verdict that comes with them (R295). -/
def sequencedCommands : List (Nat × Bool × (BcpPkt → Instr)) :=
  [(0x03, false, .sessionClose), (0x04, true, fun p => .debugUnlock p true), (0x04, false, fun p => .debugUnlock p false), (0x13, false, .writeReg),
   (0x15, false, .memWrite), (0x18, false, .errorAck), (0x19, false, .setConfig), (0x20, false, .imageBegin), (0x22, false, .imageCommit),
   (0x23, false, .imageActivate), (0x24, false, .imageUnload), (0x30, false, .exec), (0x31, false, .prefill), (0x32, false, .score),
   (0x33, false, .cancel)]

/-- Every command that brings a BCP packet for the head, with its opcode and the verdict that comes with it. -/
def bcpCommands : List (Nat × Bool × (BcpPkt → Instr)) :=
  sequencedCommands ++ (queryCommands.map fun e => (e.1, false, e.2)) ++
    [(0x01, false, .attest), (0x02, true, fun p => .sessionOpen p true), (0x02, false, fun p => .sessionOpen p false)]

/-- The commands that issue a pass, by the operation code of R46. -/
def passCommands : List (Nat × (Fin 48 → Fin 8 → Fin 16 → PassEvents → Instr)) :=
  [(0, .mac), (1, .l2sq), (2, .l1), (3, .maxplus), (4, .minplus), (5, .hamming), (6, .gtcount)]

/-- The chain instructions of two operands, with their operation codes and functions (R127, R128). -/
def binaryCommands : List (Nat × (Fin 48 → Instr) × (Word → Word → Word)) :=
  [(0x10, .add, fAdd), (0x11, .sub, fSub), (0x12, .mul, fMul), (0x14, .max, fMax), (0x15, .min, fMin), (0x19, .cgt, fCgt), (0x1A, .cge, fCge),
   (0x1B, .ceq, fCeq)]

/-- The chain instructions of one operand. -/
def unaryCommands : List (Nat × (Fin 48 → Instr) × (Word → Word)) :=
  [(0x16, .neg, fNeg), (0x17, .abs, fAbs), (0x20, .exp, fExp), (0x21, .exp2, fExp2), (0x22, .log2, fLog2), (0x23, .rsqrt, fRsqrt), (0x24, .rcp, fRcp)]

/-- The chain instructions of three operands. -/
def ternaryCommands : List (Nat × (Fin 48 → Instr) × (Word → Word → Word → Word)) := [(0x13, .fma, fFma), (0x18, .sel, fSel)]

/-- The row reductions. -/
def reduceCommands : List (Nat × (Fin 48 → Instr) × (List Word → Word)) :=
  [(0x30, .rsum, rSum), (0x31, .rmax, rMax), (0x32, .rmin, rMin), (0x33, .rssq, rSsq)]

end Sys2Proof.Machine
end

