-- ==== Sys2Proof/Certificates/Slice0/Obligations.lean ====
section
/-! DEFINITION. The statements for the provers, in the order of the spec's chapters. -/

section

open Sys2Proof Sys2Proof.Machine

/-! ### The machine -/

/-- A step carries out the command at the front of the queue, with the rest of the queue in place. -/
def Obligations.StepRunsFrontCommand : Prop :=
  ∀ (c : Instr) (rest : List Instr) (s : State), step { s with pending := c :: rest } = exec c { s with pending := rest }

/-- With no command waiting, a step is one count of the always-on clock (the model's choice, note 1): before the firmware has booted nothing else
changes, and after it memory, the cores, the barriers, the links, the commands and what was sent are as before. -/
def Obligations.IdleStepCountsClock : Prop :=
  ∀ s : State, s.pending = [] →
    (s.brd.booted = false → step s = .next { s with aonClk := s.aonClk + 1 }) ∧
    ∃ t, step s = .next t ∧ t.aonClk = s.aonClk + 1 ∧ t.pending = [] ∧ t.out = s.out ∧ t.mem = s.mem ∧ t.cores = s.cores ∧ t.gbars = s.gbars ∧
      t.dsps = s.dsps ∧ t.ctxs = s.ctxs ∧ t.links = s.links ∧ t.svc = s.svc ∧ t.force = s.force ∧ t.err = s.err ∧ t.sec = s.sec

/-- Every step keeps the canonical form of memory, check codes and registers. -/
def Obligations.StepKeepsCanonicalForm : Prop :=
  ∀ s t : State, s.canonical → step s = .next t → t.canonical

/-- Every step takes exactly one command from the queue and adds none, never takes back what was sent, and never draws a free value twice. -/
def Obligations.StepTakesOneCommand : Prop :=
  ∀ s t : State, step s = .next t → t.pending = s.pending.tail ∧ s.out <+: t.out ∧ s.freeCtr ≤ t.freeCtr

/-- No step undoes what is programmed into the fuses. -/
def Obligations.StepKeepsFuses : Prop :=
  ∀ s t : State, step s = .next t → s.sec.fuses.Grows t.sec.fuses

/-- After power-on reset nothing waits and nothing has been sent; power is good, RESET_N is low and the firmware has not booted; memory holds zero in
every byte with valid check codes; every register reads its reset value, stored and in force; every core barrier, group barrier and dispense counter
is FREE; no context exists; every port is DOWN; the error queues are empty; the record sequence starts at 1. Where the spec leaves it open this is the
model's choice: assumption log, entries 7 to 10. -/
def Obligations.ResetState : Prop :=
  State.reset.canonical ∧ State.reset.pending = [] ∧ State.reset.out = [] ∧
    (State.reset.brd.pwrgood = true ∧ State.reset.brd.resetN = false ∧ State.reset.brd.booted = false) ∧
    (∀ a, State.reset.mem.deliver a = ⟨0, false⟩ ∧ State.reset.mem.byte a = 0) ∧
    (∀ p off, State.reset.rget p off = p.resetVal off ∧ State.reset.rforce p off = p.resetVal off) ∧
    (∀ c b, ((State.reset.core c).bar b).st = .free) ∧ (∀ g, (State.reset.gbar g).st = .free) ∧ (∀ n, (State.reset.dsp n).st = .free) ∧
    (∀ k, State.reset.ctx k = none) ∧ (∀ p : Fin 8, State.reset.links.ports[p].st = .down) ∧
    (∀ i, (State.reset.errQueue i).entries = []) ∧ State.reset.err.nextSeq = 1

/-! ### Registers -/

/-- The pages of register space do not overlap: the page and offset that an address of a page names are that page and that offset. A register reads
back what was stored in it, and storing in it changes no other register, no value in force and nothing outside the register file; the same for values
in force. -/
def Obligations.RegistersReadBack : Prop :=
  (∀ (p : Page) (off : Nat), p.exists → off < 0x10000 → Page.ofAddr (p.base + off) = some (p, off)) ∧
  (∀ (s : State) (p q : Page) (off off' : Nat) (v : Word), s.regsWf →
     ((s.rset p off v).rget p off = v ∧ (s.rsetForce p off v).rforce p off = v) ∧
     (p.base + off ≠ q.base + off' →
       (s.rset p off v).rget q off' = s.rget q off' ∧ (s.rsetForce p off v).rforce q off' = s.rforce q off') ∧
     (s.rset p off v).rforce q off' = s.rforce q off' ∧ (s.rsetForce p off v).rget q off' = s.rget q off' ∧
     (s.rset p off v).regsWf ∧ (s.rsetForce p off v).regsWf ∧
     { s.rset p off v with regs := s.regs } = s ∧ { s.rsetForce p off v with force := s.force } = s)

/-- Access rights: which agent may read and write which page; an access outside them is not performed, a read of that kind answers zero, and the
accessing unit's island takes a CONFIG record with `REG_ACCESS_DENIED` that names the agent and the address. -/
def Obligations.RegisterAccessRights : Prop :=
  (∀ (s : State) (n : Fin 4) (p : Page), s.mayRead (.gander n) p = true ∧ s.mayWrite (.gander n) p = true) ∧
  (∀ (s : State) (c : Fin 48) (t : Fin 16) (p : Page),
    (s.mayRead (.thread c t) p = true ↔
      p = .core c ∨ p = .tsq c ∨ p = .vec c ∨ p = .str c ∨ p = .hen c ∨ p = .lamb c ∨ p = .cbuf c ∨ (∃ k, p = .heng k) ∨ (∃ k, p = .pwr k) ∨ p = .aon) ∧
    (s.mayWrite (.thread c t) p = true ↔ p = .tsq c ∨ p = .vec c ∨ p = .str c ∨ p = .hen c ∨ p = .lamb c ∨ p = .cbuf c)) ∧
  (∀ (s : State) (p : Page),
    (s.tapRights = 0 → (s.mayRead .tap p = true ↔ p = .aon) ∧ s.mayWrite .tap p = false) ∧
    (s.tapRights = 1 → s.mayRead .tap p = true ∧ s.mayWrite .tap p = false) ∧
    (2 ≤ s.tapRights → s.mayRead .tap p = true ∧ s.mayWrite .tap p = true) ∧
    (s.sec.fuses.lifecycle = 2 → 2 ≤ s.tapRights)) ∧
  (∀ (s : State) (by_ : Agent) (a width : Nat) (v : Word) (p : Page) (off : Nat), Page.ofAddr a = some (p, off) →
    (s.mayRead by_ p = false → s.regRead by_ a = (0, s.denied by_ a)) ∧
    (s.mayWrite by_ p = false → s.regWrite by_ a width v = s.denied by_ a)) ∧
  (∀ (s : State) (a : Nat),
    (∀ n : Fin 4, s.denied (.gander n) a = s.raise (St.islGander n) (s.newRec St.clsConfig St.regAccessDenied (unitGander n) a 0)) ∧
    (∀ (c : Fin 48) (t : Fin 16), s.denied (.thread c t) a =
      s.raise (St.islCore c) ((s.newRec St.clsConfig St.regAccessDenied (unitCore c (0x20 + t)) a 0).ofCtx (s.coreCtx c))) ∧
    ∃ isl r, s.denied .tap a = s.raise isl r ∧ r.cls = St.clsConfig ∧ r.status = St.regAccessDenied ∧ r.addr = a)

/-- Registers are accessed as naturally aligned 32-bit words: an access of another width, or an unaligned one, by an agent that has the right to it is
not performed; such a read answers zero, such a write stores nothing, and the unit sets `CFG_REJECT`. -/
def Obligations.RegisterWidthAndAlignment : Prop :=
  ∀ (s : State) (a : Nat) (p : Page) (off : Nat), Page.ofAddr a = some (p, off) →
    (∀ by_ width v, s.mayWrite by_ p = true → (width ≠ 4 ∨ off % 4 ≠ 0) → exec (.registerWrite by_ a width v) s = .next (s.reject p).settle) ∧
    (∀ (c : Fin 48) (t : Fin 16) data, s.mayWrite (.thread c t) p = true → (data.length ≠ 4 ∨ off % 4 ≠ 0) →
      exec (.threadStore c t a data) s = .next (s.reject p).settle) ∧
    (∀ by_, s.mayRead by_ p = true → off % 4 ≠ 0 → s.regRead by_ a = (0, s.reject p)) ∧
    (∀ (c : Fin 48) (t : Fin 16) bytes tp, s.mayRead (.thread c t) p = true →
      (bytes ≠ 4 → exec (.threadLoad c t a bytes tp) s = .next ((s.reject p).emit (.loaded c t (List.replicate (wordsOver a bytes) ⟨0, false⟩)))) ∧
      (off % 4 ≠ 0 → exec (.threadLoad c t a 4 tp) s = .next ((s.reject p).emit (.loaded c t [⟨0, false⟩])))) ∧
    ((∀ n, p ≠ .gnd n) → s.reject p = s.ror p.statusPage 4 1)

/-- A write to a listed register that is no action and whose value the unit does not ignore: writable bits take the value, W1C bits that are written
as 1 are cleared, every other bit keeps its value; a busy unit keeps its RWL bits and sets `CFG_REJECT`. An offset that its page's map does not list
reads as zero with no further effect, and a write to it stores nothing and sets `CFG_REJECT`. Where the spec leaves it open this is the model's
choice: assumption log, entries 12, 13, 178. -/
def Obligations.RegisterWriteByAccessCode : Prop :=
  (∀ (s : State) (by_ : Agent) (a : Nat) (v : Word) (p : Page) (off : Nat) (r : RegDef), Page.ofAddr a = some (p, off) → off % 4 = 0 →
     p.row off = some r → s.mayWrite by_ p = true → s.actionWrite by_ p off v = none → vetWrite p off (s.rget p off) v = (v, false) →
     r.rw ||| r.rws ||| r.rwl ||| r.w1c ||| r.wo ≠ 0 →
     let old := s.rget p off
     let m := r.rw ||| r.rws ||| (if s.regBusy p then 0 else r.rwl)
     let t := s.rset p off (((old &&& ~~~m) ||| (v &&& m)) &&& ~~~(v &&& r.w1c))
     exec (.registerWrite by_ a 4 v) s = .next (if s.regBusy p && r.rwl != 0 then t.reject p else t).settle) ∧
  (∀ (s : State) (by_ : Agent) (a : Nat) (v : Word) (p : Page) (off : Nat), Page.ofAddr a = some (p, off) → off % 4 = 0 → p.row off = none →
     (s.mayRead by_ p = true → s.regRead by_ a = (0, s)) ∧
     (s.mayWrite by_ p = true → exec (.registerWrite by_ a 4 v) s = .next (s.reject p).settle))

/-! ### Memory -/

/-- A word of memory is delivered as it was written, good or poisoned; writing it changes no other aligned word and keeps the canonical form. The
check code: check bits are linear in the word; a single wrong bit of data or of the check bits is corrected to the word as written, two wrong bits are
uncorrectable, and the poison marker is told from both. -/
def Obligations.MemoryAndCheckCode : Prop :=
  (∀ (m : Mem) (a b : Nat) (w : Word), m.wf → a % 4 = 0 → b % 4 = 0 →
     (sget false m.gran (a / 32) = false → (m.setWord a w 0).deliver a = ⟨w, false⟩) ∧
     (m.setWord a w poisonSynd).deliver a = ⟨w, true⟩ ∧
     (∀ y, b ≠ a → (m.setWord a w y).deliver b = m.deliver b) ∧
     (∀ y, (m.setWord a w y).wf ∧ (m.setWord a w y).gran = m.gran)) ∧
  ((∀ w v : Word, hsiao (w ^^^ v) = hsiao w ^^^ hsiao v) ∧ wordKind 0 = .good ∧ wordKind poisonSynd = .poison ∧
     (∀ i : Fin 32, wordKind (hsiao (1#32 <<< i.val)) = .corrected (some i)) ∧ (∀ j : Fin 7, wordKind (1#7 <<< j.val) = .corrected none) ∧
     (∀ i j : Fin 32, i ≠ j → wordKind (hsiao (1#32 <<< i.val ^^^ 1#32 <<< j.val)) = .bad) ∧
     (∀ i j : Fin 7, i ≠ j → wordKind (1#7 <<< i.val ^^^ 1#7 <<< j.val) = .bad) ∧
     (∀ (i : Fin 32) (j : Fin 7), wordKind (hsiao (1#32 <<< i.val) ^^^ 1#7 <<< j.val) = .bad))

/-- Local LPDDR5X addresses interleave over the 80 channels in 256-byte chunks: chunk j lies in channel j mod 80 at data offset (j div 80) × 256 + a
mod 256, each channel stores 6,710,886 chunks, and the chunks from 536,870,880 upward have no storage. -/
def Obligations.LpddrInterleave : Prop :=
  (∀ a < sramBase, (regionOf a = .lpddr ↔ a / 256 < 536870880) ∧ (536870880 ≤ a / 256 → regionOf a = .unmapped)) ∧
  (∀ a, channelOf a = a / 256 % 80) ∧
  (∀ n < 80, ((Finset.range 536870880).filter fun j => j % 80 = n).card = 6710886) ∧
  (∀ a b, regionOf a = .lpddr → regionOf b = .lpddr → channelOf a = channelOf b →
    a / 256 / 80 * 256 + a % 256 = b / 256 / 80 * 256 + b % 256 → a = b)

/-! ### Barriers, dispensing, timeouts and debug -/

/-- A WAIT on a phase barrier: the thread's expected generation E advances by the step; with (generation − E) mod 2¹⁶ below half the thread goes on,
after invalidating its cache if the WAIT acquires; at exactly half the tile fails with `BARRIER_GEN_STALE`; above half the thread waits among the
barrier's waiters; at a broken barrier the tile fails with `BARRIER_BROKEN`. A WAIT on a credit barrier takes an item when one has arrived and is not
taken, re-basing the counters when the last participant's item is taken; else the thread waits; at a broken barrier the tile fails. Where the spec
leaves it open this is the model's choice: assumption log, entries 69, 178. -/
def Obligations.WaitsComplete : Prop :=
  (∀ (s : State) (c : Fin 48) (u : Fin 8) (t : Fin 16) (o : OpCtx) (b step p m : Nat) (acq : Bool),
     s.atOp c u t o (.wait b acq false step p m) →
     let s1 := s.advance c u t
     let bar := (s1.core c).bar b
     let th := (s1.core c).thread t
     let e := (sget 0 th.expect b + step) % 65536
     let d := (bar.gen + 65536 - e) % 65536
     let s2 := s1.setCore c ((s1.core c).setThread t { th with expect := sset 0 th.expect b e })
     (bar.st = .broken → exec (.phaseWait c u t) s = .next ((s1.failTile c u St.barrierBroken).tryEnd c u).settle) ∧
     (bar.st ≠ .broken → d < 32768 → acq = false → exec (.phaseWait c u t) s = .next (s2.tryEnd c u).settle) ∧
     (bar.st ≠ .broken → d < 32768 → acq = true → exec (.phaseWait c u t) s = .next ((s2.invalidate c).tryEnd c u).settle) ∧
     (bar.st ≠ .broken → d = 32768 → exec (.phaseWait c u t) s = .next ((s2.failTile c u St.barrierGenStale).tryEnd c u).settle) ∧
     (bar.st ≠ .broken → 32768 < d →
       let s3 := s2.register c t 0 b e acq false u
       exec (.phaseWait c u t) s =
         .next ((s3.modCore c fun x => x.setBar b { x.bar b with waiters := (x.bar b).waiters ++ [t.val] }).tryEnd c u).settle)) ∧
  (∀ (s : State) (c : Fin 48) (u : Fin 8) (t : Fin 16) (o : OpCtx) (b step p m : Nat) (acq : Bool),
     s.atOp c u t o (.wait b acq true step p m) →
     let s1 := s.advance c u t
     let bar := (s1.core c).bar b
     let bar1 := if bar.consumed + 1 = bar.parts then
         { bar with gen := (bar.gen + 1) % 65536, arrived := bar.arrived - bar.parts, consumed := 0 }
       else { bar with consumed := bar.consumed + 1 }
     let s2 := (s1.setCore c ((s1.core c).setBar b bar1)).serve c b
     (bar.st = .broken → exec (.creditWait c u t) s = .next ((s1.failTile c u St.barrierBroken).tryEnd c u).settle) ∧
     (bar.st ≠ .broken → bar.consumed < bar.arrived →
       exec (.creditWait c u t) s = .next ((if acq then s2.invalidate c else s2).tryEnd c u).settle) ∧
     (bar.st ≠ .broken → bar.arrived ≤ bar.consumed →
       exec (.creditWait c u t) s = .next ((s1.waitAt c t b 0 acq false u).tryEnd c u).settle))

/-- A SIGNAL: at a phase barrier it counts as one arrival, and the arrival of the last participant releases the barrier; at a credit barrier it puts
an item where there is room, and the thread waits where there is none; at a broken barrier the tile fails. Where the spec leaves it open this is the
model's choice: assumption log, entry 178. -/
def Obligations.SignalArrives : Prop :=
  ∀ (s : State) (c : Fin 48) (u : Fin 8) (t : Fin 16) (o : OpCtx) (b : Nat), s.atOp c u t o (.signal b) →
    let s1 := s.advance c u t
    let x := s1.core c
    let bar := x.bar b
    (bar.st = .broken → exec (.signal c u t) s = .next ((s1.failTile c u St.barrierBroken).tryEnd c u).settle) ∧
    (bar.st = .open → bar.credit = false → bar.arrived + 1 < bar.parts →
      exec (.signal c u t) s = .next ((s1.setCore c (x.setBar b { bar with arrived := bar.arrived + 1 })).tryEnd c u).settle) ∧
    (bar.st = .open → bar.credit = false → bar.parts ≤ bar.arrived + 1 →
      exec (.signal c u t) s = .next (((s1.setCore c (x.setBar b { bar with gen := (bar.gen + 1) % 65536, arrived := 0 })).wakePhase c b
        wmMet).tryEnd c u).settle) ∧
    (bar.st = .open → bar.credit = true → bar.arrived < bar.consumed + bar.cmax →
      exec (.signal c u t) s = .next (((s1.setCore c (x.setBar b { bar with arrived := bar.arrived + 1 })).serve c b).tryEnd c u).settle) ∧
    (bar.st = .open → bar.credit = true → bar.consumed + bar.cmax ≤ bar.arrived →
      exec (.signal c u t) s = .next ((s1.waitAt c t b 0 false true u).tryEnd c u).settle)

/-- A credit barrier never holds more items than `CMAX` and never gives out an item that has not arrived: taking an item, putting one in and serving
the waiters all keep its counters so. -/
def Obligations.CreditBarrierKeepsBounds : Prop :=
  ∀ (s : State) (c b fuel : Nat), c < 48 → b < 32 →
    let bar := (s.core c).bar b
    bar.creditOk →
    (bar.consumed < bar.arrived → bar.consume.creditOk) ∧
    (bar.arrived < bar.consumed + bar.cmax → CoreBar.creditOk { bar with arrived := bar.arrived + 1 }) ∧
    (((s.serveCredit c b fuel).core c).bar b).creditOk

/-- The release of a phase barrier wakes exactly the waiters whose generation it reaches: each of them, if it stands at the barrier with a watch for
the new generation, loses its watch and finds the message in its mailbox, and the threads of other cores are as before. -/
def Obligations.PhaseReleaseWakes : Prop :=
  ∀ (s : State) (c b t : Nat) (w : Watch), c < 48 → b < 32 → t < 16 → t ∈ ((s.core c).bar b).waiters → ((s.core c).thread t).watch = some w →
    let gen := (((s.core c).bar b).gen + 1) % 65536
    let s1 := s.releasePhase c b wmMet
    ((s1.core c).bar b).gen = gen ∧ ((s1.core c).bar b).arrived = 0 ∧
    (genDist gen w.want < 32768 → ((s1.core c).thread t).watch = none ∧ t ∉ ((s1.core c).bar b).waiters ∧
      ((s1.core c).thread t).mbox = watchMsg w.kind w.obj wmMet (s.core c).owner) ∧
    (32768 ≤ genDist gen w.want → ((s1.core c).thread t).watch = some w ∧ t ∈ ((s1.core c).bar b).waiters) ∧
    ∀ d < 48, d ≠ c → (s1.core d).threads = (s.core d).threads ∧ (s1.core d).bars = (s.core d).bars

/-- A unit without a tile that asks for one is given the tile at the head of the reclaim list, else the next index, and otherwise told that the
counter is exhausted; the counter never gives an index at or past its count or one that it gave before. Where the spec leaves it open this is the
model's choice: assumption log, entries 32, 33, 178. -/
def Obligations.DispenseInOrder : Prop :=
  (∀ (s : State) (c : Fin 48) (u : Fin 8) (waited k : Nat) (x : Ctx) (r : ProgRun), s.coreSlot c = some k → s.coreCtx c = some x → x.run = some r →
    (s.core c).fenced = false → x.frozen = false → x.draining = false → x.cancel = false → s.grp.quiesced = false → s.stepHeld c = false →
    (s.dsp k).st ≠ .frozen → u.val < r.prog.sh.units → r.stopDispense = false → ((s.core c).unit u).cur = none →
    (((s.core c).unit u).prefetched = none → exec (.dispenseRequest c u waited) s = .next (s.serveRequest c u k waited r).settle) ∧
    (∀ n, ((s.core c).unit u).prefetched = some n → exec (.dispenseRequest c u waited) s = .next (s.startTile c u k n).settle)) ∧
  (∀ d : Dispense, d.st = .open →
    (∀ j rest, d.reclaim = j :: rest → d.answer = some (j, { d with reclaim := rest })) ∧
    (d.reclaim = [] → d.next < d.count → d.answer = some (d.next, { d with next := d.next + 1 })) ∧
    (d.reclaim = [] → d.count ≤ d.next → d.answer = none)) ∧
  (∀ d : Dispense, d.st ≠ .open → d.answer = none) ∧
  (∀ (d e : Dispense) (j : Nat), (∀ i ∈ d.reclaim, i < d.count) → d.answer = some (j, e) → j < d.count ∧ d.next ≤ e.next)

/-- A tick of the timeout unit: every watch of a kind with a limit that is not suspended loses one tick, a watch that has none left fires with
`WAIT_TIMEOUT`, and the watches of collectives and of leave never expire. A core of which no thread issues and all of whose watches have been held for
LEND_DELAY ticks lends its grant: it is charged at the floor, and it is no longer among the cores with a grant. Otherwise a long wait changes nothing.
Where the spec leaves it open this is the model's choice: assumption log, entries 66, 178. -/
def Obligations.TimeoutsAndLending : Prop :=
  ((∀ s : State, exec .waitTimeout s = .next s.timeoutTick.settle) ∧
   (∀ (s : State) (c t : Nat) (w : Watch), c < 48 → t < 16 → ((s.core c).thread t).watch = some w →
     ((s.tickWatches.core c).thread t).watch =
       some { w with held := w.held + 1, left := if timedKind w.kind && !s.waitSuspended c w then w.left - 1 else w.left }) ∧
   (∀ (s : State) (c t : Nat) (w : Watch), (c, t, w) ∈ s.expired →
     ((s.core c).thread t).watch = some w ∧ w.left = 0 ∧ w.kind ≠ 5 ∧ w.kind ≠ 6 ∧ w.kind ≠ 8) ∧
   (∀ (s : State) (c t : Nat) (w : Watch), c < 48 → t < 16 → ((s.core c).thread t).watch = some w →
     (((s.fire c t wmTimeout).core c).thread t).watch = none ∧
     (((s.fire c t wmTimeout).core c).thread t).mbox = watchMsg w.kind w.obj 1 (s.core c).owner)) ∧
  (∀ (s : State) (c : Fin 48),
     let ws := (s.core c).threads.toList.filterMap (·.watch)
     let lends := bitOf (s.rforce (.hen c) 8).toNat 24 = true ∧ (s.core c).lent = false ∧ 0 < (s.core c).charge ∧ s.coreIssuing c = false ∧
       ws ≠ [] ∧ ∀ w ∈ ws, s.ffield (.hen c) 8 16 8 ≤ w.held
     (lends → exec (.longWaitLend c) s = .next
       (let s1 := s.setCore c { s.core c with lent := true, charge := 0, demoted := none }
        { s1 with pwr := { s1.pwr with order := s1.pwr.order.filter (· != c.val) } })) ∧
     (¬lends → exec (.longWaitLend c) s = .next s))

/-- Registers whose write is an action, written by an agent that has the right to: a core that runs no program and is not fenced begins its self-test,
and another rejects the write; `CBUF_INV` empties the read cache and counts; `PWR_CAL` takes `SCALE` and ends mismatch budgeting; `LNK_CMD` retrains,
disables or enables its port. A self-test that ends well leaves the core in service; one that fails sets its status bit and fences the core. When the
last test of a quiesced device that was told to return is over, the device returns to service. `HEN_DBG` by an agent with the right to write it, on a
barrier that is not FREE: the debug record and FORCED are made first, the barrier is then released, given arrivals, given consumptions or broken, and
the command that the core runs is marked as forced. For a thread, and on a FREE barrier, only `CFG_REJECT` is set. `HENG_DBG` by an agent with the
right to write it, on a group barrier that is not FREE: the barrier releases, or breaks, on this device alone. Where the spec leaves it open this is
the model's choice: assumption log, entries 16, 68, 178. -/
def Obligations.ActionsOfRegisters : Prop :=
  (∀ (s : State) (by_ : Agent),
     (∀ c : Fin 48, s.mayWrite by_ (.core c) = true →
       ((s.core c).run = none → (s.core c).fenced = false →
         exec (.coreCmdSelftest by_ c) s = .next (s.setCore c { s.core c with selfTest := true })) ∧
       ((s.core c).run ≠ none ∨ (s.core c).fenced = true → exec (.coreCmdSelftest by_ c) s = .next (s.ror (.core c) 4 1))) ∧
     (∀ c : Fin 48, s.mayWrite by_ (.cbuf c) = true →
       exec (.cbufInvAll by_ c) s = .next ((s.setCore c { s.core c with cache := [] }).count48 (.cbuf c) 0x30 1)) ∧
     (∀ v : Word, s.mayWrite by_ (.pwr 0) = true →
       exec (.pwrCalWrite by_ v) s = .next (((s.rset (.pwr 0) 0x18 (v &&& 0xFFF)).rput (.pwr 0) 4 4 1 0).rput (.pwr 0) 0x24 16 4 0)) ∧
     ∀ p : Fin 8, s.mayWrite by_ (.lnk p) = true →
       exec (.lnkCmdRetrain by_ p) s = .next (s.retrain p) ∧
       ((s.port p).up = true → exec (.lnkCmdDisable by_ p) s =
         .next ((s.leaveActive p .disabled).modPort p fun x => { x with wasActive := false })) ∧
       ((s.port p).up = false → exec (.lnkCmdDisable by_ p) s =
         .next ((s.portTo p .disabled).modPort p fun x => { x with wasActive := false })) ∧
       ((s.port p).st = .disabled → exec (.lnkCmdEnable by_ p) s = .next (s.portTo p .down)) ∧
       ((s.port p).st ≠ .disabled → exec (.lnkCmdEnable by_ p) s = .next s)) ∧
  (∀ (s : State) (c : Fin 48), (s.core c).selfTest = true →
     let s1 := s.setCore c { s.core c with selfTest := false }
     exec (.selftestComplete c true) s = .next s1.returnToService.settle ∧
     exec (.selftestComplete c false) s = .next (((s1.ror (.core c) 4 0x80).fenceUnit c 0).returnToService).settle ∧
     (s.brd.selftestAll = true → (∀ d < 48, d ≠ c.val → (s.core d).selfTest = false) →
       s1.returnToService.brd.selftestAll = false ∧ s1.returnToService.grp.quiesced = s.grp.left)) ∧
  (∀ (s : State) (by_ : Agent) (c : Fin 48) (b : Fin 32) (v : Fin 256), s.mayWrite by_ (.hen c) = true →
     let ready := (∀ d t, by_ ≠ .thread d t) ∧ ((s.core c).bar b).st ≠ .free
     let s1 := (s.ror (.hen c) 4 32).raise (St.islCore c)
       ((s.newRec St.clsConfig St.debugForced (unitCore c 0x12) (b.val + 2 ^ 16 * agentCode by_) 0).ofCtx (s.coreCtx c))
     let mark := fun (y : State) => match y.coreSlot c with | some k => y.modCtx k fun x => { x with forced := true } | none => y
     let t := ((s.reject (.hen c)).endTiles c).settle
     (ready → exec (.henDbgForceRelease by_ c b v) s = .next ((mark (s1.forceBar c b)).endTiles c).settle ∧
       exec (.henDbgSetArrivals by_ c b v) s = .next ((mark (s1.setArrivals c b v)).endTiles c).settle ∧
       exec (.henDbgSetConsumed by_ c b v) s = .next ((mark (s1.setConsumed c b v)).endTiles c).settle ∧
       exec (.henDbgBreak by_ c b v) s = .next ((mark (s1.breakBar c b)).endTiles c).settle) ∧
     (¬ready → exec (.henDbgForceRelease by_ c b v) s = .next t ∧ exec (.henDbgSetArrivals by_ c b v) s = .next t ∧
       exec (.henDbgSetConsumed by_ c b v) s = .next t ∧ exec (.henDbgBreak by_ c b v) s = .next t)) ∧
  (∀ (s : State) (by_ : Agent) (g : Fin 64), s.mayWrite by_ (.heng 0) = true → (∀ d t, by_ ≠ .thread d t) → (s.gbar g).st ≠ .free →
     let s1 := (s.ror (.heng 0) 4 32).raise St.islSync
       ((s.newRec St.clsConfig St.debugForced unitSync (g.val + 2 ^ 16 * agentCode by_) 0).ofCtx (s.ctx (g / 16)))
     exec (.hengDbgForceRelease by_ g) s =
       .next ((noteEnd g (s1.gRelease g wmForced, true)).modCtx (g / 16) fun x => { x with forced := true }).settle ∧
     exec (.hengDbgBreak by_ g) s = .next ((s1.breakGbar g).modCtx (g / 16) fun x => { x with forced := true }).settle)

/-! ### Passes, conversions and chains -/

/-- A pass that can be issued and whose gathered piece, if it needs one, has arrived: it goes into flight with the results of its valid rows, computed
from the operands, weights and slot contents as they stand at its issue, its thread moves past it, and one more operation of the tile is open. Where
the spec leaves it open this is the model's choice: assumption log, entries 18, 21 to 23, 178. -/
def Obligations.PassesIssue : Prop :=
  ∀ e ∈ passCommands, ∀ (s : State) (c : Fin 48) (u : Fin 8) (t : Fin 16) (ev : PassEvents) (o : OpCtx) (q : PassRec),
    s.passReady e.1 c u t o q → o.pieceHere (o.piece s.devIndex q) = true → ¬s.passSkipped c o q →
    let p := o.run.prog
    let v := unitAt p q.unit u
    let cfg := q.cfg p
    let s0 := if p.stageT = some q.aT then s.stagePass o c (p.sh.kpp q.wfmt q.sparse) else s
    let waddr := o.base s0 c q.wT + o.at_.2.g * q.wGstep + o.at_.2.n * q.wNstep + o.at_.2.k * q.wKstep
    let tb := s0.peekBytes waddr cfg.tileBytes
    let dead := !(s0.poisonAddrs waddr (cfg.tileBytes / 4)).isEmpty || !cfg.metaOk tb.1 || ev.parity.isSome
    let valid := o.passRows.filter fun r => r.2.valid && s0.maskBit o c q.maskT r.2.i
    let outs := valid.map fun r => s0.rowOut o q c v r.1 r.2.i ⟨tb.1, s0.zeroAt o q c, waddr⟩ dead (!cfg.metaOk tb.1)
    ∃ t1 : State, exec (e.2 c u t ev) s = .next (t1.tryEnd c u).settle ∧
      (t1.core c).flights = (s.core c).flights ++ [⟨v, u, lambMask p v, t, outs.flatMap (·.writes), valid.length⟩] ∧
      (∃ tl : TileRun, ((t1.core c).unit u).cur = some tl ∧ tl.open_ = o.tile.open_ + 1 ∧
        tl.pos = sset 0 o.tile.pos t (sget 0 o.tile.pos t + 1) ∧ tl.num = o.tile.num) ∧
      t1.gbars = s.gbars ∧ t1.dsps = s.dsps ∧ t1.svc = s.svc ∧ t1.links = s.links ∧ t1.grp = s.grp ∧ t1.sec = s.sec ∧ t1.out = s.out

/-- A pass of which every weight block is zero, with skipping enabled, is counted as skipped and issues nothing; one whose gathered piece has not
arrived makes its thread wait on a watch of kind 5; one that cannot be issued yet changes nothing. When the last row of a unit's oldest pass leaves
the array, the slot rows take its column values, its Lambs are free, and its operation of the tile is closed; with no pass of the unit in flight
nothing happens. Where the spec leaves it open this is the model's choice: assumption log, entries 19, 178. -/
def Obligations.PassesSkipWaitAndComplete : Prop :=
  (∀ e ∈ passCommands, ∀ (s : State) (c : Fin 48) (u : Fin 8) (t : Fin 16) (ev : PassEvents) (o : OpCtx) (q : PassRec),
     (s.passReady e.1 c u t o q → o.pieceHere (o.piece s.devIndex q) = true → s.passSkipped c o q →
       exec (e.2 c u t ev) s = .next (((s.count48 (.lamb c) 0x38 1).advance c u t).tryEnd c u).settle) ∧
     (∀ pc, s.passReady e.1 c u t o q → o.piece s.devIndex q = some pc → o.pieceHere (some pc) = false →
       exec (e.2 c u t ev) s = .next ((s.register c t 5 pc 0 false false u).tryEnd c u).settle) ∧
     (s.nextOp c u t = some o → o.rcd.pass? = some q → q.op = e.1 → s.mayIssue c = false → exec (e.2 c u t ev) s = .next (s.tryEnd c u).settle)) ∧
  (∀ (s : State) (c : Fin 48) (u : Fin 8),
     ((∀ f ∈ (s.core c).flights, f.unit ≠ u.val) → exec (.passComplete c u) s = .next s) ∧
     ∀ f, (s.core c).flights.find? (·.unit == u.val) = some f →
       let s1 := f.writes.foldl (fun s w => s.putWords w.addr w.words) s
       let s2 := (s1.modCore c fun y => { y with flights := y.flights.eraseP (·.unit == u.val) }).count48 (.lamb c) 0x28 f.validRows
       exec (.passComplete c u) s = .next ((s2.rclr (.lamb c) 4 (f.lambs * 256)).closeOp c f.tile).settle)

/-- A conversion reads the slots of the M group at its issue, and what it will write is fixed then: one job for its unit, holding the words of every
row, or nothing when the destination refuses it, and the addresses of poisoned slot rows taint the tile. When it completes, its words are written, and
a refused one fails the tile. A GMM record puts the gather of its M group in flight and the thread goes on; an MRS record lets the thread go on, the
conversions of its M group being counted as tiles commit. Where the spec leaves it open this is the model's choice: assumption log, entries 24, 37,
178. -/
def Obligations.ConversionsAndCollectiveRecords : Prop :=
  ((∀ (s : State) (c : Fin 48) (u : Fin 8) (t : Fin 16) (o : OpCtx) (q : ConvRec), s.nextOp c u t = some o → o.rcd.conv? = some q →
     let v := unitAt o.run.prog q.unit u
     (∀ j ∈ (s.core c).convs, j.unit ≠ v) → (s.core c).chainHolds u = false →
     let x := s.readOut o q c v
     let refused := x.1.findSome? fun r => s.refusalRange true r.1 (4 * r.2.length)
     let dst := if refused.isSome then [] else x.1.flatMap fun r => ((List.range r.2.length).zip r.2).map fun p => (r.1 + 4 * p.1, p.2)
     exec (.conv c u t) s = .next ((((x.2.2.modCore c fun y => { y with
       convs := y.convs ++ [⟨v, u, t, (o.tensor q.dstT).tier, dst, o.at_.2, refused⟩] }).taintTile c u x.2.1).advance c u t).openOp c u)) ∧
   (∀ (s : State) (c : Fin 48) (u : Fin 8) (j : ConvJob), (s.core c).convs.find? (·.unit == u.val) = some j →
     let s1 := ((wordRuns j.dst.length j.dst).foldl (fun s r => s.putWords r.1 r.2) s).modCore c fun x => { x with
       convs := x.convs.eraseP (·.unit == u.val) }
     exec (.convComplete c u) s = .next ((match j.status with | some st => s1.failTile c j.tile st | none => s1).closeOp c j.tile).settle)) ∧
  ((∀ (s : State) (c : Fin 48) (u : Fin 8) (t : Fin 16) (o : OpCtx) (g p sT gT k b st : Nat) (kx : Bool),
     s.atOp c u t o (.gmm g p kx sT gT k b st) →
     exec (.gmm c u t) s = .next (((s.advance c u t).launchGather o.slot o.at_.2.mg).tryEnd c u).settle) ∧
   (∀ (s : State) (c : Fin 48) (u : Fin 8) (t : Fin 16) (o : OpCtx) (g p d n : Nat) (w : ConvWord), s.atOp c u t o (.mrs g p d n w) →
     exec (.mrs c u t) s = .next ((s.advance c u t).tryEnd c u).settle) ∧
   (∀ (s : State) (c u t : Nat), (s.advance c u t) =
     (s.modCore c fun x => x.setUnit u { x.unit u with cur := (x.unit u).cur.map fun tl => { tl with pos := sset 0 tl.pos t (sget 0 tl.pos t + 1) } }).count64
       (.core c) 0x18 1))

/-- A chain starts at once on an idle engine, after its thread has moved past its record; on a busy engine it joins the queue and its thread waits on
a watch of kind 7. When the rows of a chain are done the engine counts the operation, its busy cycles and its stalls, takes the next queued operation
and closes the operation of the tile; a chain with rows left does not complete. Where the spec leaves it open this is the model's choice: assumption
log, entries 45, 46, 52, 178. -/
def Obligations.ChainsIssueAndComplete : Prop :=
  (∀ (s : State) (c : Fin 48) (u : Fin 8) (t : Fin 16) (par : Option (Fin 4)) (o : OpCtx) (q : ChainRec), s.nextOp c u t = some o →
     o.rcd.chain? = some q → s.mayIssue c = true →
     let op : ChainOp := ⟨t, u, o.tile.half, o.tile.num, o.at_.1, o.at_.2, (o.run.chains[q.idx]?).getD ⟨0, 0, 0, [], [], []⟩, par.map (·.val)⟩
     let s1 := (s.advance c u t).openOp c u
     ((s.core c).vec.run = none → exec (.chain c u t par) s = .next (s1.beginChain c op)) ∧
     ((s.core c).vec.run ≠ none → exec (.chain c u t par) s =
       .next ((s1.modCore c fun x => { x with vec := { x.vec with queue := x.vec.queue ++ [op] } }).register c t 7 0 0 false false u))) ∧
  (∀ (s : State) (c : Fin 48) (stall : Nat) (r : ChainRun), (s.core c).vec.run = some r →
     (r.row < r.rows.length → exec (.chainComplete c stall) s = .next s) ∧
     (r.rows.length ≤ r.row →
       let s1 := s.modCore c fun x => { x with vec := { x.vec with run := none } }
       let s2 := ((s1.count48 (.vec c) 0x20 1).count48 (.vec c) 0x30 (ceilDiv r.slots 256)).count48 (.vec c) 0x38 stall
       exec (.chainComplete c stall) s = .next (((s2.rclr (.vec c) 4 4).nextChain c).closeOp c r.op.unit).settle))

/-- Lanewise instructions: a V register takes, in each lane, the function of the operands' lanes; a T register or a statistic field takes the function
of the scalar operands. A poisoned operand poisons the row, and the engine moves on by as many lane-slots as lanes, or 16. Row reductions give one
value per row to a T register or a statistic field, and OSM updates the running maximum and gives the factor by which the running sum is rescaled.
Where the spec leaves it open this is the model's choice: assumption log, entries 6, 47. -/
def Obligations.LanewiseAndReductions : Prop :=
  ((∀ e ∈ unaryCommands, ∀ (s : State) (c : Fin 48) (x : ChainEnv), s.chainAt c e.1 x →
     let n := x.laneWidth [x.ins.sa]
     let a := x.lanes s n x.ins.sa
     let k := x.scalar s x.ins.sa
     (x.ins.dst < 16 → exec (e.2.1 c) s =
       .next (((s.poisonRow x a.2).putV x.c x.ins.dst ((List.range n).map fun i => e.2.2 (a.1.getD i 0))).stepChain c n false)) ∧
     (16 ≤ x.ins.dst → exec (e.2.1 c) s = .next (((s.poisonRow x k.2).putScalar x x.ins.dst (e.2.2 k.1)).stepChain c 16 false))) ∧
   (∀ e ∈ binaryCommands, ∀ (s : State) (c : Fin 48) (x : ChainEnv), s.chainAt c e.1 x →
     let n := x.laneWidth [x.ins.sa, x.ins.sb]
     let a := x.lanes s n x.ins.sa
     let b := x.lanes s n x.ins.sb
     let k := x.scalar s x.ins.sa
     let l := x.scalar s x.ins.sb
     (x.ins.dst < 16 → exec (e.2.1 c) s = .next (((s.poisonRow x (a.2 || b.2)).putV x.c x.ins.dst
       ((List.range n).map fun i => e.2.2 (a.1.getD i 0) (b.1.getD i 0))).stepChain c n false)) ∧
     (16 ≤ x.ins.dst → exec (e.2.1 c) s = .next (((s.poisonRow x (k.2 || l.2)).putScalar x x.ins.dst (e.2.2 k.1 l.1)).stepChain c 16 false))) ∧
   (∀ e ∈ ternaryCommands, ∀ (s : State) (c : Fin 48) (x : ChainEnv), s.chainAt c e.1 x →
     let n := x.laneWidth [x.ins.sa, x.ins.sb, x.ins.sc]
     let a := x.lanes s n x.ins.sa
     let b := x.lanes s n x.ins.sb
     let d := x.lanes s n x.ins.sc
     let k := x.scalar s x.ins.sa
     let l := x.scalar s x.ins.sb
     let m := x.scalar s x.ins.sc
     (x.ins.dst < 16 → exec (e.2.1 c) s = .next (((s.poisonRow x (a.2 || b.2 || d.2)).putV x.c x.ins.dst
       ((List.range n).map fun i => e.2.2 (a.1.getD i 0) (b.1.getD i 0) (d.1.getD i 0))).stepChain c n false)) ∧
     (16 ≤ x.ins.dst → exec (e.2.1 c) s =
       .next (((s.poisonRow x (k.2 || l.2 || m.2)).putScalar x x.ins.dst (e.2.2 k.1 l.1 m.1)).stepChain c 16 false)))) ∧
  ((∀ e ∈ reduceCommands, ∀ (s : State) (c : Fin 48) (x : ChainEnv), s.chainAt c e.1 x →
     let a := sget [] x.r.v (x.ins.sa % 16)
     exec (e.2.1 c) s = .next ((s.putScalar x x.ins.dst (e.2.2 a)).stepChain c a.length false)) ∧
   (∀ (s : State) (c : Fin 48) (x : ChainEnv), s.chainAt c 0x38 x →
     let a := sget [] x.r.v (x.ins.sa % 16)
     let old := x.scalar s x.ins.sb
     let new := fMax old.1 (rMax a)
     let al := if old.1 = negInf32 ∨ (val32 new).eqv (val32 old.1) = true then one32 else fExp (fSub old.1 new)
     let s1 := ((s.poisonRow x old.2).putScalar x x.ins.sb new).putScalar x x.ins.dst al
     (al = one32 → exec (.osm c) s = .next (s1.stepChain c a.length false)) ∧
     (al ≠ one32 → exec (.osm c) s = .next ((s1.count48 (.vec x.c) 0x48 1).stepChain c a.length false))))

/-- Loads of the vector engine: the current row, row 0 or row POS of a port, or one element of the current row, with what the read raises; past the
rows of its port LDP gives NaN in every lane and the range error of the program. Stores of the vector engine: lanes to the current row of a port in
the instruction's format, or one element in the port's format; a poisoned operand poisons the row and what it stores. Where the spec leaves it open
this is the model's choice: assumption log, entries 48 to 51. -/
def Obligations.ChainLoadsAndStores : Prop :=
  (∀ (s : State) (c : Fin 48) (x : ChainEnv),
     let w := x.portWidth
     let col := if bitOf x.ins.mode 0 = true ∨ x.onSlot = true then 0 else x.col
     let row := if x.onSlot then x.m else x.w.i
     let first := if x.onSlot then 0 else x.col
     let rows := if x.onSlot then (x.o.run.group x.o.at_.2).length else x.tensor.rows
     (s.chainAt c 0x01 x → let l := x.load s row (col + x.ins.imm * 64) w
       exec (.ld c) s = .next ((l.2.putV x.c x.ins.dst l.1).stepChain c w false)) ∧
     (s.chainAt c 0x02 x → let l := x.load s 0 first w
       exec (.ldv c) s = .next ((l.2.putV x.c x.ins.dst l.1).stepChain c w false)) ∧
     (s.chainAt c 0x03 x → x.w.pos < rows → let l := x.load s x.w.pos first w
       exec (.ldp c) s = .next ((l.2.putV x.c x.ins.dst l.1).stepChain c w false)) ∧
     (s.chainAt c 0x03 x → rows ≤ x.w.pos →
       exec (.ldp c) s = .next (((s.rangeError x (x.base s + x.w.pos * x.tensor.rowStride) 0 (natWord x.w.pos)).putV x.c x.ins.dst
         (List.replicate w nan32)).stepChain c w false)) ∧
     (s.chainAt c 0x05 x → let l := x.load s row x.ins.imm 1
       exec (.ldq c) s = .next ((l.2.putScalar x x.ins.dst (l.1.headD 0)).stepChain c 16 false))) ∧
  (∀ (s : State) (c : Fin 48) (x : ChainEnv),
     (s.chainAt c 0x04 x →
       let a := x.lanes s x.portWidth x.ins.sa
       let n := if x.ins.imm = 0 then a.1.length else x.ins.imm
       let col := if bitOf x.ins.mode 0 = true ∨ x.onSlot = true then 0 else x.col
       let slots := if blockSize x.ins.fmt = 0 then a.1.length else 2 * a.1.length
       exec (.st c) s = .next ((x.store (s.poisonRow x a.2) col x.ins.fmt (a.1.take n)).stepChain c slots false)) ∧
     (s.chainAt c 0x06 x →
       let a := x.scalar s x.ins.sa
       exec (.stq c) s = .next ((x.store (s.poisonRow x a.2) x.ins.imm x.tensor.fmt [a.1]).stepChain c 16 false)))

/-- PERM in its two modes, and TOPK in its two orders: the best lanes with their element indices, merged with those held from earlier chunks, in two
registers. SELCNT counts its lanes in the tile's count row, STG rounds the named registers to the stage's format, and END ends the body for the chunk
or the row. -/
def Obligations.PermTopKAndSelection : Prop :=
  (∀ (s : State) (c : Fin 48) (x : ChainEnv),
     (s.chainEnv c 0x1C = some x →
       let a := x.lanes s (x.laneWidth [x.ins.sa]) x.ins.sa
       let s1 := s.poisonRow x a.2
       (x.ins.mode = 0 → exec (.permRotateHalf c) s = .next ((s1.putV c x.ins.dst (rotateHalf x.ins.imm a.1)).stepChain c a.1.length false)) ∧
       (x.ins.mode = 1 → exec (.permPairSwap c) s = .next ((s1.putV c x.ins.dst (pairSwap a.1)).stepChain c a.1.length false))) ∧
     (s.chainEnv c 0x40 = some x →
       let k := x.ins.imm % 128
       let a := sget [] x.r.v (x.ins.sa % 16)
       let own := ((List.range a.length).zip a).map fun p => (p.2, natWord (x.col + p.1))
       let merge := bitOf x.ins.mode 1
       let held := if merge && x.col != 0 then ((sget [] x.r.v (x.ins.sb % 16)).take k).zip ((sget [] x.r.v (x.ins.sc % 16)).take k) else []
       let n := if merge then 4 * (a.length + k) else 4 * a.length
       let big := topK false k (own ++ held)
       let small := topK true k (own ++ held)
       (bitOf x.ins.mode 0 = false → exec (.topkLargest c) s = .next (((s.putV c x.ins.dst (fillLanes a.length negInf32 (big.map (·.1)))).putV c
         (x.ins.dst + 1) (fillLanes a.length negOne32 (big.map (·.2)))).stepChain c n false)) ∧
       (bitOf x.ins.mode 0 = true → exec (.topkSmallest c) s = .next (((s.putV c x.ins.dst (fillLanes a.length posInf32 (small.map (·.1)))).putV c
         (x.ins.dst + 1) (fillLanes a.length negOne32 (small.map (·.2)))).stepChain c n false)))) ∧
  (∀ (s : State) (c : Fin 48) (x : ChainEnv),
     (s.chainAt c 0x41 x →
       let k := x.ins.imm % 128
       let row := x.base s + x.r.op.tile * x.tensor.rowStride
       let s1 := ((sget [] x.r.v (x.ins.sa % 16)).take k).foldl (fun s w => s.countOne x row w) s
       exec (.selcnt c) s = .next ((if s.rowPoisoned x.c then s1.poisonRange row x.tensor.elems else s1).stepChain c (16 * k) false)) ∧
     (s.chainAt c 0x70 x →
       let regs := (List.range 16).filter fun i => bitOf x.ins.imm i
       exec (.stg c) s = .next ((regs.foldl (fun s i => s.putV x.c i ((sget [] x.r.v i).map (stageLane (elemOf x.ins.fmt)))) s).stepChain c
         (regs.map fun i => (sget [] x.r.v i).length).sum false)) ∧
     (s.chainEnv c 0x7F = some x → exec (.end_ c) s = .next (s.stepChain c 0 true)))

/-- Where the engine goes after an instruction: to the next instruction of the body; at the end of a body or of a sweep to the next chunk of 256
elements; after the last chunk of the first sweep of a split chain to its second; and else to the next row. -/
def Obligations.ChainOrder : Prop :=
  ∀ (s : State) (c slots : Nat) (fin : Bool) (r : ChainRun), c < 48 → (s.core c).vec.run = some r →
    let split := r.op.prog.split
    let ends := fin = true ∨ (split ≠ 0 ∧ r.sweep = 0 ∧ r.pc + 1 = split)
    let r1 := { r with slots := r.slots + slots }
    let after := ((s.stepChain c slots fin).core c).vec.run
    (¬ends → after = some { r1 with pc := r.pc + 1 }) ∧
    (ends → r.chunk + 1 < r.chunks → after = some { r1 with chunk := r.chunk + 1, pc := if r.sweep = 0 then 0 else split, v := [] }) ∧
    (ends → r.chunks ≤ r.chunk + 1 → split ≠ 0 → r.sweep = 0 → after = some { r1 with sweep := 1, chunk := 0, pc := split, v := [] }) ∧
    (ends → r.chunks ≤ r.chunk + 1 → (split = 0 ∨ r.sweep ≠ 0) →
      ∃ r2, after = some r2 ∧ r2.row = r.row + 1 ∧ r2.v = [] ∧ (r.row + 1 < r.rows.length → r2.pc = 0 ∧ r2.chunk = 0 ∧ r2.sweep = 0))

/-! ### Streams, Mule transfers, threads and pages -/

/-- A stream starts in the lowest free stream context, with its bases anew and position zero, and issues what it can at once; a persistent one starts
again in the context it has kept. With no context free, or its own kept one still running, the thread waits on a watch of kind 2. Where the spec
leaves it open this is the model's choice: assumption log, entries 56, 178. -/
def Obligations.StreamsStart : Prop :=
  ∀ (s : State) (c : Fin 48) (u : Fin 8) (t : Fin 16) (o : OpCtx) (q : StreamRec), s.nextOp c u t = some o → o.rcd.stream? = some q →
    let start := fun (k : Nat) (es : List BlEntry) =>
      (((s.modCore c fun y => y.setStream k (s.armed c u t o q es)).advance c u t).openOp c u).runStream c k
    let mine := if q.persist then (s.core c).kept o else none
    (∀ k, mine = none → (s.core c).freeStream = some k → exec (.stream c u t) s = .next (start k (s.blockList o.run.blBase q.blOff)).settle) ∧
    (mine = none → (s.core c).freeStream = none → exec (.stream c u t) s = .next (s.register c t 2 0x3F 0 false false u).settle) ∧
    (∀ k st, mine = some (k, st) → st.running = false → exec (.stream c u t) s = .next (start k st.entries).settle) ∧
    (∀ k st, mine = some (k, st) → st.running = true → exec (.stream c u t) s = .next (s.register c t 2 k 0 false false u).settle) ∧
    (∀ es, (s.armed c u t o q es).running = true ∧ (s.armed c u t o q es).position = 0 ∧ (s.armed c u t o q es).segs = [] ∧
      (s.armed c u t o q es).tagCnt = q.tagCnt ∧ (s.armed c u t o q es).doneBar = q.doneBar)

/-- An acknowledged segment: its words are written here if it runs within the device, its tag is free, the bytes and the segment are counted, and the
stream goes on; a failure status fails the stream instead; words still to come from a peer leave it open. A stream whose oldest segment stays
unacknowledged for SEG_TIMEOUT raises a TIMEOUT record that names the remote side's address and fails with `STREAM_TIMEOUT`; a halted stream that its
fault limit meets raises one that names the page and fails with `KV_PAGE_UNAVAILABLE`. Where the spec leaves it open this is the model's choice:
assumption log, entries 56, 57, 178. -/
def Obligations.SegmentsCompleteOrTimeOut : Prop :=
  (∀ (s : State) (c : Fin 48) (k : Fin 64) (tag : Fin 256) (status : Nat) (st : StreamCtx) (g : Segment), (s.core c).stream k = some st →
     st.segs.find? (·.tag == tag.val) = some g →
     let free := fun (s : State) => s.modStream c k fun y => { y with segs := y.segs.filter (·.tag != g.tag) }
     let done := fun (s : State) => ((((free s).count48 (.str c) 0x20 (4 * g.n)).count48 (.str c) 0x28 1).runStream c k).settle
     (status ≠ St.ok → exec (.segmentAcknowledged c k tag status) s = .next (((free s).failStream c k status []).runStream c k).settle) ∧
     (status = St.ok → g.got < g.n → exec (.segmentAcknowledged c k tag status) s = .next s.settle) ∧
     (status = St.ok → g.n ≤ g.got → g.dstDev = s.devIndex → g.srcDev = s.devIndex →
       exec (.segmentAcknowledged c k tag status) s = .next (done ((s.putWords g.dstAddr g.words).noteWrote st.slot g.dstAddr (4 * g.n)))) ∧
     (status = St.ok → g.n ≤ g.got → g.dstDev = s.devIndex → g.srcDev ≠ s.devIndex →
       exec (.segmentAcknowledged c k tag status) s = .next (done (s.noteWrote st.slot g.dstAddr (4 * g.n)))) ∧
     (status = St.ok → g.n ≤ g.got → g.dstDev ≠ s.devIndex → exec (.segmentAcknowledged c k tag status) s = .next (done s))) ∧
  (∀ (s : State) (c : Fin 48) (k : Fin 64) (st : StreamCtx), (s.core c).stream k = some st →
     (∀ g rest, st.segs = g :: rest →
       let a := if g.srcDev = s.devIndex then g.dstDev * 2 ^ 48 + g.dstAddr else g.srcDev * 2 ^ 48 + g.srcAddr
       exec (.streamTimeout c k) s = .next ((((s.raiseCore c 0x11 St.clsTimeout St.streamTimeout a k).modStream c k fun y =>
         { y with segs := [] }).failStream c k St.streamTimeout []).endIfOver c k).settle) ∧
     (∀ p, st.halted = some p → exec (.faultLimit c k) s = .next (((s.raiseCore c 0x11 St.clsTimeout St.kvPageUnavailable
       (2 ^ 63 + p * frameBytes) k).failStream c k St.kvPageUnavailable []).endIfOver c k).settle))

/-- A Mule transfer takes the lowest free slot of the core, and its thread moves on. A transfer with both sides on this device is applied in issue
order with the earlier ones; the source of a COPY at a peer is first read; a refused destination fails the transfer with a CONFIG record. With no slot
free the thread waits on a watch of kind 3. A Mule transfer that has been applied is acknowledged: its slot is free, transfer and bytes are counted,
later transfers to its destination go on, its barrier is signalled and its operation of the tile is closed. One that failed fails the tile and gives
its status to the threads it wakes; one not yet applied stays. Where the spec leaves it open this is the model's choice: assumption log, entries 58,
178. -/
def Obligations.MuleTransfers : Prop :=
  (∀ e ∈ [(0, Instr.copy), (1, Instr.put32), (2, Instr.add32)], ∀ (s : State) (c : Fin 48) (u : Fin 8) (t : Fin 16) (o : OpCtx) (q : MuleRec),
     s.nextOp c u t = some o → o.rcd.mule? = some q → q.op = e.1 →
     let n := if e.1 = 0 then q.arg else 4
     let owner := ((s.ctx o.slot).map (·.id)).getD 0xFFFF
     let srcA := o.base s c q.srcT + q.srcStep * o.stepIdx q.stepLoop
     let dstA := o.base s c q.dstT + q.dstStep * o.stepIdx q.stepLoop
     let src := (s.place c owner (o.tensor q.srcT).tier false srcA n).1
     let dst := (s.place c owner (o.tensor q.dstT).tier true dstA n).1
     let s1 := (s.advance c u t).openOp c u
     let add := fun (s : State) (i : Nat) (m : MuleSlot) => s.modCore c fun x => { x with mules := x.mules ++ [(i, m)] }
     let go := fun (d : Nat) (s : State) => (State.sendMules c d (s.core c).mules s).settle
     ((∀ i < 16, ((s.core c).mule i).isSome) → exec (e.2 c u t) s = .next (s.register c t 3 0x3F 0 false false u).settle) ∧
     (∀ i, (List.range 16).find? (fun i => ((s.core c).mule i).isNone) = some i →
       (∀ b, dst = .here b → e.1 ≠ 0 → exec (e.2 c u t) s =
         .next (go s.devIndex (add s1 i ⟨t, u, e.1, q.doneBar, 0, s.devIndex, b, [⟨BitVec.ofNat 32 q.arg, false⟩], 0, false, none⟩))) ∧
       (∀ d b, dst = .peer d b → e.1 ≠ 0 → exec (e.2 c u t) s =
         .next (go d (add s1 i ⟨t, u, e.1, q.doneBar, 0, d, b, [⟨BitVec.ofNat 32 q.arg, false⟩], 0, false, none⟩))) ∧
       (∀ a b, src = .here a → dst = .here b → e.1 = 0 →
         let s2 := (s1.noteWords (unitOfAddr a) (islandOfAddr a) a (n / 4) (s.coreCtx c)).taintTile c u (s.poisonAddrs a (n / 4))
         exec (e.2 c u t) s = .next (go s.devIndex (add s2 i ⟨t, u, 0, q.doneBar, 0, s.devIndex, b, s.peekWords a (n / 4), 0, false, none⟩))) ∧
       (∀ d a b, src = .peer d a → dst = .here b → e.1 = 0 → exec (e.2 c u t) s =
         .next ((add s1 i ⟨t, u, 0, q.doneBar, a, s.devIndex, b, [], n / 4, false, none⟩).sendFlit none false
           (s.readFlit 3 d a (n / 4) (i + 256 * c.val) b)).settle) ∧
       (∀ st, dst = .fails st → e.1 ≠ 0 → exec (e.2 c u t) s =
         .next (((add s1 i ⟨t, u, e.1, q.doneBar, 0, s.devIndex, 0, [], 0, false, some st⟩).refusedRec c 0x11 st dstA).ror (.str c) 4 8).settle))) ∧
  (∀ (s : State) (c : Fin 48) (i : Fin 16) (status : Nat) (m : MuleSlot), (s.core c).mule i = some m →
     let s1 := s.modCore c fun x => { x with mules := x.mules.filter (·.1 != i.val) }
     let after := fun (s2 : State) (f : Option Nat) =>
       ((((State.sendMules c m.dstDev (s2.core c).mules s2).signalDone c m.doneBar f).wakeFor c 3 0x3F).closeOp c m.unit).settle
     let s2 := (s1.count48 (.str c) 0x48 1).count48 (.str c) 0x20 (4 * m.words.length)
     (status = St.ok → m.failed = none → m.sent = false → exec (.muleComplete c i status) s = .next s.settle) ∧
     (status = St.ok → m.failed = none → m.sent = true → m.dstDev ≠ s.devIndex → exec (.muleComplete c i status) s = .next (after s2 none)) ∧
     (status = St.ok → m.failed = none → m.sent = true → m.dstDev = s.devIndex → exec (.muleComplete c i status) s =
       .next (after (s2.noteWrote ((s1.coreSlot c).getD 4) m.dstAddr (4 * m.words.length)) none)) ∧
     (∀ f, status = St.ok → m.failed = some f →
       exec (.muleComplete c i status) s = .next (after ((s1.ror (.str c) 4 8).failTile c m.unit f) (some f))) ∧
     (status ≠ St.ok → exec (.muleComplete c i status) s = .next (after ((s1.ror (.str c) 4 8).failTile c m.unit status) (some status))))

/-- ADD32 adds to the word as read modulo 2³², and the word stays poisoned, or becomes so, if it was or the addend is; PUT32 replaces it. Both act on
one aligned word of a buffer and on no other, and so does a thread's store of an aligned word. -/
def Obligations.WordUpdatesAreLocal : Prop :=
  ∀ (s : State) (c d a b : Nat) (w : PWord), s.canonical → c < 48 → regionOf a = .opBuf d → a % 4 = 0 → b % 4 = 0 →
    let old := s.mem.deliver a
    let s1 := s.threadStore c a (leBytes 4 w.bits.toNat)
    (s.applyWord false a w).mem.deliver a = w ∧
    (s.applyWord true a w).mem.deliver a = ⟨old.bits + w.bits, old.poison || w.poison⟩ ∧
    s1.mem.deliver a = ⟨w.bits, false⟩ ∧
    (b ≠ a → (∀ add, (s.applyWord add a w).mem.deliver b = s.mem.deliver b) ∧ s1.mem.deliver b = s.mem.deliver b)

/-- A thread's load: a refused address raises its record, taints the core's tiles and delivers poisoned zeros; a register delivers its value; words of
memory within one cache line are delivered through the read cache or straight from memory. A thread's store: a refused address raises its record and
stores nothing; register space takes a register write; memory here takes the bytes, and a cached line that holds them is updated; a peer is sent them
as WRITE flits on VC3. Where the spec leaves it open this is the model's choice: assumption log, entries 59 to 61, 178. -/
def Obligations.ThreadLoadsAndStores : Prop :=
  (∀ (s : State) (c : Fin 48) (t : Fin 16) (a bytes : Nat) (tp : Bool),
     let n := wordsOver a bytes
     (∀ st, s.threadRefusal false a = some st → exec (.threadLoad c t a bytes tp) s =
       .next (((s.threadRefused c t st a).taintAll c [a]).emit (.loaded c t (List.replicate n ⟨0, true⟩)))) ∧
     (s.threadRefusal false a = none → regionOf (a % 2 ^ 48) = .reg → bytes = 4 → exec (.threadLoad c t a bytes tp) s =
       .next ((s.regRead (.thread c t) (a % 2 ^ 48)).2.emit (.loaded c t [⟨(s.regRead (.thread c t) (a % 2 ^ 48)).1, false⟩]))) ∧
     (s.threadRefusal false a = none → regionOf (a % 2 ^ 48) ≠ .reg → 0 < n → n ≤ 16 - a / 4 * 4 % 64 / 4 →
       let p := s.loadPiece c (a / 4 * 4) n tp
       exec (.threadLoad c t a bytes tp) s = .next (p.2.emit (.loaded c t p.1))) ∧
     (a < 2 ^ 48 → cacheable a = false → (s.loadPiece c a n tp).1 = s.peekWords a n) ∧
     (∀ l, a < 2 ^ 48 → cacheable a = true → tp = false → bitOf (s.rforce (.cbuf c) 8).toNat 0 = true → (s.core c).line (a / 64 * 64) = some l →
       (s.loadPiece c a n tp).1 = (List.range n).map fun i => l.deliver ((a - a / 64 * 64) / 4 + i))) ∧
  (∀ (s : State) (c : Fin 48) (t : Fin 16) (a : Nat) (data : List Byte),
     (∀ st, s.threadRefusal true a = some st → exec (.threadStore c t a data) s = .next (s.threadRefused c t st a)) ∧
     (s.threadRefusal true a = none → regionOf (a % 2 ^ 48) = .reg → exec (.threadStore c t a data) s =
       .next (s.regWrite (.thread c t) (a % 2 ^ 48) data.length (BitVec.ofNat 32 (leNat data))).settle) ∧
     (s.threadRefusal true a = none → regionOf (a % 2 ^ 48) ≠ .reg → (a < 2 ^ 48 ∨ a / 2 ^ 48 % 64 = s.devIndex) →
       let s1 := s.putBytes (unitOfAddr (a % 2 ^ 48)) (islandOfAddr (a % 2 ^ 48)) (a % 2 ^ 48) data
       (s1.core c).line (a / 64 * 64) = none → exec (.threadStore c t a data) s = .next s1) ∧
     (s.threadRefusal true a = none → regionOf (a % 2 ^ 48) ≠ .reg → 2 ^ 48 ≤ a → a / 2 ^ 48 % 64 ≠ s.devIndex →
       let ws := (List.range (ceilDiv data.length 4)).map fun i => (⟨BitVec.ofNat 32 (leAt data (4 * i) 4), false⟩ : PWord)
       exec (.threadStore c t a data) s =
         .next (s.sendFlits false (wordFlits 1 3 (a / 2 ^ 48 % 64) s.devIndex (0xFF + 256 * c.val) 0 (ws.length + 1) (a % 2 ^ 48) ws))))

/-- The fault of a halted stream is served once for its page: with a frame, the entry is set to being fetched and the page asked of the host or the
peer that holds it; with none, every stream halted on the page fails. A page already being fetched, or an entry that is not away, is waited for. A
fetched page that is complete becomes resident and read-only, and every stream halted on it goes on; a repeated request goes out for a host page that
has not come; `STR_RESUME` lets a halted stream go on and is rejected for another. Where the spec leaves it open this is the model's choice:
assumption log, entries 63 to 65, 178. -/
def Obligations.PageFaultsAndPages : Prop :=
  (∀ (s : State) (c : Fin 48) (k : Fin 64) (st : StreamCtx) (p : Nat), (s.core c).stream k = some st → st.halted = some p →
     let e := (s.pte p).1
     let frame := ((s.ctx st.slot).bind fun x => s.image x.image).bind fun g => s.takeFrame g p
     let handle := ((s.svc.hostPages.find? fun h => h.1 == p && h.2.2 == pteOwner e).map (·.2.1)).getD 0
     let f := fun a => (⟨p, pteOwner e, pteSt e == 4, pteDev e, pteFrame e, handle, a, [], false, [(c.val, k.val)]⟩ : PageFetch)
     let s1 := fun a => (s.setPte p (mkPte 5 false (pteOwner e) a (pteDev e))).modSvc fun v => { v with fetches := v.fetches ++ [f a] }
     (((s.fetch p).isSome ∨ (pteSt e ≠ 3 ∧ pteSt e ≠ 4)) → exec (.pageFault c k) s = .next s.settle) ∧
     (s.fetch p = none → (pteSt e = 3 ∨ pteSt e = 4) → frame = none → exec (.pageFault c k) s = .next (s.failWaiters p).settle) ∧
     (∀ a, s.fetch p = none → pteSt e = 4 → frame = some a → exec (.pageFault c k) s = .next ((s1 a).askHost (f a)).settle) ∧
     (∀ a, s.fetch p = none → pteSt e = 3 → frame = some a → exec (.pageFault c k) s = .next ((s1 a).askPeer (f a)).settle)) ∧
  ((∀ (s : State) (p : Nat) (data : List PWord) (f : PageFetch), s.fetch p = some f →
     (f.ready = true → exec (.pageFetchComplete p data) s = .next s) ∧
     (f.ready = false →
       let s0 := s.putWords f.frame (data.take 524288)
       ∀ g, s0.fetch p = some g → g.ready = false →
       let s1 := (s0.modFetch p fun x => { x with ready := true, waiters := [] }).setPte p
         (mkPte (if regionOf g.frame = .lpddr then 2 else 1) true g.owner g.frame 0)
       exec (.pageFetchComplete p data) s = .next ((s1.haltedOn p).foldl (fun s e => s.strResume e.1 e.2) s1).settle) ∧
     (f.host = true → f.ready = false → exec (.kvPageRequest p) s = .next (s.notices 0x0040 St.ok
       (beBytes 8 f.handle ++ beBytes 4 f.page ++ [BitVec.ofNat 8 s.devIndex, 0, 0, 0]))) ∧
     ((f.host = false ∨ f.ready = true) → exec (.kvPageRequest p) s = .next s)) ∧
   (∀ (s : State) (by_ : Agent) (c : Fin 48) (k : Fin 64), s.mayWrite by_ (.str c) = true →
     (∀ p, ((s.core c).stream k).bind (·.halted) = some p → exec (.strResume by_ c k) s = .next (s.resumeStream c k).settle) ∧
     (((s.core c).stream k).bind (·.halted) = none → exec (.strResume by_ c k) s = .next (s.reject (.str c)).settle)))

/-! ### Power and errors -/

/-- Leave: a core to which the active context's block gives a program asks with the program's class and the context's priority, and its thread 0 waits
on a watch of kind 8; a core that has lent its grant and has something to issue again asks as a returning one. The request at the head of the order is
granted when the budget allows, and waits otherwise; nothing passes it. Head of the order is the lowest priority number, then a returning request,
then the one that came first. Where the spec leaves it open this is the model's choice: assumption log, entry 140. -/
def Obligations.LeaveIsGrantedInOrder : Prop :=
  (∀ (s : State) (c : Fin 48) (k : Nat) (x : Ctx) (r : ProgRun), s.leaveCtx = some (k, x, r) → (s.core c).fenced = false →
    (s.core c).selfTest = false → (∀ q ∈ s.pwr.queue, q.core ≠ c.val) →
    let ask := fun (s : State) (ret : Bool) => ({ s with pwr := { s.pwr with queue := s.pwr.queue ++
      [⟨c, r.prog.actClass + 1, x.cls, ret, k⟩] } } : State).noteReasons
    ((s.core c).run = none → r.inBlock = true → c.val ∉ r.arrived → exec (.leaveRequest c) s =
      .next (ask ((s.setCore c { s.core c with owner := x.id }).register c 0 8 0 0 false false 8) false)) ∧
    (∀ j, (s.core c).run = some (k, j) → (s.core c).lent = true → s.coreIssuing c = true → exec (.leaveRequest c) s =
      .next (ask ((s.leaveThreads c).foldl (fun s t => s.register c t 8 0 0 false false 8) s) true))) ∧
  (∀ s : State, s.pwr.queue = [] → exec .leaveGrant s = .next s) ∧
  (∀ (s : State) (q : LeaveReq), headReq s.pwr.queue = some q →
    (s.admits q.core q.cls = true → s.brd.thermtrip = false → exec .leaveGrant s = .next (s.noteReasons.giveLeave q).noteReasons) ∧
    (s.admits q.core q.cls = false ∨ s.brd.thermtrip = true → exec .leaveGrant s = .next s)) ∧
  (∀ (l : List LeaveReq) (q : LeaveReq), headReq l = some q →
    ∃ a b, l = a ++ q :: b ∧ (∀ p ∈ a, q.before p = true) ∧ ∀ p ∈ b, p.before q = false)

/-- The boundary of an evaluation window: energy, burst reserve and mismatch of the window that ends and the telemetry of its end; then the registers
that take effect now, the thermal and rail terms, the share, the limit and one step of the operating point; then demotion if the budget no longer
fits, or restoration if the limit has risen and the device is not hot. The limit is the lowest of its terms, but at least 500 W and at most 1,400 W.
Where the spec leaves it open this is the model's choice: assumption log, entries 133 to 138. -/
def Obligations.EvaluationWindows : Prop :=
  (∀ (s : State) (w : Window), s.brd.booted = true →
    let s2 := s.windowEnd w
    let s3 := s2.windowStart w
    (s3.limit * wattUnit < s3.pb → exec (.evaluationWindow w) s = .next (State.demote 200 s3).noteReasons) ∧
    (s3.pb ≤ s3.limit * wattUnit → s2.limit < s3.limit → s3.pwr.hot = false →
      exec (.evaluationWindow w) s = .next (State.restore 200 s3).noteReasons) ∧
    (s3.pb ≤ s3.limit * wattUnit → s3.limit ≤ s2.limit ∨ s3.pwr.hot = true → exec (.evaluationWindow w) s = .next s3.noteReasons)) ∧
  (∀ (s : State) (w : Window),
    let s1 := ((s.addEnergy w).burstEnd w).compareEnd w
    s.windowEnd w = { s1 with pwr := { s1.pwr with telemetry := some s1.telemetryNow } } ∧
      s.windowStart w = ((((s.takeRw (.pwr 0)).thermalTerm w.mean).railTerm w).takeShare.takeLimit).movePoint) ∧
  (∀ s : State, s.regsWf → 500 ≤ s.takeLimit.limit ∧ s.takeLimit.limit ≤ 1400 ∧
    (∀ e ∈ s.limitTerms, s.takeLimit.limit ≤ max e.2 500) ∧ (s.takeLimit.limit = 500 ∨ ∃ e ∈ s.limitTerms, s.takeLimit.limit = e.2)) ∧
  (∀ (t mean : Nat), stepTerm (some t) true true false mean = (some (max (t - 25) 500), true) ∧
    stepTerm (some t) false true false mean = (some (max (mean - 25) 500), true) ∧
    (t + 25 < 1400 → stepTerm (some t) true false true mean = (some (t + 25), false)) ∧
    (1400 ≤ t + 25 → stepTerm (some t) true false true mean = (none, false)))

/-- The clocks follow a raised rail once it has settled. A hot junction: the hottest sensor is shown; from 115 °C the device trips and everything on
it stops; from 105 °C it is recorded and every grant goes to the lowest class, until it falls below 100 °C. A droop makes its core stretch its clock,
until the supply is back after 256 cycles or more, which are counted. Recalibration, for a device under mismatch budgeting that has been IDLE for 10
ms, writes U and `SCALE` and ends mismatch budgeting. The margin trim: the margins of the cores in service are shown, with the core of the lowest.
Below zero the rail goes up by one step of the trim, and with no trim left the cores below zero are fenced; with two steps of margin on every core the
rail goes down by one, as far as the trim allows. Where the spec leaves it open this is the model's choice: assumption log, entries 139, 144, 145,
178. -/
def Obligations.RailsMarginsAndTemperatures : Prop :=
  (∀ s : State,
     (∀ p, s.pwr.target = some p → exec .railSettled s = .next { s.setClock p with pwr := { s.pwr with target := none } }) ∧
     (∀ tj : List Nat, s.brd.booted = true →
       let top := tj.foldl max 0
       let s1 := (s.rput (.pwr 0) 0x30 0 10 top).rput (.pwr 0) 0x30 10 7 (tj.findIdx (· == top))
       let s2 := (List.range 48).foldl (fun s c => s.rput (.core c) 0x20 0 10 (tj.getD c 0)) s1
       (top < 420 → s.pwr.hot = false → exec (.tjSample tj) s = .next s2) ∧
       (400 ≤ top → top < 420 → exec (.tjSample tj) s = .next s2) ∧
       (420 ≤ top → top < 460 → s2.pwr.hot = true → exec (.tjSample tj) s =
         .next ({ s2 with pwr := { s2.pwr with hot := true } } : State).allToA0.noteReasons) ∧
       (420 ≤ top → top < 460 → s2.pwr.hot = false →
         let s3 := s2.raise St.islAon (s2.newRec St.clsThermal 0 unitPwr 0 0)
         exec (.tjSample tj) s = .next ({ s3 with pwr := { s3.pwr with hot := true } } : State).allToA0.noteReasons) ∧
       (top < 400 → s2.pwr.hot = true → exec (.tjSample tj) s =
         .next (State.restore 200 { s2 with pwr := { s2.pwr with hot := false } }).noteReasons) ∧
       (460 ≤ top → exec (.tjSample tj) s = .next s2.trip) ∧ s2.pwr = s.pwr) ∧
     (s.trip.brd.thermtrip = true ∧ s.trip.brd.booted = false ∧ (∀ k, s.trip.ctx k = none) ∧ ∀ p : Fin 8, s.trip.links.ports[p].st = .down) ∧
     (∀ c : Fin 48,
       ((s.core c).fenced = false → exec (.droop c) s = .next (s.setCore c { s.core c with stretching := true }).noteReasons) ∧
       (∀ n, 256 ≤ n → (s.core c).stretching = true →
         exec (.droopRecovery c n) s = .next ((s.setCore c { s.core c with stretching := false }).count48 (.core c) 0x28 n))) ∧
     (∀ u m e : Nat, s.mismatched = true → s.rfield (.pwr 0) 4 1 2 = 1 → s.pwr.idleAt + 1000000 ≤ s.aonClk →
       exec (.recalibration u m e) s =
         .next ((s.rput (.pwr 0) 0x14 0 11 u).pwrCal (BitVec.ofNat 32 (min (max (1024 * m / e) 820) 1536))))) ∧
  (∀ (s : State) (ms : List Int) (a : Nat) (rest : List Nat), s.brd.booted = true → s.dozing = false → s.liveCores = a :: rest →
     let m := fun (c : Nat) => ms.getD c 0
     let worst := rest.foldl (fun b c => if m c < m b then c else b) a
     let s1 := (a :: rest).foldl (fun s c => s.rput (.core c) 0x24 0 8 (m c % 256).toNat) s
     let s2 := s1.rput (.pwr 0) 0x2C 8 6 worst
     let t := s2.rfield (.pwr 0) 0x2C 0 8
     let p := s2.pwr.target.getD s2.point
     (m worst < 0 → t ≠ 0 → exec (.marginTrim ms) s = .next ((s2.rput (.pwr 0) 0x2C 0 8 (t - 5)).setRail p).settle) ∧
     (m worst < 0 → t = 0 → exec (.marginTrim ms) s =
       .next (((a :: rest).filter fun c => m c < 0).foldl (fun s c => s.fenceUnit c 3) s2).settle) ∧
     ((∀ c ∈ a :: rest, 2 ≤ m c) → t < 100 → exec (.marginTrim ms) s = .next ((s2.rput (.pwr 0) 0x2C 0 8 (t + 5)).setRail p).settle) ∧
     (0 ≤ m worst → (100 ≤ t ∨ ∃ c ∈ a :: rest, m c < 2) → exec (.marginTrim ms) s = .next s2.settle))

/-- A device that has started no command for 100 µs is IDLE. After `DOZE_DELAY` the head of a group that has nothing under way tells every member and
goes into DOZE: the Ethernet port goes down, and every core's buffers, accumulators and cache are lost. At the end of a shift period each member gives
the head its slack and S. The messages of power: the head takes a SHIFT_REPORT, and a member its own word of a SHIFT_SET; a member goes into DOZE with
the head, and every member wakes. Where the spec leaves it open this is the model's choice: assumption log, entries 138, 141 to 143. -/
def Obligations.IdleDozeAndShift : Prop :=
  (∀ s : State,
     (s.brd.booted = true → s.rfield (.pwr 0) 4 1 2 = 0 → (∀ k < 4, s.ctx k = none) → s.pwr.idleFrom + 10000 ≤ s.aonClk →
       exec .idleEntry s = .next { s.rput (.pwr 0) 4 1 2 1 with pwr := { s.pwr with idleAt := s.aonClk } }) ∧
     (let w := (s.rforce (.pwr 0) 8).toNat
      s.isHead = true → s.grp.formed = true → bitOf w 3 = true → s.dozeFree = true → s.dozing = false →
       s.pwr.idleFrom + max (field w 8 8) 1 * 1000000 ≤ s.aonClk → exec .dozeDelay s = .next (s.broadcast 0x12 []).dozeHere) ∧
     (s.dozing = false → (∀ k < 4, s.ctx k = none) →
       let s1 := (((List.range 8).foldl (fun s p => s.wantColt p) s).rput (.pwr 0) 4 1 2 2).rput (.eth 0) 4 1 2 0
       s.dozeHere = { s1 with cores := s1.cores.map CoreState.gated, mem := s1.mem.noBuffers } ∧
         (∀ c b, regionOf b = .opBuf c ∨ regionOf b = .accum c → s.dozeHere.mem.byte b = 0)) ∧
     (s.grp.formed = true → s.grp.headLost = false →
       let s1 : State := { s with pwr := { s.pwr with slack := 0 } }
       let own := s.rfield (.pwr 0) 0x10 16 11
       (s.isHead = true → exec .shiftPeriod s = .next (s1.takeReport s.devIndex s.pwr.slack own)) ∧
       (s.isHead = false → exec .shiftPeriod s = .next (s1.sendSync s.grp.head 0x10 (words64 s.pwr.slack ++ [BitVec.ofNat 32 own]))))) ∧
  (∀ (s : State) (m : SyncMsg) (t : State),
     (s.syncActs m 0x10 = some t → t.isHead = true → t.grp.formed = true →
       exec (.shiftReport m) s = .next (State.syncOver (t.takeReport m.src (m.at64 0) (m.at_ 2 % 2 ^ 11)) m)) ∧
     (s.syncActs m 0x11 = some t → t.follows = true →
       let i := ((List.range t.devIndex).filter t.memberMask.testBit).length
       exec (.shiftSet m) s = .next (State.syncOver { t with pwr := { t.pwr with newS := some (m.at_ i % 2 ^ 11) } } m)) ∧
     (s.syncActs m 0x12 = some t → t.follows = true → exec (.doze m) s = .next (t.dozeHere.syncOver m)) ∧
     (s.syncActs m 0x13 = some t → exec (.wake m) s = .next (t.wakeHere.syncOver m)))

/-- The aggregator drains the oldest record of an island: an accusation goes to the head, which merges it; any other record is stored with the next
`RSEQ`, or lost where the log has no room for it; then units that have met a trigger are fenced. Storing puts the record at the end of the log. A
patrol step reads its words with the patrol's mark; a package's MR4 field is kept. Where the spec leaves it open this is the model's choice:
assumption log, entries 122 to 126, 178. -/
def Obligations.ErrorsAreDrained : Prop :=
  (∀ (s : State) (i : Fin 71), (s.errQueue i).entries = [] → exec (.errorDrain i) s = .next s.settle) ∧
  (∀ (s : State) (i : Fin 71) (r : ErrRec) (rest : List ErrRec), (s.errQueue i).entries = r :: rest →
    let s1 := s.setErrQueue i { s.errQueue i with entries := rest }
    let told := s.grp.formed = true ∧ s.grp.headLost = false ∧ s.grp.left = false
    (s.accused r = none ∨ ¬told → exec (.errorDrain i) s = .next (s1.storeRec i r).fenceGo.settle) ∧
    (∀ a, s.accused r = some a → told → s.isHead = true → exec (.errorDrain i) s = .next (s1.mergeAccusation r a).fenceGo.settle) ∧
    (∀ a, s.accused r = some a → told → s.isHead = false →
      exec (.errorDrain i) s = .next ((s1.toHead 0xB r.words).count48 .err 0x58 1).fenceGo.settle)) ∧
  (∀ (s : State) (i : Nat) (r : ErrRec) (l : List LogSlot), logRoom s.err.log r.cls = some l →
    ∃ a e, (s.storeRec i r).err.log = l ++ [⟨{ r with rseq := s.err.nextSeq, action := a, escal := e }, false⟩] ∧
      (s.storeRec i r).err.nextSeq = (s.err.nextSeq + 1) % 2 ^ 48) ∧
  (∀ (l : List LogSlot) (cls : Nat),
    (l.length < 1024 → logRoom l cls = some l) ∧
    (1024 ≤ l.length → (∃ e ∈ l, e.acked = true) → logRoom l cls = some (l.eraseP (·.acked))) ∧
    (1024 ≤ l.length → (∀ e ∈ l, e.acked = false) → (∃ e ∈ l, e.recd.cls = St.clsCe) → cls ≠ St.clsCe →
      logRoom l cls = some (l.eraseP (·.recd.cls == St.clsCe))) ∧
    (1024 ≤ l.length → (∀ e ∈ l, e.acked = false) → (cls = St.clsCe ∨ ∀ e ∈ l, e.recd.cls ≠ St.clsCe) → logRoom l cls = none)) ∧
  (∀ (s : State) (a n : Nat), s.brd.booted = true → s.dozing = false → exec (.patrolScrub a n) s = .next (s.patrol a n).settle) ∧
  (∀ (s : State) (a : Nat) (p : Page), a % 4 = 0 → scrubPage a = some p → bitOf ((s.takeRw p).rforce p 8).toNat 0 = true →
    s.mem.kind a ≠ .bad → s.patrol a 1 = (s.takeRw p).noteWord (unitOfAddr a) (islandOfAddr a) a 1) ∧
  (∀ (s : State) (pk : Fin 10) (r : Fin 32), exec (.refreshIntervalChange pk r) s = .next (s.refreshRate pk r) ∧
    (s.refreshRate pk r).brd.rates = s.brd.rates.filter (·.1 != pk.val) ++ [(pk.val, r.val)])

/-! ### SYNC messages and the group -/

/-- A SYNC message over a port that is not up, or out of sequence, or over an Ethernet dimension while the port is down, does not act: out of sequence
it is discarded, with a NAK for the first one. A message for another device is forwarded over the dimension that routing gives, with its source; that
of the head is noted. Where the spec leaves it open this is the model's choice: assumption log, entries 71, 92, 178. -/
def Obligations.SyncMessagesArrive : Prop :=
  ∀ e ∈ syncCommands, ∀ (s : State) (m : SyncMsg),
    let p := m.via.val
    (p < 8 → (s.port p).up = false → exec (e.2 m) s = .next s.settle) ∧
    (p < 8 → (s.port p).up = true → m.tr.seq ≠ ((s.takeTrailer p m.tr).port p).rxNext →
      exec (e.2 m) s = .next ((s.takeTrailer p m.tr).discard p).settle) ∧
    (8 ≤ p → s.ethUp = false → exec (e.2 m) s = .next s) ∧
    (∀ s1, s.syncTaken m = some s1 → m.dst ≠ s1.devIndex →
      let s2 : State := if s1.grp.formed = true ∧ m.src = s1.grp.head then { s1 with grp := { s1.grp with headSeen := s1.aonClk } } else s1
      let from_ := if p < 8 then p / 2 else p - 4
      exec (e.2 m) s = .next (State.syncOver ((s2.syncFlits m.dst e.1 (m.bcast.map (·.val)) m.words).foldl
        (fun s f => s.sendFlit (some from_) false { f with src := m.src }) s2) m)) ∧
    (∀ s1, s.syncTaken m = some s1 → s1.grp.formed = true → m.src = s1.grp.head → m.dst = s1.devIndex → m.bcast = none → e.1 = 2 →
      exec (e.2 m) s = .next (State.syncOver { s1 with grp := { s1.grp with headSeen := s1.aonClk } } m))

/-- Members follow the head's sequence of commands: the next one is applied, with the held ones behind it; one ahead of a gap is held; one already
applied is dropped. The head takes a member's DONE and its route digest; a member takes a first token, and keys whose tag verified. The head beats: it
broadcasts its last sequence number and its clock. A member that has not heard it for 16 ms, has no path to it, or has its own news that it leaves
declares it lost: every context is reset and ends, the sessions are told and end, and the device serves no more. Where the spec leaves it open this is
the model's choice: assumption log, entries 116, 120, 121, 178. -/
def Obligations.CommandsAreSequencedUnderAHead : Prop :=
  (∀ (s : State) (m : SyncMsg) (t : State),
     (∀ ok, s.syncActs m 1 = some t →
       let g := (m.words.getD 0 0).toNat
       let d := (g + 2 ^ 32 - t.grp.lastGseq) % 2 ^ 32
       (t.follows = true → d = 1 → exec (.command m ok) s =
         .next (State.syncOver (State.applyHeld (t.applyWords m.words ok).svc.held.length (t.applyWords m.words ok)) m)) ∧
       (t.follows = true → 1 < d → d < 2 ^ 31 → (∀ e ∈ t.svc.held, e.1 ≠ g) → exec (.command m ok) s =
         .next (State.syncOver { t with svc := { t.svc with held := t.svc.held ++ [(g, b01 ok, m.words)] } } m)) ∧
       (t.follows = false ∨ d = 0 ∨ 2 ^ 31 ≤ d → exec (.command m ok) s = .next (t.syncOver m))) ∧
     (s.syncActs m 0xC = some t → exec (.done m) s =
       .next (State.syncOver (t.takeDone m.src (m.at_ 0) (m.at_ 1 % 2 ^ 16) (bitOf (m.at_ 2) 0)) m)) ∧
     (s.syncActs m 0xD = some t → t.follows = true → exec (.firstToken m) s =
       .next (State.syncOver (t.takeToken (m.at_ 0) (m.at_ 1) (m.words.getD 2 0)) m)) ∧
     (s.syncActs m 0xE = some t → t.isHead = true → exec (.routeDigest m) s =
       .next (State.syncOver (t.takeDigest (m.at_ 0) (m.at_ 1 % 2 ^ 7) m.src (m.at_ 2)) m)) ∧
     (∀ ok, s.syncActs m 0xF = some t →
       (t.follows = true → ok = true → exec (.keyWrap m ok) s =
         .next (State.syncOver (t.keepSession (m.at_ 0) (Config.unwrapKeys (m.words.drop 1))) m)) ∧
       (t.follows = false ∨ ok = false → exec (.keyWrap m ok) s = .next (t.syncOver m)))) ∧
  ((∀ s : State, s.grp.formed = true → s.isHead = true → s.grp.headLost = false →
     exec .heartbeatPeriod s = .next (s.broadcast 2 [BitVec.ofNat 32 s.grp.lastGseq, BitVec.ofNat 32 s.aonClk])) ∧
   (∀ (s : State) (cause : HeadLoss), s.grp.formed = true →
     (s.headSilent cause = true → exec (.headLost cause) s = .next s.headGone.settle) ∧
     (s.headSilent cause = false → exec (.headLost cause) s = .next s)) ∧
   (∀ s : State, s.headSilent .silent = true ↔ s.isHead = false ∧ s.grp.headSeen + 1600000 ≤ s.aonClk) ∧
   (∀ s : State, s.grp.headLost = false → s.headGone.grp.headLost = true ∧ (∀ k, s.headGone.ctx k = none) ∧ s.headGone.svc.sessions = []))

/-- A group barrier at which every local arrival has come: it is carried over its dimensions in order; once the message of the barrier's generation
has come over each of them it releases, with the next generation, and only the messages that it used are gone; while one is missing it stays. -/
def Obligations.GroupBarriersRelease : Prop :=
  ∀ (s : State) (g : Nat), g < 64 →
    let b := s.gbar g
    b.st = .open → b.own = false → b.sent = 0 → b.done = 0 → b.localParts ≤ b.arrived → b.dims < 64 →
    let t := (s.gStep g).1
    ((∀ k < 6, b.dims.testBit k = true → (b.key, k) ∈ b.msgs) →
      (s.gStep g).2 = true ∧ (t.gbar g).gen = (b.gen + 1) % 65536 ∧ (t.gbar g).arrived = 0 ∧ (t.gbar g).done = 0 ∧ (t.gbar g).sent = 0 ∧
        (t.gbar g).waiters = [] ∧ (t.gbar g).own = false ∧
        (t.gbar g).msgs = b.msgs.filter fun e => !(e.1 == b.key && b.dims.testBit e.2 && decide (e.2 < 6))) ∧
    (∀ k < 6, b.dims.testBit k = true → (b.key, k) ∉ b.msgs → (s.gStep g).2 = false ∧ (t.gbar g).gen = b.gen ∧ (t.gbar g).waiters = b.waiters) ∧
    ∀ h < 64, h ≠ g → t.gbar h = s.gbar h

/-- The messages of barriers and of the routers: an ARRIVE is held for its barrier, which goes as far as it can; a request for a place is given a free
slot or waits; a grant sends the segment that waits for it; an ABORT is held, and stops an operation launched here; FREEZE and THAW suspend and resume
the timer of an operation for their sender. Where the spec leaves it open this is the model's choice: assumption log, entries 36, 89. -/
def Obligations.FabricMessagesAct : Prop :=
  ∀ (s : State) (m : SyncMsg) (t : State),
    (s.syncActs m 3 = some t →
      let g := field (m.at_ 0) 0 6
      let b := t.gbar g
      let e := (field (m.at_ 1) 0 16 + 65536 * field (m.at_ 1) 16 16, field (m.at_ 0) 6 3)
      exec (.arrive m) s = .next (State.syncOver (noteEnd g ((t.setGbar g
        { b with msgs := if b.msgs.contains e then b.msgs else b.msgs ++ [e] }).gStep g)) m)) ∧
    (s.syncActs m 4 = some t → t.tagStopped (m.at_ 0) = false → t.slotOf (tagPort (m.at_ 0)) (m.at_ 0) = none →
      (∀ a, t.freeSlot (tagPort (m.at_ 0)) (field (m.at_ 0) 0 2) = some a → exec (.grantReq m) s =
        .next (State.syncOver (t.grantSlot a (tagPort (m.at_ 0)) m.src (m.at_ 0) (m.at_ 2)) m)) ∧
      (t.freeSlot (tagPort (m.at_ 0)) (field (m.at_ 0) 0 2) = none → exec (.grantReq m) s = .next (State.syncOver { t with links := { t.links with
        grants := t.links.grants ++ [⟨tagPort (m.at_ 0), m.src, m.at_ 0, m.at_ 2⟩] } } m))) ∧
    (∀ w, s.syncActs m 5 = some t → t.links.sends.find? (fun w => w.tag == m.at_ 0 && w.dst == m.src) = some w →
      let t1 : State := { t with links := { t.links with sends := t.links.sends.filter (· != w) } }
      exec (.grant m) s = .next (State.syncOver ((reduceFlits m.src t1.devIndex w.port (m.at_ 0) (m.at_ 1 % 32) (w.words.length + 1) 0 w.words).foldl
        (fun s f => s.sendOver (field (m.at_ 0) 9 3) (w.port % 2 == 1) f) t1) m)) ∧
    (s.syncActs m 6 = some t → t.grp.formed = true →
      let w := m.at_ 2
      let t1 := t.noteAbort ⟨m.at64 0, field w 0 6, if bitOf w 14 then some (field w 8 6) else none, field w 16 3⟩
      (t1.opSlot (m.at64 0) = none → exec (.abort m) s = .next (t1.syncOver m)) ∧
      (∀ k, t1.opSlot (m.at64 0) = some k → m.at64 0 ∉ t1.links.aborted → exec (.abort m) s = .next ((t1.stopOp k (m.at64 0)).syncOver m))) ∧
    (s.syncActs m 7 = some t → (m.at64 0, m.src) ∉ t.links.frozenOps → exec (.freeze m) s =
      .next (State.syncOver { t with links := { t.links with frozenOps := t.links.frozenOps ++ [(m.at64 0, m.src)] } } m)) ∧
    (s.syncActs m 8 = some t → exec (.thaw m) s = .next (State.syncOver { t with links := { t.links with
      frozenOps := t.links.frozenOps.filter (· != (m.at64 0, m.src)) } } m))

/-- Re-execution: the head re-executes one M group's step for a STEP_REQ; a member that is told redoes the step, or rewinds the command. An operation
whose timer has run out with an input missing is aborted by this member, which accuses the partner of the lowest step missing. Eight ticks after its
first ABORT the operation is recorded once, with the lowest accused and the lowest accuser. Where the spec leaves it open this is the model's choice:
assumption log, entries 89, 90, 118, 119, 178. -/
def Obligations.ReexecutionAndAborts : Prop :=
  (∀ (s : State) (m : SyncMsg) (t : State) (k : Nat),
     (s.syncActs m 9 = some t → t.slotFor (m.at_ 0) = some k → t.isHead = true → exec (.stepReq m) s =
       .next (State.syncOver (t.headStep k (field (m.at_ 1) 0 10) (field (m.at_ 1) 10 18)) m)) ∧
     (s.syncActs m 0xA = some t → t.slotFor (m.at_ 0) = some k → t.follows = true →
       (bitOf (m.at_ 1) 2 = false → exec (.reexec m) s =
         .next (State.syncOver (t.redoStep k (field (m.at_ 2) 0 10) (field (m.at_ 2) 10 18) (m.at_ 1 % 4)) m)) ∧
       (bitOf (m.at_ 1) 2 = true → exec (.commandRestart m) s = .next (State.syncOver (t.rewind k (m.at_ 1 % 4)) m))) ∧
     (s.syncActs m 0xB = some t → t.isHead = true →
       ∀ a, ({ t with devIndex := m.src } : State).accused (recOfWords m.words) = some a →
         exec (.accuse m) s = .next (State.syncOver (t.mergeAccusation (recOfWords m.words) a) m))) ∧
  (∀ (s : State) (o : Nat),
     (∀ k d, s.opSlot o = some k → (o, 0) ∈ s.links.timers → s.opLive o = some false → o ∉ s.links.aborted → s.missingStep k o = some d →
       exec (.collectiveTimeout o) s = .next ((s.sendAbort o (some (s.devIndex ^^^ 2 ^ d)) 0).stopOp k o).settle) ∧
     ((o, 0) ∉ s.links.timers → exec (.collectiveTimeout o) s = .next s.settle) ∧
     (let l := s.links.aborts.filter (·.opid == o)
      ∀ a, (o, 0) ∈ s.links.abortDue → (l.map (·.accuser)).min? = some a →
       let accused := (l.filterMap (·.accused)).min?
       let cause := ((l.find? (·.accuser == a)).map (·.cause)).getD 0
       let d := put (accused.getD 0) 0 6 + put (b01 accused.isSome) 6 1 + put a 8 6 + put cause 16 3
       let cx := ((List.range 4).filterMap s.ctx).find? fun x => x.gseq == o % 2 ^ 32
       let s1 : State := { s with links := { s.links with abortDue := s.links.abortDue.filter (·.1 != o) } }
       let s2 := s1.raise St.islSync ((s1.newRec St.clsTimeout St.collectiveAbort unitSync o d).ofCtx cx)
       exec (.abortRecord o) s = .next ((((s2.rset (.lnk 0) 0x104 (BitVec.ofNat 32 (d + 2 ^ 31))).rset (.lnk 0) 0x108 (BitVec.ofNat 32 o)).rset
         (.lnk 0) 0x10C (BitVec.ofNat 32 (o / 2 ^ 32))).count48 (.lnk 0) 0x110 1)) ∧
     ((o, 0) ∉ s.links.abortDue → exec (.abortRecord o) s = .next s))

/-- Formation: a head that is complete and not formed calls every 10 ms; a device takes the CALL of the lowest head and answers it once with its JOIN;
the head takes a JOIN, keeps whether it accepted it, and forms the group as soon as it can, or at `FORM_TMO`; the devices that FORMED names become
members; without a CALL by `FORM_TMO` a device shows HEAD_LOST. Where the spec leaves it open this is the model's choice: assumption log, entries 162
to 166. -/
def Obligations.GroupsForm : Prop :=
  (∀ (s : State), s.mayCall = true →
    let s1 : State := { s with grp := { s.grp with calling := true, firstCall := if s.grp.calling then s.grp.firstCall else s.aonClk } }
    exec .callPeriod s = .next (s1.castOver 0 (Nat.log2 s.boardSize) 0x15 s.devIndex [BitVec.ofNat 32 (s.devIndex + 2 ^ 8 * s.boardSize)])) ∧
  (∀ (s : State) (m : SyncMsg) (t : State) (ok : Bool),
    (s.syncActs m 0x15 = some t → t.grp.formed = false → t.grp.headLost = false → t.leftOut = false → t.isHead = false →
      t.grp.called = false → t.rfield .aon 4 16 16 ≠ St.headLost → exec (.call m) s = .next (State.syncOver (State.answerCall { t with grp := { t.grp with
        called := true, head := m.at_ 0 % 64, joinSent := false, calling := false, joins := [] } }) m)) ∧
    (s.syncActs m 0x16 = some t → t.mayCall = true → t.joinRefused m ok = none → exec (.join m ok) s = .next (State.syncOver (State.tryForm
      { t with grp := { t.grp with joins := t.grp.joins.filter (·.dev != m.src) ++ [⟨m.src, true, none⟩] } }) m)) ∧
    (s.syncActs m 0x17 = some t → t.mayJoin = true → t.grp.joinSent = true → m.src = t.grp.head → (m.at64 1).testBit t.devIndex = true →
      exec (.formed m) s = .next (State.syncOver (t.becomeMember (m.at_ 0 % 2 ^ 7) m.src (m.at64 1)
        (beNat (((m.words.drop 3).take 4).flatMap fun w => beBytes 4 w.toNat))) m)) ∧
    (s.syncActs m 0x18 = some t →
      (m.at_ 1 % 2 ^ 16 ≠ 0 → exec (.memberLeft m) s = .next (State.syncOver (t.memberGone (m.at_ 0 % 64) (m.at_ 1 % 2 ^ 16)) m)) ∧
      (m.at_ 1 % 2 ^ 16 = 0 → exec (.memberLeft m) s = .next (t.deepNotice.syncOver m))) ∧
    (s.syncActs m 0x14 = some t → exec (.deep m) s = .next (t.deepNotice.syncOver m))) ∧
  (∀ s : State, (s.formDue = true → exec .formTmo s = .next s.tryForm) ∧ (s.formDue = false → exec .formTmo s = .next s)) ∧
  (∀ s : State, s.mayJoin = true → s.isHead = false → s.grp.called = false → s.brd.calledAt + beAt s.sec.board 402 2 * 1000000 ≤ s.aonClk →
    exec .memberFormTmo s = .next (s.startSt St.headLost 0)) ∧
  (∀ (s : State) (n : Nat), s.mayCall = true → s.grp.calling = true → s.formSize = some n →
    s.tryForm.grp.formed = true ∧ s.tryForm.grp.size = n ∧ s.tryForm.grp.head = s.devIndex ∧ s.tryForm.grp.lastGseq = 0 ∧
      ∀ d ∈ s.subCube n, s.accepted d = true)

/-! ### Flits, ports and datagrams -/

/-- A sequenced flit at a port that is not up does nothing, and one out of sequence is discarded. In sequence it is answered with its ACK and its
credit: one whose type, channel and subtype do not pair raises the router's record and does nothing else; one for another device is sent on. The link
layer: an IDLE gives its ACK and credits; a flit that fails its codes is counted and the first one is answered with a NAK; the timer and a NAK make
the port send again, in order, everything not acknowledged; a flit sent for the eighth time makes it retrain. Where the spec leaves it open this is
the model's choice: assumption log, entries 71 to 75, 178. -/
def Obligations.FlitsArriveInSequence : Prop :=
  ((∀ e ∈ flitCommands, ∀ (s : State) (p : Fin 8) (f : Flit) (tr : Trailer),
     let g := { f with ftype := e.1 }
     ((s.port p).up = false → exec (e.2 p f tr) s = .next s.settle) ∧
     ((s.port p).up = true → tr.seq ≠ ((s.takeTrailer p tr).port p).rxNext →
       exec (e.2 p f tr) s = .next ((s.takeTrailer p tr).discard p).settle) ∧
     (∀ t, s.linkTaken p tr 1 = some t →
       (g.paired = false → exec (e.2 p f tr) s = .next ((t.invalidFlit p g).answer p f.vc 1).settle) ∧
       (g.paired = true → f.dst ≠ t.devIndex →
         exec (e.2 p f tr) s = .next ((t.sendFlit (some (p / 2)) (p.val % 2 == 1) g).answer p f.vc 1).settle))) ∧
   (∀ (s : State) (p : Fin 8) (f : Flit) (tr : Trailer) (t : State), f.paired = false → f.ftype ≠ 0 → f.ftype ≠ 0xF → s.linkTaken p tr 1 = some t →
     exec (.linkFlitInvalid p f tr) s = .next ((t.invalidFlit p f).answer p (f.vc % 4) 1))) ∧
  (∀ (s : State) (p : Fin 8), (s.port p).up = true →
     (∀ tr, exec (.idle p tr) s = .next (s.takeTrailer p tr)) ∧
     (∀ raw, flitCorrect raw = none →
       ((s.port p).nakOpen = true → exec (.flitDiscard p raw) s = .next (s.count48 (.lnk p) 0x38 1)) ∧
       ((s.port p).nakOpen = false → exec (.flitDiscard p raw) s = .next
         (((s.count48 (.lnk p) 0x38 1).modPort p fun x => { x with nakOpen := true }).emit (.link p 1 [BitVec.ofNat 32 (s.port p).rxNext])))) ∧
     ((s.port p).replay = [] → exec (.replayTimer p) s = .next s) ∧
     ((s.port p).replay ≠ [] →
       let again := (s.port p).replay.map fun e => { e with times := e.times + 1 }
       let s1 := ((s.modPort p fun y => { y with replay := again }).count48 (.lnk p) 0x40 again.length).emits
         (again.map fun e => .flit p (some e.seq) e.flit)
       ((∀ e ∈ (s.port p).replay, e.times < 7) → exec (.replayTimer p) s = .next s1) ∧
       ((∃ e ∈ (s.port p).replay, 7 ≤ e.times) → exec (.replayTimer p) s = .next (s1.retrain p))) ∧
     (∀ e, exec (.nak p e) s = .next ((s.modPort p fun x => x.acked ((e + 4095) % 4096)).replayAll p)))

/-- The flits of peers that are for this device and in sequence. A WRITE stores its words, a READ sends them back, a MULE adds or puts its word: each
is acknowledged as the transfer asks; where the address is refused nothing is read or written, the target records it and the status goes back. What
comes back to this device: words that a core or Gander 2 asked for, and the acknowledgements of segments and Mule transfers. Where the spec leaves it
open this is the model's choice: assumption log, entries 82, 83, 178. -/
def Obligations.PeerAccessesAndReplies : Prop :=
  (∀ (s : State) (p : Fin 8) (f : Flit) (tr : Trailer) (t : State), s.linkTaken p tr 1 = some t → f.dst = t.devIndex →
     let over_ := fun (y : State) => (y.answer p f.vc 1).settle
     let w := { f with ftype := 1 }
     let r := { f with ftype := 2 }
     let u := { f with ftype := 5 }
     let n := min (f.aux % 1024 + 1) 512
     let to_ := (f.words.getD 0 ⟨0, false⟩).bits.toNat + 2 ^ 32 * (f.words.getD 1 ⟨0, false⟩).bits.toNat
     let put := fun slot => (t.putWords f.addr f.words).noteWrote slot f.addr (4 * f.words.length)
     let t1 := (t.applyWord (bitOf f.aux 0) f.addr (f.words.headD ⟨0, false⟩)).noteWrote (t.activeSlot.getD 4) f.addr 4
     (t.refusalRange true f.addr (4 * f.words.length) = none →
       (f.vc = 1 → t.tagStopped f.aux = false → exec (.write p f tr) s = .next (over_ (put (field f.aux 0 2)))) ∧
       (f.vc = 1 → t.tagStopped f.aux = true → exec (.write p f tr) s = .next (over_ t)) ∧
       (f.vc = 2 ∨ f.vc = 3 → f.last = false → exec (.write p f tr) s = .next (over_ (put (t.activeSlot.getD 4)))) ∧
       (f.vc = 2 ∨ f.vc = 3 → f.last = true → exec (.write p f tr) s =
         .next (over_ ((put (t.activeSlot.getD 4)).sendFlit none false ((put (t.activeSlot.getD 4)).ackOf w St.ok))))) ∧
     (∀ st, t.refusalRange true f.addr (4 * f.words.length) = some st → (f.vc = 2 ∨ f.vc = 3) → f.last = true →
       exec (.write p f tr) s = .next (over_ ((t.refusedHere st f.addr).sendFlit none false ((t.refusedHere st f.addr).ackOf w st)))) ∧
     (f.vc = 2 ∨ f.vc = 3 →
       (t.refusalRange false f.addr (4 * n) = none → exec (.read p f tr) s =
         .next (over_ ((t.noteWords (unitOfAddr f.addr) (islandOfAddr f.addr) f.addr n).sendFlits (bitOf f.addr 11)
           (wordFlits 3 f.vc f.src t.devIndex f.tid 0 (n + 1) to_ (t.peekWords f.addr n))))) ∧
       (∀ st, t.refusalRange false f.addr (4 * n) = some st → exec (.read p f tr) s =
         .next (over_ ((t.refusedHere st f.addr).sendFlit none false ((t.refusedHere st f.addr).ackOf r st))))) ∧
     (f.vc = 3 →
       (t.refusalRange true f.addr 4 = none → exec (.mule p f tr) s = .next (over_ (t1.sendFlit none false (t1.ackOf u St.ok)))) ∧
       (∀ st, t.refusalRange true f.addr 4 = some st → exec (.mule p f tr) s =
         .next (over_ ((t.refusedHere st f.addr).sendFlit none false ((t.refusedHere st f.addr).ackOf u st)))))) ∧
  (∀ (s : State) (p : Fin 8) (f : Flit) (tr : Trailer) (t : State), s.linkTaken p tr 1 = some t → f.dst = t.devIndex → f.vc = 2 ∨ f.vc = 3 →
     let over_ := fun (y : State) => (y.answer p f.vc 1).settle
     let c := f.tid / 256
     let tag := f.tid % 256
     (48 ≤ c → c < 52 → exec (.rdata p f tr) s = .next (over_ (t.putWords f.addr f.words))) ∧
     (∀ k st g, c < 48 → f.vc = 2 → (t.core c).tagged tag = some (k, st) → st.segs.find? (·.tag == tag) = some g → g.dstDev = t.devIndex →
       let t1 := t.modStream c k fun y =>
         { y with segs := y.segs.map fun h => if h.tag = tag then { h with got := h.got + f.words.length } else h }
       exec (.rdata p f tr) s = .next (over_ ((t1.putWords f.addr f.words).taintTile c st.unit (badAt (g.srcAddr + 4 * g.got) f.words)))) ∧
     (∀ m, c < 48 → f.vc = 3 → (t.core c).mule tag = some m →
       let t1 := t.modCore c fun x => { x with mules := x.mules.map fun e =>
         if e.1 = tag then (tag, { e.2 with words := e.2.words ++ f.words, need := e.2.need - f.words.length }) else e }
       let t2 := t1.taintTile c m.unit (badAt (m.srcAddr + 4 * m.words.length) f.words)
       exec (.rdata p f tr) s = .next (over_ (State.sendMules c m.dstDev (t2.core c).mules t2))) ∧
     (∀ k st, c < 48 → f.vc = 2 → (t.core c).tagged tag = some (k, st) →
       exec (.ack p f tr) s = .next (over_ (t.ackSegment c k tag (f.aux % 65536)))) ∧
     (c < 48 → f.vc = 3 → exec (.ack p f tr) s = .next (over_ (t.endMule c tag (f.aux % 65536)))) ∧
     (48 ≤ c → exec (.ack p f tr) s = .next (over_ t)))

/-- The flits of collectives: a partner's words collect in their slot; when the segment is whole and the own operand is held, the slot is free and the
sums go on; a PIECE_END before the launch is kept, and one after it ends its port's share. Those of a stopped operation do nothing. Where the spec
leaves it open this is the model's choice: assumption log, entries 36, 85, 178. -/
def Obligations.CollectiveFlits : Prop :=
  ∀ (s : State) (p : Fin 8) (f : Flit) (tr : Trailer) (t : State), s.linkTaken p tr 1 = some t → f.dst = t.devIndex → f.vc = 1 →
    let over_ := fun (y : State) => (y.answer p 1 1).settle
    let tag := f.aux
    let k := field tag 0 2
    let mg := t.tagGroup tag
    let a := tagPort tag * 32 + field f.addr 18 5
    (t.tagStopped tag = true → exec (.reduce p f tr) s = .next (over_ t) ∧ exec (.pieceEnd p f tr) s = .next (over_ t)) ∧
    (t.tagStopped tag = false → ∀ b sl, t.links.slots.find? (fun e => e.1 == a && e.2.tag == tag) = some (b, sl) →
      let sl2 := { sl with words := sl.words ++ ((List.range f.words.length).zip f.words).map fun e => (field f.addr 0 18 / 4 + e.1, e.2) }
      (sl.own = none ∨ sl2.words.length < sl2.len → exec (.reduce p f tr) s = .next (over_ (t.setSlot a sl2))) ∧
      (∀ own x r m, sl.own = some own → sl2.len ≤ sl2.words.length → t.ctx k = some x → x.run = some r → r.prog.mrsRec = some m →
        let t1 := (t.setSlot a sl2).clearSlot a
        exec (.reduce p f tr) s = .next (over_ (State.passOn k mg (field tag 12 7) (field tag 19 13)
          ((dimList (sget 0 r.groupDims m.group)).filter fun e => decide (field tag 9 3 < e))
          ((own.zip ((List.range own.length).map fun i => sget ⟨0, false⟩ sl2.words i)).map fun e => redAdd m.bf16 e.1 e.2)
          (if tagPort tag < 8 then t1.count48 (.lnk (tagPort tag)) 0x50 1 else t1))))) ∧
    (t.tagStopped tag = false → ((t.ctx k).bind (·.run)).bind (·.gather mg) = none → exec (.pieceEnd p f tr) s =
      .next (over_ { t with links := { t.links with earlyEnds := t.links.earlyEnds ++ [(tag, 0)] } })) ∧
    (t.tagStopped tag = false → ∀ x r g, t.ctx k = some x → x.run = some r → r.gather mg = some g → g.launched = true →
      g.mask.testBit (field tag 12 7) = true → exec (.pieceEnd p f tr) s = .next (over_ (t.shareEnd k mg (field tag 12 7) (field tag 9 3))))

/-- Training: signal on a DOWN port starts it; the neighbour's TRAIN flits take it through its states; the right neighbour's ID is kept, a wrong one
puts the port down with its record; at full width the port is ACTIVE with all its credits and its edge up; a port that is not ACTIVE in time, or an
ACTIVE one that loses a lane, is taken down or retrains. COLT: the neighbour's request is noted and answered once this device has asked too, and an
answer completes the entry, which waits for an empty replay buffer and VC1. HANDOVER: what the failed port held and the neighbour has not had goes
first, in order. An edge with both ports gone is marked and recorded, its flits take the detour, and what has no path left fails. Where the spec
leaves it open this is the model's choice: assumption log, entries 76 to 81, 86, 87, 178. -/
def Obligations.PortsTrainAndHandOver : Prop :=
  (∀ (s : State) (p : Fin 8),
     ((s.port p).st = .down → bitOf (s.rget (.lnk p) 8).toNat 0 = true → exec (.laneSignalDetect p) s = .next (((s.modPort p fun x =>
       { x with trainFrom := s.aonClk }).portTo p .detect).emit (.link p 6 (1 :: (s.port p).coefs)))) ∧
     (∀ n cs, 1 ≤ n → n ≤ 3 →
       let keep := s.modPort p fun x => { x with coefs := cs.take 6 }
       ((s.port p).st = .detect → exec (.train p n cs) s = .next ((keep.portTo p .equalize).emit (.link p 6 (2 :: cs.take 6)))) ∧
       ((s.port p).st = .equalize → 2 ≤ n → exec (.train p n cs) s = .next ((keep.portTo p .align).emit (.link p 6 (3 :: cs.take 6)))) ∧
       ((s.port p).st = .align → n = 3 → exec (.train p n cs) s = .next (s.toIdentify p))) ∧
     (∀ (d : Fin 64) (q : Fin 8) (l : Fin 4) (w c : Bool), (s.port p).st = .identify →
       let peer := fun (v : Nat) => s.rset (.lnk p) 0x14 (BitVec.ofNat 32 (put d 0 6 + put q 8 3 + put v 16 1))
       (d.val = s.devIndex ^^^ 2 ^ (p.val / 2) → s.failedLanes p = 0 ∨ w = true →
         exec (.id p d q l w c) s = .next ((peer 1).rput (.lnk p) 4 8 1 0)) ∧
       (d.val = s.devIndex ^^^ 2 ^ (p.val / 2) → s.failedLanes p ≠ 0 → w = false →
         exec (.id p d q l w c) s = .next ((peer 0).trainFailed p)) ∧
       (d.val ≠ s.devIndex ^^^ 2 ^ (p.val / 2) → exec (.id p d q l w c) s = .next (((((peer 0).rput (.lnk p) 4 8 1 1).linkRec p St.linkNeighborMismatch p d
         0).modPort p fun x => { x with wasActive := false, tried := true }).portTo p .down))) ∧
     ((s.port p).st = .identify → bitOf (s.rget (.lnk p) 0x14).toNat 16 = true → s.failedLanes p = 0 →
       let s1 := (s.rput (.lnk p) 0x18 8 6 0).modPort p fun y =>
         { y with credits := portCredits, window := 0, vc0Sent := 0, wasActive := false, tried := true }
       let s2 := ((s1.portTo p .active).rput (.lnk p) 4 9 1 0).rput (.lnk (otherPort p)) 4 9 1 0
       let s3 := ((s2.rput (.lnk p) 4 7 1 0).report (otherPort p) p).report p p
       exec (.linkTrained p 63) s = .next (((s3.gate p).moveQueues (otherPort p) p).drain p)) ∧
     ((s.port p).st ∈ [.detect, .equalize, .align, .identify] → exec (.trainTmo p) s = .next (s.trainFailed p)) ∧
     ((s.port p).st ∈ [.down, .active, .colt, .disabled] → exec (.trainTmo p) s = .next s) ∧
     (∀ l : Fin 6, (s.port p).st = .active →
       exec (.laneLockLoss p l) s = .next ((s.modPort p fun y => { y with lostLanes := y.lostLanes ||| 2 ^ l.val }).retrain p))) ∧
  ((∀ (s : State) (p : Fin 8), (s.port p).st = .active →
     let s1 := s.modPort p fun y => { y with coltAsked := true }
     ((s.port p).coltWanted = true → exec (.coltReq p) s = .next ((s1.emit (.link p 4 [])).tryColt p) ∧ exec (.coltAck p) s = .next (s1.tryColt p)) ∧
     ((s.port p).coltWanted = false → exec (.coltReq p) s = .next (s1.tryColt p) ∧ exec (.coltAck p) s = .next s)) ∧
   (∀ (s : State) (p : Fin 8), (s.tryColt p = s ∨ (s.port p).replay = [] ∧ (s.port p).queues[1] = [] ∧ ((s.tryColt p).port p).st = .colt)) ∧
   (∀ (s : State) (p q : Fin 8) (n : Nat), (s.port p).up = true →
     let f := if s.rfield (.lnk p) 0x14 8 3 = q.val then p.val else otherPort p
     let x := s.port f
     let rest := match x.held.findIdx? (·.seq == n) with
       | some i => x.held.drop (i + 1)
       | none => x.held
     exec (.handover p q n) s = .next (((((s.modPort f fun y => { y with held := [] }).modPort p fun y =>
       { y with queues := y.queues.mapIdx fun i l => (rest.filter (·.flit.vc == i)).map (·.flit) ++ l }).gate p).gate (otherPort p)).drain p)) ∧
   (∀ (s : State) (k : Fin 4),
     ((s.port (2 * k.val)).up = true ∨ (s.port (2 * k.val + 1)).up = true → exec (.edgeDown k) s = .next s) ∧
     ((s.port (2 * k.val)).up = false → (s.port (2 * k.val + 1)).up = false → s.edgeUp k = true →
       let s1 := (((s.emptied k).ror (.lnk (2 * k.val)) 4 0x200).ror (.lnk (2 * k.val + 1)) 4 0x200).linkRec (2 * k.val) St.linkEdgeDown k
         (s.devIndex ^^^ 2 ^ k.val) 0
       let s2 := (s.waitingOver k).foldl (fun s f => s.sendFlit none false f) s1
       exec (.edgeDown k) s = .next (s2.unreachable.foldl (fun s d => s.cutOff d) s2).settle)))

/-- Datagrams of d4 and d5: one of another version is counted and dropped; its ACK and credits are taken; in sequence its flits act and the credits go
back, out of sequence it is discarded. Those not acknowledged are sent again, and one sent for the eighth time takes the dimension down. Where the
spec leaves it open this is the model's choice: assumption log, entries 73, 84, 178. -/
def Obligations.DatagramsAreSequenced : Prop :=
  ∀ (s : State) (i : Fin 2),
    let x := s.ethDim i
    (∀ v seq ack fs cr, v ≠ 1 →
      exec (.datagramReceive i v seq ack fs cr) s = .next ((s.count48 (.eth 0) 0x48 1).count48 (.eth 0) 0x50 1).settle) ∧
    (∀ seq ack fs (cr : List (Fin 4 × Nat)),
      let left := match x.unacked.findIdx? (·.seq == ack) with
        | some j => x.unacked.drop (j + 1)
        | none => x.unacked
      let top : Vector Nat 4 := #v[256, 4096, 4096, 256]
      let credits := (cr.map fun c => (c.1.val, c.2)).foldl (fun (v : Vector Nat 4) c =>
        v.mapIdx fun j n => if j = c.1 then min (n + c.2) (top.toList.getD j 0) else n) x.credits
      let x1 := { x with unacked := left, credits := credits }
      (fs = [] ∨ seq ≠ x.rxNext → exec (.datagramReceive i 1 seq ack fs cr) s =
        .next (((s.count48 (.eth 0) 0x48 1).setEthDim i x1).drainEth i).settle) ∧
      (fs ≠ [] → seq = x.rxNext →
        let s1 := (s.count48 (.eth 0) 0x48 1).setEthDim i { x1 with rxNext := (seq + 1) % 2 ^ 32 }
        let s2 := fs.foldl (fun s f => s.route (8 + i) (4 + i) f) s1
        let back := ((List.range 4).map fun v => (v, (fs.filter (·.vc == v)).length)).filter (·.2 != 0)
        exec (.datagramReceive i 1 seq ack fs cr) s =
          .next ((s2.emit (.datagram (4 + i) (s2.ethDim i).txSeq seq [] back)).drainEth i).settle)) ∧
    (x.unacked = [] ∨ x.down = true → exec (.datagramRetransmit i) s = .next s.settle) ∧
    (x.unacked ≠ [] → x.down = false →
      let again := x.unacked.map fun d => { d with times := d.times + 1 }
      let s1 := ((s.setEthDim i { x with unacked := again }).count48 (.eth 0) 0x40 again.length).emits
        (again.map fun d => .datagram (4 + i) d.seq ((x.rxNext + 2 ^ 32 - 1) % 2 ^ 32) d.flits [])
      ((∀ d ∈ x.unacked, d.times < 7) → exec (.datagramRetransmit i) s = .next s1.settle) ∧
      ((∃ d ∈ x.unacked, 7 ≤ d.times) → exec (.datagramRetransmit i) s = .next (s1.edgeGone (4 + i)).settle))

/-! ### The command protocol -/

/-- The order of the checks of a packet: a device that does not serve, or whose port is down, takes nothing; a wrong magic number is dropped and
counted; a wrong version or reserved flags are malformed; a device left out is not ready, one whose head is lost says so, one that is not the head
names the head; a packet of no session needs one; an unknown session is named; a wrong tag or a counter outside the window is dropped with its count.
The classes of a whole message by its `SEQ`: past the window, stale, in conflict with the one known, or again, when a sequenced command is answered
from its record and nothing is done twice; and a new one, which fails while the group is not formed, and, when it is a run command, while a member
does not serve or its queue is full. Where the spec leaves it open this is the model's choice: assumption log, entries 92, 109. -/
def Obligations.PacketsAreCheckedAndClassified : Prop :=
  (∀ e ∈ bcpCommands, ∀ (s : State) (p : BcpPkt),
     let t := s.bcpSeen
     let run := exec (e.2.2 p) s
     let clear := fun (r : Reply) => (Host.Outcome.next (t.clearReply p.from_ p.session p.seq e.1 r).bcpOver : Host.Outcome State Fault Refusal)
     let good := p.magic = 0x4243 ∧ p.version = 1 ∧ p.flags / 32 = 0 ∧ bitOf p.flags 0 = false ∧ bitOf p.flags 3 = false
     (s.brd.booted = false ∨ s.ethUp = false → run = .next s.bcpOver) ∧
     (s.brd.booted = true → s.ethUp = true →
       (p.magic ≠ 0x4243 → run = .next t.dropBcp.bcpOver) ∧
       (p.magic = 0x4243 → p.version ≠ 1 ∨ p.flags / 32 ≠ 0 ∨ bitOf p.flags 0 = true → run = clear (Reply.plain St.bcpMalformed)) ∧
       (good → t.leftOut = true → run = clear (Reply.plain St.notReady)) ∧
       (good → t.leftOut = false → t.grp.headLost = true → run = clear (Reply.plain St.headLost)) ∧
       (good → t.leftOut = false → t.grp.headLost = false → t.isHead = false →
         run = clear ⟨St.notGroupHead, 0xFF, 0, beBytes 16 t.grp.headIp⟩)) ∧
     (s.bcpServes p →
       (p.session = 0 → bitOf p.flags 1 = true ∨ (e.1 ≠ 1 ∧ e.1 ≠ 2) → run = clear (Reply.plain St.authRequired)) ∧
       (p.session ≠ 0 → bitOf p.flags 1 = false ∨ e.1 = 2 → run = clear (Reply.plain St.authRequired)) ∧
       (p.session ≠ 0 → bitOf p.flags 1 = true → e.1 ≠ 2 → t.openSessions.find? (·.id == p.session) = none → run = clear (Reply.plain St.sessionUnknown)) ∧
       (∀ x, p.session ≠ 0 → bitOf p.flags 1 = true → e.1 ≠ 2 → t.openSessions.find? (·.id == p.session) = some x →
         (p.tagOk = false → run = .next (State.bcpOver ((t.count48 (.eth 3) 0x28 1).authRecord x.id p.from_))) ∧
         (p.tagOk = true → x.ctrSeen ≠ [] → p.pktCtr + 1023 < x.ctrHigh ∨ p.pktCtr ∈ x.ctrSeen →
           run = .next (State.bcpOver (t.count48 (.eth 3) 0x30 1)))))) ∧
  (∀ e ∈ bcpCommands, ∀ (s : State) (p : BcpPkt) (t : State) (y : Session) (b : List Byte), s.bcpGives e.1 p t y b →
     let run := exec (e.2.2 p) s
     let say := fun (r : Reply) => (Host.Outcome.next (t.says e.1 p y r).bcpOver : Host.Outcome State Fault Refusal)
     (y.classify p.seq (digestOf b) = .window → run = say (Reply.plain St.seqWindow)) ∧
     (y.classify p.seq (digestOf b) = .stale → run = say (Reply.plain St.seqStale)) ∧
     (y.classify p.seq (digestOf b) = .conflict → run = say (Reply.plain St.seqConflict)) ∧
     (∀ r, y.classify p.seq (digestOf b) = .again r → r.query = false →
       let t1 := t.count48 (.eth 3) 0x38 1
       (r.final = none → run = .next (State.bcpOver (t1.encReply p.from_ y.id p.seq e.1 false r.gseq (Reply.plain St.accepted)))) ∧
       (∀ q, r.final = some q → run = .next (State.bcpOver (t1.encReply p.from_ y.id p.seq e.1 true r.gseq q)))) ∧
     (y.classify p.seq (digestOf b) = .new → e.1 ≠ 1 →
       (t.grp.formed = false → run = say (Reply.plain St.notReady)) ∧
       (∀ d, t.grp.formed = true → isRun e.1 = true → t.notServing = some d → run = say ⟨St.quiesced, d, 0, []⟩) ∧
       (t.grp.formed = true → isRun e.1 = true → t.notServing = none → 256 ≤ (t.classQueue (beAt b 0 1 % 4)).length →
         run = say (Reply.plain St.queueFull))))

/-- Sequence windows: after HIGH, a number up to 256 newer that is not recorded is new, and one further ahead is outside the window; one not recorded
and more than 255 behind is stale; a recorded one is the same message again if its digest agrees, and in conflict otherwise. -/
def Obligations.SequenceWindow : Prop :=
  ∀ (y : Session) (h d dg : Nat), y.high = some h → h < 2 ^ 32 → d < 2 ^ 32 →
    let q := (h + d) % 2 ^ 32
    ((∀ r ∈ y.recs, r.seq ≠ q) →
      (y.classify q dg = .new ↔ (1 ≤ d ∧ d ≤ 256) ∨ d = 0 ∨ 2 ^ 32 - 255 ≤ d) ∧
      (y.classify q dg = .window ↔ 256 < d ∧ d < 2 ^ 31) ∧
      (y.classify q dg = .stale ↔ 2 ^ 31 ≤ d ∧ d < 2 ^ 32 - 255)) ∧
    (∀ r, y.recs.find? (·.seq == q) = some r →
      (r.digest = dg → y.classify q dg = .again r) ∧ (r.digest ≠ dg → y.classify q dg = .conflict))

/-- A new query is recorded, counted and answered from this device's state: the group, a command's record, registers, memory, telemetry or the error
log; one that names another member is handed to it. Where the spec leaves it open this is the model's choice: assumption log, entries 94 to 97, 99,
100. -/
def Obligations.QueriesAreAnswered : Prop :=
  (∀ e ∈ queryCommands, ∀ (s : State) (p : BcpPkt) (t : State) (y : Session) (b : List Byte), s.bcpGives e.1 p t y b →
    y.classify p.seq (digestOf b) = .new → t.grp.formed = true →
    let q := (t.recorded e.1 p y b).query e.1 y.id b
    exec (e.2 p) s = .next (q.2.says e.1 p y q.1).bcpOver) ∧
  (∀ (s : State) (i : Nat),
    s.query 0x10 i [] = (⟨St.ok, 0xFF, 0, s.groupState.1⟩, s.groupState.2) ∧
    (∀ b, b.length = 4 → s.query 0x11 i b = (s.commandStatus (beAt b 0 4), s)) ∧
    (∀ g, s.cmd g = none → s.commandStatus g = Reply.plain St.commandUnknown) ∧
    (∀ b, b.length = 32 → isZero b 1 7 = true → isZero b 18 14 = true → beAt b 0 1 = s.devIndex → s.isMember s.devIndex = true →
      let a := beAt b 8 8
      let n := beAt b 16 2
      1 ≤ n → n ≤ 256 → regRange a n = true →
      (regRights (s.levelOf i) false a n = true →
        s.query 0x12 i b = (⟨St.ok, 0xFF, 0, (s.readRegs a n).1.flatMap fun w => beBytes 4 w.toNat⟩, (s.readRegs a n).2)) ∧
      (regRights (s.levelOf i) false a n = false → s.query 0x12 i b = (⟨St.regAccessDenied, s.devIndex, 0, []⟩, s))) ∧
    (∀ b, b.length = 32 → isZero b 1 7 = true → isZero b 20 12 = true → beAt b 0 1 = s.devIndex → s.isMember s.devIndex = true →
      let a := beAt b 8 8
      let n := beAt b 16 4
      n % 4 = 0 → a % 4 = 0 → n ≤ 0xF00000 →
      (∀ st, s.memStatus (s.levelOf i) false a n = some st → s.query 0x14 i b = (⟨st, s.devIndex, 0, []⟩, s.memRefused st a)) ∧
      (s.memStatus (s.levelOf i) false a n = none → regionOf a ≠ .redWin →
        (s.query 0x14 i b).1 = ⟨St.ok, 0xFF, 0, ((s.gPeek a (n / 4)).flatMap fun w => leBytes 4 w.bits.toNat) ++ poisonBits (s.gPeek a (n / 4))⟩ ∧
          (s.query 0x14 i b).2 = s.noteWords (unitGander 0) (islandOfAddr a) a (n / 4))) ∧
    (∀ b, b.length = 32 → isZero b 1 7 = true → isZero b 18 14 = true → beAt b 0 1 = s.devIndex → s.isMember s.devIndex = true →
      1 ≤ beAt b 16 2 → beAt b 16 2 ≤ 128 → s.query 0x17 i b = (⟨St.ok, 0xFF, 0, s.errorRead (beAt b 8 8) (beAt b 16 2)⟩, s)) ∧
    (∀ b, b.length = 1 → beAt b 0 1 = s.devIndex → s.isMember s.devIndex = true → s.devIndex < 64 →
      s.query 0x16 i b = (⟨St.ok, 0xFF, 0, s.telemetry⟩, s)) ∧
    (∀ b, b.length = 32 → isZero b 1 7 = true → isZero b 18 14 = true → s.isMember (beAt b 0 1) = true → beAt b 0 1 ≠ s.devIndex →
      1 ≤ beAt b 16 2 → beAt b 16 2 ≤ 256 → regRange (beAt b 8 8) (beAt b 16 2) = true →
      s.query 0x12 i b = s.askOther (beAt b 0 1) 0x12 (4 * beAt b 16 2) b))

/-- A new sequenced command whose checks fail is answered with the failure and gets no number; one that passes gets the next group sequence number, is
answered ACCEPTED with it, told to the members and applied here: a run command goes to the end of its class's queue, a management command takes
effect. Where the spec leaves it open this is the model's choice: assumption log, entries 103 to 105. -/
def Obligations.CommandsGetNumbers : Prop :=
  ∀ e ∈ sequencedCommands, ∀ (s : State) (p : BcpPkt) (t : State) (y : Session) (b : List Byte), s.bcpGives e.1 p t y b →
    y.classify p.seq (digestOf b) = .new → t.grp.formed = true →
    (isRun e.1 = true → t.notServing = none ∧ (t.classQueue (beAt b 0 1 % 4)).length < 256) →
    let t1 := t.recorded e.1 p y b
    let run := exec (e.2.2 p) s
    (∀ q, t1.seqBad e.1 b = some q → run =
      .next (State.bcpOver ((t1.modSession y.id fun x => { x with recs := noteFinal p.seq q x.recs }).says e.1 p y q))) ∧
    (t1.seqBad e.1 b = none →
      let g := (t1.grp.lastGseq + 1) % 2 ^ 32
      let cls := if isRun e.1 then beAt b 0 1 % 4 else 0
      let ids := bitOf (beAt b 1 1) 0 || (e.1 == 0x31 && (parsePrompt b false 0).text.isEmpty)
      let prompt := if e.1 = 0x31 then some (parsePrompt b ids (t1.holdOf b)) else none
      let t2 := ({ t1 with grp := { t1.grp with lastGseq := g } } : State).rset (.eth 3) 0xC (BitVec.ofNat 32 g)
      let t3 := (t2.modSession y.id fun x => { x with recs := x.recs.map fun r => if r.seq = p.seq then { r with gseq := some g } else r }).encReply
        p.from_ y.id p.seq e.1 false (some g) (Reply.plain St.accepted)
      let t4 := if e.1 = 0x31 ∧ ids = false then t3 else t3.sendCommand g e.1 cls y.id p.seq (digestOf b) b
      run = .next (State.bcpOver (t4.applySeq g e.1 cls y.id p.from_ p.seq b prompt e.2.1)))

/-- What a management command does on the device that it names, and its outcome there; on a device that it does not name, registers, memory and the
log stay. The checks of a commit end: the image moves from VERIFYING to VERIFIED or FAILED, and the command has its outcome. Text that has been
tokenized is checked and told to the members, or fails its prompt. Where the spec leaves it open this is the model's choice: assumption log, entries
93, 98, 101, 102, 106, 111, 178. -/
def Obligations.ManagementAndCommits : Prop :=
  (∀ (s : State) (g i : Nat) (b : List Byte) (ok : Bool),
     let done := fun (t : State) => (some (Reply.plain St.ok), t)
     (s.isHead = true → s.applyMgmt g 0x03 i b ok = done (s.modSession i fun x => { x with closing := true, level := 0 })) ∧
     (beAt b 0 1 = s.devIndex →
       let a := beAt b 8 8
       (regRights (s.levelOf i) true a (beAt b 16 2) = true →
         s.applyMgmt g 0x13 i b ok = done (s.writeRegs a ((wordsAt b 32 (beAt b 16 2)).map (BitVec.ofNat 32)))) ∧
       (regRights (s.levelOf i) true a (beAt b 16 2) = false → s.applyMgmt g 0x13 i b ok = (some ⟨St.regAccessDenied, s.devIndex, 0, []⟩, s)) ∧
       (s.memStatus (s.levelOf i) true a (beAt b 16 4) = none → s.applyMgmt g 0x15 i b ok =
         done (s.gPut a ((List.range (beAt b 16 4 / 4)).map fun j => BitVec.ofNat 32 (leAt b (32 + 4 * j) 4)))) ∧
       (∀ st, s.memStatus (s.levelOf i) true a (beAt b 16 4) = some st →
         s.applyMgmt g 0x15 i b ok = (some ⟨st, s.devIndex, 0, []⟩, s.memRefused st a)) ∧
       s.applyMgmt g 0x18 i b ok = done (s.errorAck a)) ∧
     (beAt b 0 1 ≠ s.devIndex → s.applyMgmt g 0x13 i b ok = done s ∧ s.applyMgmt g 0x15 i b ok = done s ∧ s.applyMgmt g 0x18 i b ok = done s) ∧
     s.applyMgmt g 0x19 i b ok = done (s.setConfig i b) ∧
     (s.imageBeginBad b = none → s.applyMgmt g 0x20 i b ok = done (s.imageBegin b)) ∧
     (s.imageBad b (· == .loading) = none → s.applyMgmt g 0x22 i b ok = (none, s.modImage (beAt b 0 4) fun x => { x with st := .verifying, gseq := g })) ∧
     (s.imageBad b (· == .verified) = none → s.applyMgmt g 0x23 i b ok = done (s.modImage (beAt b 0 4) fun x => { x with st := .active })) ∧
     (s.imageBad b (fun _ => true) = none → s.applyMgmt g 0x24 i b ok = (none, s.modImage (beAt b 0 4) fun x => { x with st := .unloading })) ∧
     (∀ c, s.cmd (beAt b 0 4) = some c → c.run = true → (s.grp.lastGseq + 2 ^ 32 - beAt b 0 4) % 2 ^ 32 < 4096 → c.final = false → s.tilesDoneAll c = false →
       c.ownDone = false → c.state = 0 → i ≠ 0 → s.applyMgmt g 0x33 i b ok = done ((State.dropEgress (s.modSvc fun v => { v with
         queues := v.queues.map fun q => q.filter (· != beAt b 0 4) }) (beAt b 0 4)).ownFinish (beAt b 0 4) (Reply.plain St.cancelled) false)) ∧
     (beAt b 2 1 = s.devIndex → ∀ x, s.session i = some x → x.closing = false → s.levelOf i = 0 → beAt b 0 1 = 1 →
       s.applyMgmt g 0x04 i b ok = if s.debugLocked = false ∧ s.passwordOk (slice b 8 (beAt b 3 1)) = true
         then done (s.debugOpened.modSession i fun x => { x with level := 1 })
         else (some ⟨St.authFailed, s.devIndex, 0, []⟩, s.debugFailed))) ∧
  ((∀ (s : State) (i : Nat) (ok : Bool) (g : Image) (c : CmdRec), s.image i = some g → s.cmd g.gseq = some c → c.opcode = 0x22 → c.ownDone = false →
     g.st = .verifying →
     exec (.commitChecksDone i ok) s = .next (State.settle (match s.loadFault g ok with
       | none => (s.modImage i fun x => { x with st := if x.st = .verifying then .verified else x.st, digest := s.manifestDigest x }).mgmtOwn
         g.gseq (Reply.plain St.ok)
       | some f => (s.modImage i fun x => { x with st := if x.st = .verifying then .failed else x.st, digest := s.manifestDigest x }).mgmtOwn
         g.gseq ⟨f.status, s.devIndex, f.detail, []⟩))) ∧
   (∀ (s : State) (n : Nat), s.isHead = true → exec (.tokenize n) s = .next (s.tokenized n).settle) ∧
   (∀ (s : State) (n : Nat) (c : CmdRec) (q : Prompt) (g : Image) (d : Descr) (k : TokTable) (ids : List Nat), s.cmd n = some c → c.prompt = some q →
     q.tokens = none → c.ownDone = false → s.image q.imageId = some g → s.descr g = some d → s.tokTable g = some k → k.encode q.text = .ok ids →
     s.tokensBad g d { q with tokens := some (q.pre ++ ids ++ q.post) } = none →
     s.tokenized n = (s.modCmd n fun x => { x with prompt := some { q with tokens := some (q.pre ++ ids ++ q.post) } }).sendCommand n 0x31 c.cls c.session
       c.seq (beNat (beBytes 48 (Config.sha384 c.payload) |>.take 8))
       (c.payload.take (128 + 16 * q.pages.length + 4 * (q.pre.length + q.post.length)) ++ ids.flatMap (beBytes 4))))

/-- Data packets of a session: bytes of an image part that is LOADING are stored at its base, and a page that the host holds is filled; one that fits
neither is dropped and counted. Packets in clear: an ATTEST within its rate is counted and answered with a report or its failure; SESSION_OPEN is
handled once the group is formed. An opcode that is not defined is answered so under its session. Exchanges, challenges and incomplete messages that
have grown old are gone. Where the spec leaves it open this is the model's choice: assumption log, entries 107 to 109. -/
def Obligations.DataAndClearPackets : Prop :=
  (∀ e ∈ [(0x21, Instr.imageData), (0x41, Instr.kvPageData)], ∀ (s : State) (p : BcpPkt), s.brd.booted = true → s.ethUp = true → p.magic = 0x4243 →
     p.version = 1 → p.flags / 32 = 0 → bitOf p.flags 0 = false → bitOf p.flags 3 = true →
     (p.session = 0 ∨ bitOf p.flags 1 = false → exec (e.2 p) s = .next s.bcpSeen.dropBcp.bcpOver) ∧
     (∀ x s1, p.session ≠ 0 → bitOf p.flags 1 = true → s.bcpSeen.openSessions.find? (·.id == p.session) = some x →
       s.bcpSeen.acceptPkt x p = (true, s1) →
       let data := p.payload.drop 16
       let off := if e.1 = 0x21 then beAt p.payload 8 8 else beAt p.payload 8 4
       let fits := p.total = p.payload.length ∧ p.offset = 0 ∧ 16 ≤ p.payload.length ∧ data.length % 1024 = 0 ∧ off % 1024 = 0
       (¬fits → exec (e.2 p) s = .next s1.dropBcp.bcpOver) ∧
       (∀ g, fits → e.1 = 0x21 → s1.image (beAt p.payload 0 4) = some g → g.st = .loading → off + data.length ≤ g.partBytes →
         let units := (List.range (data.length / 1024)).map (· + off / 1024)
         exec (e.2 p) s = .next (State.bcpOver (((s1.putBytes (unitOfAddr (g.base + off)) (islandOfAddr (g.base + off)) (g.base + off) data).modImage
           (beAt p.payload 0 4) fun x => { x with got := x.got.filter (fun u => !units.contains u) ++ units }).count48 (.eth 3) 0x48 1))) ∧
       (∀ s2, fits → e.1 = 0x41 → s1.pageBytes (beAt p.payload 0 8) off (bitOf (beAt p.payload 12 1) 0) data = some s2 →
         exec (e.2 p) s = .next (s2.count48 (.eth 3) 0x48 1).bcpOver) ∧
       (fits → e.1 = 0x41 → s1.awaited (beAt p.payload 0 8) = [] → exec (e.2 p) s = .next s1.dropBcp.bcpOver))) ∧
  ((∀ (s : State) (p : BcpPkt), s.bcpServes p → p.session = 0 → bitOf p.flags 1 = false → p.seq = 0 → p.total ≤ 0x1000000 →
     p.offset + p.payload.length ≤ p.total → p.total ≤ p.payload.length →
     let t := s.bcpSeen
     (t.attestFull = true → exec (.attest p) s = .next t.dropBcp.bcpOver) ∧
     (t.attestFull = false → p.payload.length ≤ t.countAttest.maxLen →
       exec (.attest p) s = .next (t.countAttest.attest p.from_ 0 0 p.payload).bcpOver) ∧
     (∀ ok, p.payload.length ≤ t.maxLen →
       (t.grp.formed = true → exec (.sessionOpen p ok) s = .next (t.openSession p.from_ p.payload ok).bcpOver) ∧
       (t.grp.formed = false → exec (.sessionOpen p ok) s = .next (t.clearReply p.from_ 0 p.seq 2 (Reply.plain St.notReady)).bcpOver))) ∧
   (∀ (s : State) (p : BcpPkt) (op : Nat) (t : State) (y : Session) (b : List Byte), s.bcpGives op p t y b → isQuery op = false → isSequenced op = false →
     op ≠ 0x21 → op ≠ 0x41 → y.classify p.seq (digestOf b) = .new → t.grp.formed = true →
     let q := Reply.plain St.unsupportedOperation
     exec (.reservedOpcode op p) s = .next (State.bcpOver (((t.recorded op p y b).modSession y.id fun x =>
       { x with recs := noteFinal p.seq q x.recs }).says op p y q))) ∧
   (∀ (s : State) (d i q : Nat),
     exec (.exchangeExpiry d) s = .next { s with svc := { s.svc with
       exchanges := s.svc.exchanges.filter fun e => e.digest != d || decide (s.aonClk < e.signedAt + 100000000) } } ∧
     exec (.challengeExpiry i) s = .next { s with svc := { s.svc with
       challenges := s.svc.challenges.filter fun c => c.session != i || decide (s.aonClk < c.since + 6000000000) } } ∧
     exec (.reassemblyTimeout i q) s = .next (s.modSession i fun x => { x with
       parts := x.parts.filter fun r => r.seq != q || decide (s.aonClk < r.since + 10000000) })))

/-- The start of a queued run command of a class whose slot is free on a device that serves: the command at the front leaves its queue and starts with
its own arguments. The head starts a chunk of prompts when their tokens reach the target or a hold has expired; a context that has drained freezes.
Where the spec leaves it open this is the model's choice: assumption log, entries 112, 114, 178. -/
def Obligations.CommandsAndChunksStart : Prop :=
  (∀ (s : State) (k : Fin 4) (n : Nat) (rest : List Nat) (c : CmdRec), s.classQueue k = n :: rest → s.cmd n = some c → c.prompt = none →
    s.ctx k = none → s.mayStart = true →
    let p := c.payload
    (c.opcode = 0x30 → exec (.commandStart k) s = .next (State.settle ((s.popQueue k 1).startCmd ⟨[c.gseq], k, beAt p 4 4, beAt p 8 2, payloadSegs p,
      payloadBinds p, payloadPages p⟩))) ∧
    (c.opcode ≠ 0x30 → exec (.commandStart k) s = .next (State.settle ((s.popQueue k 1).startCmd ⟨[c.gseq], k, beAt p 4 4,
      (((s.image (beAt p 4 4)).bind s.descr).map (·.scoreSchedule)).getD 0, [⟨beAt p 12 1, 0, beAt p 12 1⟩], [], []⟩)))) ∧
  (∀ (s : State) (k : Fin 4) (n : Nat) (q : Prompt) (qs : List Prompt) (g : Image) (d : Descr), s.frontPrompts k = q :: qs → s.ctx k = none →
    s.mayStart = true → s.image q.imageId = some g → s.descr g = some d →
    let all := q :: qs
    let due := d.chunkTarget ≤ (all.map fun p => (p.tokens.getD []).length).sum ∨ ∃ p ∈ all, p.expired = true
    (s.isHead = true → due → exec (.chunkStart k n) s = .next (s.startChunk k (s.foldCount g d all []) g d).settle) ∧
    (s.isHead = true → ¬due → exec (.chunkStart k n) s = .next s.settle) ∧
    (s.isHead = false → exec (.chunkStart k n) s = .next (s.startChunk k (min (max n 1) all.length) g d).settle)) ∧
  (∀ (s : State) (n : Nat) (c : CmdRec), s.cmd n = some c →
    (c.prompt ≠ none → c.state = 0 → exec (.maxHold n) s = .next (State.settle ((s.modCmd n fun x =>
      { x with prompt := x.prompt.map fun p => { p with expired := true } }).formChunk c.cls 1))) ∧
    (c.prompt = none ∨ c.state ≠ 0 → exec (.maxHold n) s = .next s)) ∧
  (∀ (s : State) (k : Fin 4) (x : Ctx), s.ctx k = some x → x.draining = true → x.frozen = false →
    (∀ c ∈ s.slotCores k, ∀ u < 8, ((s.core c).unit u).cur = none) → exec (.contextFreeze k) s = .next (s.freezeCtx k).settle)

/-! ### Ethernet, resets and the board -/

/-- A frame over a port that is up is counted and, while the device dozes, wakes it: a request for the port's own address is answered, with the data
or with the own MAC address, and one for another address is not; a frame outside R311 is counted; a PFC frame is counted and pauses or resumes a
priority of `PFC_EN`. Over a port that is down nothing happens. A port whose address fields are written comes up and what waits goes on; one that goes
down shows it, with its record, and prompts whose KV has no other way fail. Where the spec leaves it open this is the model's choice: assumption log,
entries 146 to 148, 178. -/
def Obligations.EthernetServices : Prop :=
  ∀ (s : State),
    (∀ f : State → State, s.brd.booted = true → s.ethUp = true → s.frameIn f = f ((s.count48 (.eth 0) 0x48 1).wakeOn)) ∧
    (∀ f : State → State, s.brd.booted = false ∨ s.ethUp = false → s.frameIn f = s) ∧
    (∀ (v6 : Bool) (a b : Nat) (data : List Byte),
      exec (.icmpEcho v6 a b data) s = .next (s.frameIn fun t => if t.ownAddr v6 a = true then (t.count48 (.eth 0) 0x40 1).emit (.frame 0 b data) else t) ∧
      exec (.arpRequest v6 a b) s = .next (s.frameIn fun t => if t.ownAddr v6 a = true then
        (t.count48 (.eth 0) 0x40 1).emit (.frame 1 b (beBytes 2 (t.rfield (.eth 0) 0x18 0 16) ++ beBytes 4 (t.rget (.eth 0) 0x14).toNat)) else t)) ∧
    (∀ a, s.ownAddr false a = true ↔ a ≠ 0 ∧ a = (s.rget (.eth 0) 0x24).toNat) ∧
    exec .unsupportedFrame s = .next (s.frameIn fun t => t.count48 (.eth 0) 0x50 1) ∧
    (∀ (k : Fin 8) (on : Bool), exec (.pfcPause k on) s = .next (s.frameIn fun t => t.pfcIn k on)) ∧
    (∀ (k : Fin 8) (on : Bool), bitOf (s.rfield (.eth 0) 0xC 16 8) k = false → s.pfcIn k on = s.count48 (.eth 0) 0x58 1) ∧
    (∀ (k : Fin 8) (on : Bool), bitOf (s.rfield (.eth 0) 0xC 16 8) k = true → ∃ t : State,
      s.pfcIn k on = t.portGo ∧ t.svc.paused.testBit k = on ∧ (∀ j, j ≠ k.val → t.svc.paused.testBit j = s.svc.paused.testBit j)) ∧
    (∀ full, s.addressed = true → s.brd.booted = true → s.brd.deep = false → s.regsWf → ∃ t : State, exec (.ethPortUp full) s = .next t.portGo.settle ∧
      t.rfield (.eth 0) 4 1 2 = (if full then 1 else 2) ∧ t.svc.relayed = false ∧ 9 ∈ t.brd.steps ∧ t.svc.conns = s.svc.conns ∧ t.mem = s.mem) ∧
    (∀ full, s.addressed = false ∨ s.brd.booted = false ∨ s.brd.deep = true → exec (.ethPortUp full) s = .next s) ∧
    (s.ethUp = false → exec .ethPortDown s = .next s.settle) ∧
    (s.ethUp = true →
      let t := ((s.rput (.eth 0) 4 1 2 0).ror (.eth 0) 4 16).modSvc fun v => { v with paused := 0 }
      let u := t.raise St.islEth (t.newRec St.clsLink St.linkPortDown unitEth 0 0)
      let by_ := u.edgeUp 0 && decide (u.nextFree % 2 = 1)
      let w := (u.modSvc fun v => { v with relayed := by_ }).drawFree
      exec .ethPortDown s = .next (if by_ = true then w.portGo.settle
        else State.settle ((w.svc.egress.map (·.gseq)).foldl (fun x g => x.failPrompt g St.egressPortDown 0) w)))

/-- A connection for KV egress: a good reply to its request makes it ready with the region that it names, and its prompts send; a rejection or a reply
that is not good, and a request unanswered for the third time, fail it with cause 1. An acknowledgement releases what it covers; a timeout, a sequence
NAK or the end of a receiver's wait sends what is unacknowledged again; too many retries (cause 2), an access NAK (3) and too many receiver waits (4)
fail it. A CNP halves its rate at most once in 50 µs, and 50 µs without one raise it. Where the spec leaves it open this is the model's choice:
assumption log, entries 149, 150, 178. -/
def Obligations.RoceConnections : Prop :=
  ∀ (s : State) (i : Fin 64),
    let x := s.conn i
    let seen := (s.count48 (.eth 0) 0x48 1).wakeOn
    let up := s.brd.booted = true ∧ s.ethUp = true
    (∀ p, up → x.st = .requested → seen.conn i = x →
      (∀ va key len, regionOfRep p = some (va, key, len) → exec (.rep i p) s =
        .next (State.settle (((seen.modConn i fun y => { y with st := .ready, va := va, rkey := key, len := len }).emit (.cm i 1)).connPrompts i))) ∧
      (regionOfRep p = none → exec (.rep i p) s = .next ((seen.emit (.cm i 2)).connFails i 1).settle) ∧
      exec (.rej i) s = .next (seen.connFails i 1).settle) ∧
    (x.st = .requested →
      (x.reqs < 3 → exec (.reqRetry i) s = .next (State.settle ((s.setConn i { x with reqs := x.reqs + 1 }).emit (.cm i 0)))) ∧
      (3 ≤ x.reqs → exec (.reqRetry i) s = .next (s.connFails i 1).settle)) ∧
    (∀ psn, up → exec (.roceAck i psn) s = .next (State.settle (((seen.ackUpTo i ((psn + 1) % 2 ^ 24)).connGo i).connPrompts i))) ∧
    (∀ psn k, up → exec (.roceNak i psn k) s = .next (State.settle ((seen.nakIn i psn k).connPrompts i))) ∧
    (∀ psn, x.st = .ready →
      let t := (s.count48 (.eth 1) 0x38 1).ackUpTo i (psn % 2 ^ 24)
      let n := if (t.conn i).acked = x.acked then x.rnrs else 0
      s.nakIn i psn .access = t.connFails i 3 ∧
      (field (t.conn i).ctrl.toNat 8 3 ≤ n → s.nakIn i psn .rnr = t.connFails i 4) ∧
      (n < field (t.conn i).ctrl.toNat 8 3 → s.nakIn i psn .rnr = t.modConn i fun y => { y with rnrs := n + 1, rnrWait := true })) ∧
    (x.st = .ready → x.unacked ≠ [] →
      (field x.ctrl.toNat 5 3 ≤ x.retries → exec (.roceAckTimeout i) s = .next (s.connFails i 2).settle) ∧
      (x.retries < field x.ctrl.toNat 5 3 → exec (.roceAckTimeout i) s =
        .next (State.settle ((s.setConn i { x with retries := x.retries + 1 }).resendConn i)))) ∧
    (x.rnrWait = true → exec (.rnrWait i) s = .next ((s.resendConn i).connGo i).settle) ∧
    (∀ n, x.st = .ready → n ≤ x.inFlight → 0 < n →
      let t := s.ackUpTo i ((x.acked + n) % 2 ^ 24)
      x.acked < 2 ^ 24 → (t.conn i).acked = (x.acked + n) % 2 ^ 24 ∧ (t.conn i).retries = 0 ∧
        (∀ m ∈ x.unacked, m ∈ (t.conn i).unacked ↔ n < (m.psn + m.packets + 2 ^ 24 - x.acked) % 2 ^ 24)) ∧
    (up → x.st = .ready → seen.conn i = x → seen.aonClk = s.aonClk →
      let t := seen.count48 (.eth 1) 0x40 1
      (x.cnpAt = 0 ∨ x.cnpAt + 5000 ≤ s.aonClk → exec (.cnp i) s = .next (t.setConn i { x with rate := x.rate / 2, cnpAt := max s.aonClk 1 })) ∧
      (x.cnpAt ≠ 0 → s.aonClk < x.cnpAt + 5000 → exec (.cnp i) s = .next t)) ∧
    (x.st = .ready → x.cnpAt + 5000 ≤ s.aonClk → exec (.rateIncrease i) s =
      .next (s.setConn i { x with rate := min fullRate (x.rate + field x.ctrl.toNat 16 8 * (fullRate / 100)) }))

/-- Resets: a power-on reset clears everything but the fuses; a device reset keeps the error log, the record number, the always-on clock and the
fuses, clears memory and all work, and counts itself; a rail that falls ends all work, and the last one that comes back lets the part boot. The part
boots its first firmware slot that is good, else it halts. Start-up: training of the memory shows the channels that came up, and one that failed
leaves the device out with its record; a lower tree that has been generated is in use, its signer leaf spent; once every port has been tried, memory
and tree are done, the failed cores are fenced and the device may join. The end of a period of R401 lets a generation start when the leaves run low.
Where the spec leaves it open this is the model's choice: assumption log, entries 151 to 154, 158 to 161. -/
def Obligations.ResetsAndStartUp : Prop :=
  (∀ s : State,
     (∃ t, exec .powerOnReset s = .next t ∧ t.sec.fuses = s.sec.fuses ∧ t.brd.pwrgood = true ∧ t.brd.resetN = false ∧ t.brd.booted = false ∧
       t.mem = Mem.empty ∧ t.err.log = [] ∧ t.aonClk = 0 ∧ t.cores = State.reset.cores ∧ t.rfield .aon 4 1 4 = 0) ∧
     (∃ t, exec .pwrgoodFall s = .next t ∧ t.sec.fuses = s.sec.fuses ∧ t.brd.pwrgood = false ∧ t.brd.booted = false ∧ t.mem = Mem.empty ∧
       t.cores = State.reset.cores) ∧
     (s.brd.pwrgood = true → s.brd.resetN = true → s.brd.thermtrip = false → ∃ t, exec .deviceReset s = .next t ∧ t.sec.fuses = s.sec.fuses ∧
       t.err.log = s.err.log ∧ t.err.nextSeq = s.err.nextSeq ∧ t.aonClk = s.aonClk ∧ t.mem = Mem.empty ∧ t.brd.resetN = false ∧
       t.brd.booted = false ∧ (s.regsWf → t.rfield .aon 0xC 0 16 = min (s.rfield .aon 0xC 0 16 + 1) 0xFFFF)) ∧
     (∀ r : Fin 8, s.brd.pwrgood = true → ∃ t, exec (.brownoutReset r) s = .next t ∧ r.val ∈ t.brd.brownRails ∧ t.sec.fuses = s.sec.fuses ∧
       (s.brd.resetN = true ∨ r = 6 → t.brd.booted = false ∧ t.mem = Mem.empty) ∧
       (s.brd.resetN = true → r ≠ 6 → t.err.log = s.err.log ∧ t.err.nextSeq = s.err.nextSeq ∧ t.aonClk = s.aonClk)) ∧
     (∀ pins f, s.brd.pwrgood = true → s.brd.resetN = false →
       exec (.resetNRise pins f) s = .next (({ s with brd := { s.brd with resetN := true } } : State).leaveReset pins f)) ∧
     (∀ (r : Fin 8) (pins : Pins) (f : Flash), s.brd.brownRails = [r.val] → s.brd.pwrgood = true → s.brd.resetN = true →
       exec (.railInRange r pins f) s = .next ((({ s with brd := { s.brd with brownRails := [] } } : State).startSt 0 0).leaveReset pins f)) ∧
     (∀ (pins : Pins) (f : Flash), pins.testMode = false → s.brd.thermtrip = false → s.brd.brownRails = [] →
       let t : State := { s.rset .aon 8 (BitVec.ofNat 32 (put pins.index 0 6 + put (b01 pins.head) 6 1 + put pins.bootSrc 8 2)) with devIndex := pins.index }
       s.leaveReset pins f = t.boot pins f) ∧
     (∀ (pins : Pins) (f : Flash),
       let t := (s.toSt 1).startSt 0 0
       t.sec.fuses.lifecycle = 1 ∨ t.sec.fuses.lifecycle = 2 → pins.bootSrc ≠ 2 → pins.bootSrc ≠ 3 →
       (t.slotBoots f f.slotA = true → s.boot pins f = t.bootFrom pins f f.slotA false) ∧
       (t.slotBoots f f.slotA = false → (t.bootRec 0).slotBoots f f.slotB = true → s.boot pins f = (t.bootRec 0).bootFrom pins f f.slotB true) ∧
       (t.slotBoots f f.slotA = false → (t.bootRec 0).slotBoots f f.slotB = false →
         s.boot pins f = ((t.bootRec 0).bootRec 1).halt St.imageSignatureInvalid 1))) ∧
  (∀ s : State,
     (∀ failed : List (Fin 80), s.brd.booted = true → 8 ∉ s.brd.steps → ∃ t, exec (.memoryTrained failed) s = .next t ∧ 8 ∈ t.brd.steps ∧ 10 ∈ t.brd.steps ∧
       (s.regsWf → ∀ g < 8, ∀ c < 10, bitOf (t.rget (.mem g) 4).toNat (2 + c) = !((failed.map (·.val)).contains (10 * g + c))) ∧
       (t.grp.left = true ↔ s.grp.left = true ∨ failed ≠ []) ∧ (failed ≠ [] → s.regsWf → t.leftOut = true)) ∧
     (∀ failed, s.brd.booted = false ∨ 8 ∈ s.brd.steps → exec (.memoryTrained failed) s = .next s) ∧
     (∀ dead, s.sec.regen = true → s.sec.fuses.topUsed + dead < 1024 → s.sec.exhaustedGen = false → ∃ t : State,
       exec (.lowerTreeGenerated dead) s = .next t.attestGo ∧ t.sec.tree = some (s.sec.fuses.topUsed + dead + 1) ∧ t.sec.leaf = 0 ∧ t.sec.regen = false ∧
         t.sec.fuses.topUsed = s.sec.fuses.topUsed + dead + 1 ∧ 11 ∈ t.brd.steps) ∧
     (∀ dead, s.sec.regen = false → exec (.lowerTreeGenerated dead) s = .next s) ∧
     (let t : State := { s with sec := { s.sec with periodOpen := true } }
      (31744 ≤ s.sec.leaf → s.sec.nextTree = false → s.sec.regen = false → s.sec.fuses.topUsed < 1024 → s.sec.tree ≠ none →
         exec .regenPeriodEnd s = .next { t with sec := { t.sec with regen := true, exhaustedGen := true, periodOpen := false } }) ∧
       (s.sec.leaf < 31744 ∨ s.sec.nextTree = true ∨ s.sec.regen = true → exec .regenPeriodEnd s = .next t)) ∧
     (s.brd.booted = true → 12 ∉ s.brd.steps → (∀ q < 8, (s.port q).tried = true) → 8 ∈ s.brd.steps → 11 ∈ s.brd.steps →
       s.leftOut = false → s.grp.left = false → s.brd.gandersLost = 0 →
       ∃ t u : State, exec (.startUpComplete [] []) s = .next u ∧ (t.grp = s.grp ∧ t.brd.steps = (((s.stepDone 5).stepDone 6).stepDone 7).brd.steps ++ [12] ∧
           t.brd.calledAt = s.aonClk ∧ t.mem = s.mem ∧ t.cores = s.cores) ∧
         (24 ≤ s.liveCores.length → u = (t.toSt 4).answerCall)) ∧
     (s.brd.booted = false ∨ 12 ∈ s.brd.steps ∨ 8 ∉ s.brd.steps ∨ 11 ∉ s.brd.steps → ∀ cs gs, exec (.startUpComplete cs gs) s = .next s))

/-- The SMBus port: reads answer status, detail, state, index, temperature, power and the unique ID, and an alerting device its address; a write with
a wrong PEC is ignored, one with another data byte or before start-up is not acknowledged, and one that is takes effect. While its supplies are out of
range the port does nothing. The boundary-scan port: the scan instructions select what drives the pins and what is captured, those that drive pins
only while every rail is in range; a register access captures the last read's data and is made with the port's rights; a password or a proof opens its
level or counts a failure; an owner slot and the password are programmed while nothing is owned or at Level 2. Where the spec leaves it open this is
the model's choice: assumption log, entries 168 to 174, 178. -/
def Obligations.BoardPorts : Prop :=
  (∀ s : State,
     let reads := [(Instr.status, s.emit (.smbus (leBytes 2 (s.rfield .aon 4 16 16)))), (.detail, s.emit (.smbus (leBytes 2 (s.rfield .aon 0x18 0 16)))),
       (.state, s.emit (.smbus (leBytes 1 (put (s.rfield .aon 4 1 4) 0 4 + put (b01 s.isHead) 4 1 + put (b01 s.grp.quiesced) 5 1)))),
       (.index, s.emit (.smbus (leBytes 1 (s.rfield .aon 8 0 7)))), (.temp, s.emit (.smbus (leBytes 2 (s.rfield (.pwr 0) 0x30 0 10)))),
       (.power, s.emit (.smbus (leBytes 2 (s.rfield (.pwr 0) 0x24 0 11)))), (.uid, s.emit (.smbus (beBytes 16 s.sec.fuses.uid))),
       (.alertResponse, if s.rfield .aon 4 16 16 ≠ 0 ∨ 400 ≤ s.rfield (.pwr 0) 0x30 0 10 ∨ s.brd.alertState = true then
         ({ s with brd := { s.brd with alertState := false } } : State).emit (.smbus [BitVec.ofNat 8 (2 * (0x40 + s.devIndex % 16))]) else s.emit .smbusNack)]
     let writes := fun (pins : Pins) (f : Flash) => [(0xD5#8, fun d ok => Instr.deepEnter d ok, if s.brd.deep = true then s else s.enterDeep), (0xE5#8, .deepExit, s.exitDeep),
       (0x5A#8, fun d ok => .reset d ok pins f, s.resetDevice.leaveReset pins f)]
     (6 ∉ s.brd.brownRails → 7 ∉ s.brd.brownRails →
       (∀ e ∈ reads, exec e.1 s = .next e.2) ∧
       ∀ pins f, ∀ e ∈ writes pins f, ∀ d,
         exec (e.2.1 d false) s = .next s ∧
         (d ≠ e.1 ∨ s.brd.thermtrip = true ∨ (s.brd.deep = false ∧ 12 ∉ s.brd.steps) → exec (e.2.1 d true) s = .next (s.emit .smbusNack)) ∧
         (s.brd.thermtrip = false → s.brd.deep = true ∨ 12 ∈ s.brd.steps → exec (e.2.1 e.1 true) s = .next e.2.2)) ∧
     (6 ∈ s.brd.brownRails ∨ 7 ∈ s.brd.brownRails →
       (∀ e ∈ reads, exec e.1 s = .next s) ∧ ∀ pins f, ∀ e ∈ writes pins f, ∀ d ok, exec (e.2.1 d ok) s = .next s)) ∧
  (∀ s : State,
     let free := fun (n : Nat) (t : State) => (t.emit (.tap n (t.nextFree % 2 ^ n))).drawFree
     let board := fun (b : List Bool) (t : State) => ({ t with brd := { t.brd with boundary := b } } : State)
     exec .idcode s = .next ((s.tapTo .idcode .normal).emit (.tap 32 0x1D48055B)) ∧
     exec .bypass s = .next ((s.tapTo .bypass .normal).emit (.tap 1 0)) ∧
     exec .tapStatus s = .next ((s.tapTo .tapStatus .normal).emit (.tap 32 (put s.sec.tapStatus 0 16 + put s.portLevel 16 2))) ∧
     (∀ b, exec (.samplePreload b) s = .next (board b (free b.length (s.tapTo .sample .normal)))) ∧
     (s.brd.pwrgood = true → s.brd.brownRails = [] →
       (∀ b, exec (.extest b) s = .next (board b (free b.length (s.tapTo .extest .extest)))) ∧
       exec .clamp s = .next ((s.tapTo .clamp .clamp).emit (.tap 1 0)) ∧ exec .highz s = .next ((s.tapTo .highz .highz).emit (.tap 1 0))) ∧
     (s.brd.pwrgood = false ∨ s.brd.brownRails ≠ [] → (∀ b, exec (.extest b) s = .next s) ∧ exec .clamp s = .next s ∧ exec .highz s = .next s) ∧
     (∀ a w p off, a < 2 ^ 48 → Page.ofAddr a = some (p, off) → ∃ (n : Nat) (t : State),
       n / 2 ^ 48 % 2 ^ 32 = s.sec.tapRead.toNat ∧ t = ((s.tapTo .regAccess .normal).emit (.tap 81 n)).drawFree ∧
       exec (.regAccess a w true) s = .next (State.settle ((t.tapSays (if t.mayWrite .tap p = true then St.ok else St.regAccessDenied)).regWrite .tap a 4 w)) ∧
       (let r := (t.tapSays (if t.mayRead .tap p = true then St.ok else St.regAccessDenied)).regRead .tap a
        exec (.regAccess a w false) s = .next { r.2 with sec := { r.2.sec with tapRead := r.1 } })) ∧
     (∀ n pw,
       let t := s.tapTo .dbgPw .normal
       (1 ≤ s.portLevel → exec (.dbgPw n pw) s = .next (t.tapSays St.ok)) ∧
       (s.portLevel = 0 → exec (.dbgPw n pw) s = .next (if t.debugLocked = false ∧ pw.length = n ∧ t.passwordOk pw = true
         then { t.debugOpened.tapSays St.ok with sec := { (t.debugOpened.tapSays St.ok).sec with tapLevel := 1 } }
         else t.debugFailed.tapSays St.authFailed))) ∧
     (let c := (s.tapTo .dbgChal .normal).challenge 0
      exec .dbgChal s = .next (c.2.emit (.tap 512 (leNat c.1)))) ∧
     (∀ r ok,
       let t := s.tapTo .dbgResp .normal
       let u := t.modSvc fun v => { v with challenges := v.challenges.filter (·.session != 0) }
       (2 ≤ s.portLevel → exec (.dbgResp r ok) s = .next (t.tapSays St.ok)) ∧
       (s.portLevel < 2 → t.debugLocked = false → t.challengeValid 0 = true → t.signerActive (beAt r 0 1) = true → ok = true →
         exec (.dbgResp r ok) s = .next { u.debugOpened.tapSays St.ok with sec := { (u.debugOpened.tapSays St.ok).sec with tapLevel := 2 } }) ∧
       (s.portLevel < 2 → t.debugLocked = true ∨ t.challengeValid 0 = false ∨ t.signerActive (beAt r 0 1) = false ∨ ok = false →
         exec (.dbgResp r ok) s = .next (u.debugFailed.tapSays St.authFailed))) ∧
     (∀ (k : Fin 4) e h, s.mayFuse = true → (s.sec.fuses.owners[k]).programmed = false → ∃ t, exec (.otpOwner (k.val + 1) e h) s = .next t ∧
       t.sec.fuses.owners[k] = { s.sec.fuses.owners[k] with programmed := true, ecdsa := e % 2 ^ 384, hss := h % 2 ^ 384 } ∧
       (∀ j : Fin 4, j ≠ k → t.sec.fuses.owners[j] = s.sec.fuses.owners[j]) ∧ t.sec.tapStatus = St.ok ∧ t.mem = s.mem ∧ t.regs = s.regs) ∧
     (∀ (k : Fin 4) e h, s.mayFuse = false ∨ (s.sec.fuses.owners[k]).programmed = true → exec (.otpOwner (k.val + 1) e h) s =
       .next ((s.tapTo .otpOwner .normal).tapSays St.authFailed)) ∧
     (∀ d, s.mayFuse = true → ∃ t, exec (.otpPw d) s = .next t ∧ t.sec.fuses = { s.sec.fuses with password := s.sec.fuses.password ||| d % 2 ^ 384 } ∧
       t.sec.tapStatus = St.ok ∧ t.mem = s.mem ∧ t.regs = s.regs) ∧
     (∀ d, s.mayFuse = false → exec (.otpPw d) s = .next ((s.tapTo .otpPw .normal).tapSays St.authFailed)))

end
end

