-- ==== Sys2Proof/Laws/Sparse.lean ====
section
/-! SUPPORT. Laws of the sparse tables: reading after writing, and the canonical form that every write keeps. -/

namespace Sys2Proof.Machine

variable {β : Type} [DecidableEq β] {d : β}

/-- A bound on the keys may be lowered. -/
theorem swfFrom_mono {t : List (Nat × β)} {lo lo' : Nat} (h : lo' ≤ lo) (w : swfFrom d lo t = true) : swfFrom d lo' t = true := by
  cases t with
  | nil => rfl
  | cons e t =>
    simp only [swfFrom, Bool.and_eq_true, decide_eq_true_eq] at w ⊢
    exact ⟨⟨le_trans h w.1.1, w.1.2⟩, w.2⟩

/-- Writing a key at or above the bound keeps the canonical form. -/
theorem swfFrom_sset {t : List (Nat × β)} {lo k : Nat} (v : β) (w : swfFrom d lo t = true) (h : lo ≤ k) :
    swfFrom d lo (sset d t k v) = true := by
  induction t generalizing lo with
  | nil => by_cases hv : v = d <;> simp [sset, hv, swfFrom, h]
  | cons e t ih =>
    obtain ⟨a, b⟩ := e
    simp only [swfFrom, Bool.and_eq_true, decide_eq_true_eq] at w
    obtain ⟨⟨ha, hb⟩, ht⟩ := w
    unfold sset
    split
    · split
      · simp [swfFrom, ha, hb, ht]
      · simp [swfFrom, *]
    · split
      · subst_vars
        split
        · exact swfFrom_mono (by omega) ht
        · simp [swfFrom, *]
      · simp only [swfFrom, Bool.and_eq_true, decide_eq_true_eq]
        exact ⟨⟨ha, hb⟩, ih ht (by omega)⟩

/-- Writing keeps the canonical form. -/
theorem swf_sset {t : List (Nat × β)} (k : Nat) (v : β) (w : swf d t = true) : swf d (sset d t k v) = true :=
  swfFrom_sset v w (Nat.zero_le k)

/-- Writing many values keeps the canonical form. -/
theorem swf_ssetMany (step : Nat) (vs : List β) : ∀ {t : List (Nat × β)} (k : Nat), swf d t = true →
    swf d (ssetMany d t step k vs) = true := by
  induction vs with
  | nil => exact fun _ w => w
  | cons v vs ih => exact fun k w => ih _ (swf_sset k v w)

/-- Dropping keys keeps the canonical form above any bound. -/
theorem swfFrom_sdrop (p : Nat → Bool) {t : List (Nat × β)} : ∀ {lo : Nat}, swfFrom d lo t = true → swfFrom d lo (sdrop p t) = true := by
  induction t with
  | nil => exact fun w => w
  | cons e t ih =>
    intro lo w
    simp only [swfFrom, Bool.and_eq_true, decide_eq_true_eq] at w
    unfold sdrop
    split
    · exact swfFrom_mono (by omega) (ih w.2)
    · simp [swfFrom, w.1.1, w.1.2, ih w.2]

/-- Dropping keys keeps the canonical form. -/
theorem swf_sdrop (p : Nat → Bool) {t : List (Nat × β)} (w : swf d t = true) : swf d (sdrop p t) = true := swfFrom_sdrop p w

/-- A key below the bound is not listed. -/
theorem sget_below {t : List (Nat × β)} {lo k : Nat} (w : swfFrom d lo t = true) (h : k < lo) : sget d t k = d := by
  induction t generalizing lo with
  | nil => rfl
  | cons e t ih =>
    simp only [swfFrom, Bool.and_eq_true, decide_eq_true_eq] at w
    rw [sget, if_neg (by omega), ih w.2 (by omega)]

/-- The value written is read back, and every other key reads as before. -/
theorem sget_sset {t : List (Nat × β)} {lo : Nat} (k : Nat) (v : β) (w : swfFrom d lo t = true) (j : Nat) :
    sget d (sset d t k v) j = if j = k then v else sget d t j := by
  induction t generalizing lo with
  | nil =>
    by_cases hv : v = d <;> by_cases hj : j = k <;> simp [sset, hv, sget, hj, eq_comm]
    exact fun e => absurd e.symm hj
  | cons e t ih =>
    obtain ⟨a, b⟩ := e
    simp only [swfFrom, Bool.and_eq_true, decide_eq_true_eq] at w
    unfold sset
    split
    · rename_i hk
      split
      · by_cases hj : j = k
        · subst hj; subst_vars
          rw [if_pos rfl, sget, if_neg (by omega), sget_below w.2 (by omega)]
        · simp [hj]
      · by_cases hj : j = k
        · simp [sget, hj]
        · rw [sget, if_neg (fun e => hj e.symm), if_neg hj]
    · split
      · subst_vars
        by_cases hj : j = a
        · subst hj
          split
          · subst_vars; rw [if_pos rfl, sget_below w.2 (by omega)]
          · simp [sget]
        · split <;> simp [sget, Ne.symm hj]
      · by_cases hj : j = a
        · subst hj; simp [sget, *]; intro e; exact absurd e.symm (by assumption)
        · simp [sget, Ne.symm hj, ih w.2]

end Sys2Proof.Machine
end

