-- ==== Sys2Proof/Laws/Keep.lean ====
section
/-! SUPPORT. `Keep s₀ s`: what no operation of the model undoes between the states `s₀` and `s`. One lemma per operation says that it keeps it. -/

namespace Sys2Proof.Machine

/-- `Keep` by components. -/
structure KeepQ (s₀ : State) (pending : List Instr) (out : List Output) (freeCtr : Nat) (cells : List Host.Cell)
    (synd : List (Nat × BitVec 7)) (gran : List (Nat × Bool)) (regs force : List (Nat × Word)) (fuses : Fuses) : Prop where
  pending : pending = s₀.pending
  out : s₀.out <+: out
  freeCtr : s₀.freeCtr ≤ freeCtr
  cells : s₀.canonical → swf 0#8 cells = true
  synd : s₀.canonical → swf 0#7 synd = true
  gran : s₀.canonical → swf false gran = true
  regs : s₀.canonical → swf 0#32 regs = true
  force : s₀.canonical → swf 0#32 force = true
  fuses : s₀.sec.fuses.Grows fuses

/-- The queue of waiting commands is as in `s₀`, what was sent is still in the record of what was sent, no free value is drawn twice, the canonical forms
hold if they held in `s₀`, and nothing programmed into the fuses is undone. -/
def Keep (s₀ s : State) : Prop := KeepQ s₀ s.pending s.out s.freeCtr s.mem.cells s.mem.synd s.mem.gran s.regs s.force s.sec.fuses

theorem Owner.grows_refl (a : Owner) : a.grows a := ⟨fun h => ⟨h, rfl, rfl⟩, fun h => h⟩

theorem Fuses.Grows.refl (a : Fuses) : a.Grows a := ⟨rfl, rfl, ⟨rfl, rfl⟩, fun _ => Owner.grows_refl _, le_refl _, fun h => ⟨le_refl _, h⟩⟩

theorem Keep.refl (s : State) : Keep s s :=
  ⟨rfl, List.prefix_refl _, le_refl _, fun h => h.1.1, fun h => h.1.2.1, fun h => h.1.2.2, fun h => h.2.1, fun h => h.2.2, Fuses.Grows.refl _⟩

theorem Keep.fold {s₀ s : State} (h : Keep s₀ s) : KeepQ s₀ s.pending s.out s.freeCtr s.mem.cells s.mem.synd s.mem.gran s.regs s.force s.sec.fuses := h

/-- What every turn of a fold keeps, the fold keeps. -/
theorem foldl_keeps {α σ : Type} {P : σ → Prop} {g : σ → α → σ} (hg : ∀ s a, P s → P (g s a)) (l : List α) :
    ∀ {s : σ}, P s → P (l.foldl g s) := by
  induction l with
  | nil => exact fun h => h
  | cons a l ih => exact fun h => ih (hg _ _ h)

theorem Keep.foldl {α : Type} {s₀ s : State} {g : State → α → State} (l : List α) (hg : ∀ s a, Keep s₀ s → Keep s₀ (g s a))
    (h : Keep s₀ s) : Keep s₀ (l.foldl g s) := foldl_keeps (P := Keep s₀) hg l h

theorem Keep.foldl_fst {α β : Type} {s₀ : State} {p : State × β} {g : State × β → α → State × β} (l : List α)
    (hg : ∀ p a, Keep s₀ p.1 → Keep s₀ (g p a).1) (h : Keep s₀ p.1) : Keep s₀ (l.foldl g p).1 :=
  foldl_keeps (P := fun p : State × β => Keep s₀ p.1) hg l h

theorem Keep.foldl_snd {α β : Type} {s₀ : State} {p : β × State} {g : β × State → α → β × State} (l : List α)
    (hg : ∀ p a, Keep s₀ p.2 → Keep s₀ (g p a).2) (h : Keep s₀ p.2) : Keep s₀ (l.foldl g p).2 :=
  foldl_keeps (P := fun p : β × State => Keep s₀ p.2) hg l h

theorem keep_rset {s₀ s : State} (p : Page) (off : Nat) (v : Word) (h : Keep s₀ s) : Keep s₀ (s.rset p off v) :=
  ⟨h.pending, h.out, h.freeCtr, h.cells, h.synd, h.gran, fun c => swf_sset _ _ (h.regs c), h.force, h.fuses⟩

theorem keep_rsetForce {s₀ s : State} (p : Page) (off : Nat) (v : Word) (h : Keep s₀ s) : Keep s₀ (s.rsetForce p off v) :=
  ⟨h.pending, h.out, h.freeCtr, h.cells, h.synd, h.gran, h.regs, fun c => swf_sset _ _ (h.force c), h.fuses⟩

theorem keep_drawFree {s₀ s : State} (h : Keep s₀ s) : Keep s₀ s.drawFree :=
  ⟨h.pending, h.out, Nat.le_succ_of_le h.freeCtr, h.cells, h.synd, h.gran, h.regs, h.force, h.fuses⟩

theorem keep_emit {s₀ s : State} (o : Output) (h : Keep s₀ s) : Keep s₀ (s.emit o) :=
  ⟨h.pending, h.out.trans (List.prefix_append _ _), h.freeCtr, h.cells, h.synd, h.gran, h.regs, h.force, h.fuses⟩

theorem keep_emits {s₀ s : State} (os : List Output) (h : Keep s₀ s) : Keep s₀ (s.emits os) :=
  ⟨h.pending, h.out.trans (List.prefix_append _ _), h.freeCtr, h.cells, h.synd, h.gran, h.regs, h.force, h.fuses⟩

theorem Mem.wf_setWord {m : Mem} (a : Nat) (w : Word) (y : BitVec 7) (h : m.wf) : (m.setWord a w y).wf :=
  ⟨swf_ssetMany _ _ _ h.1, swf_sset _ _ h.2.1, h.2.2⟩

theorem Mem.wf_granules {m : Mem} (a : Nat) (ws : List PWord) (h : m.wf) : (m.granules a ws).wf := by
  unfold Mem.granules
  refine foldl_keeps (P := Mem.wf) (fun m i h => ?_) _ h
  dsimp only
  split
  · exact ⟨h.1, h.2.1, swf_sset _ _ h.2.2⟩
  · split
    · exact ⟨h.1, h.2.1, swf_sset _ _ h.2.2⟩
    · exact h

/-! ### Updates of one component -/

theorem Keep.updDraw {s₀ s : State} (n : Nat) (h : Keep s₀ s) :
    KeepQ s₀ s.pending s.out (s.freeCtr + n) s.mem.cells s.mem.synd s.mem.gran s.regs s.force s.sec.fuses :=
  ⟨h.pending, h.out, Nat.le_add_right_of_le h.freeCtr, h.cells, h.synd, h.gran, h.regs, h.force, h.fuses⟩

theorem Keep.updMem {s₀ s : State} (m : Mem) (hm : s.mem.wf → m.wf) (h : Keep s₀ s) :
    KeepQ s₀ s.pending s.out s.freeCtr m.cells m.synd m.gran s.regs s.force s.sec.fuses :=
  ⟨h.pending, h.out, h.freeCtr, fun c => (hm ⟨h.cells c, h.synd c, h.gran c⟩).1, fun c => (hm ⟨h.cells c, h.synd c, h.gran c⟩).2.1,
    fun c => (hm ⟨h.cells c, h.synd c, h.gran c⟩).2.2, h.regs, h.force, h.fuses⟩

theorem Keep.updWord {s₀ s : State} (a : Nat) (w : Word) (y : BitVec 7) (h : Keep s₀ s) :
    KeepQ s₀ s.pending s.out s.freeCtr (s.mem.setWord a w y).cells (s.mem.setWord a w y).synd (s.mem.setWord a w y).gran s.regs s.force
      s.sec.fuses := h.updMem _ (Mem.wf_setWord a w y)

theorem Keep.updGranules {s₀ s : State} (a : Nat) (ws : List PWord) (h : Keep s₀ s) :
    KeepQ s₀ s.pending s.out s.freeCtr (s.mem.granules a ws).cells (s.mem.granules a ws).synd (s.mem.granules a ws).gran s.regs s.force
      s.sec.fuses := h.updMem _ (Mem.wf_granules a ws)

theorem Keep.updGran {s₀ s : State} (g : Nat) (b : Bool) (h : Keep s₀ s) :
    KeepQ s₀ s.pending s.out s.freeCtr s.mem.cells s.mem.synd (sset false s.mem.gran g b) s.regs s.force s.sec.fuses :=
  ⟨h.pending, h.out, h.freeCtr, h.cells, h.synd, fun c => swf_sset _ _ (h.gran c), h.regs, h.force, h.fuses⟩

end Sys2Proof.Machine
end

