-- ==== Sys2Proof/Laws/KeepFacts.lean ====
section
/-! SUPPORT. `Keep` of outcomes, of pairs and of the pieces of a state that single operations replace. -/

namespace Sys2Proof.Machine

open Sys2Proof

/-- The next state of an outcome keeps what `Keep` says. -/
def KeepO (s₀ : State) (o : Host.Outcome State Fault Refusal) : Prop :=
  match o with
  | .next s => Keep s₀ s
  | _ => True

theorem KeepO.next {s₀ s : State} (h : Keep s₀ s) : KeepO s₀ (.next s) := h

theorem KeepO.refused {s₀ : State} {r : Refusal} : KeepO s₀ (.refused r) := trivial

theorem Keep.updDraw2 {s₀ s : State} (n m : Nat) (h : Keep s₀ s) :
    KeepQ s₀ s.pending s.out (s.freeCtr + n + m) s.mem.cells s.mem.synd s.mem.gran s.regs s.force s.sec.fuses := by
  rw [Nat.add_assoc]; exact h.updDraw _

theorem Keep.mk_iff {s₀ : State} {p o fc aon dev m r f lat err cores gbars dsps ctxs links grp svc pwr sec brd} :
    Keep s₀ ⟨p, o, fc, aon, dev, m, r, f, lat, err, cores, gbars, dsps, ctxs, links, grp, svc, pwr, sec, brd⟩ ↔
      KeepQ s₀ p o fc m.cells m.synd m.gran r f sec.fuses := Iff.rfl

theorem keep_of_eq1 {α : Type} {s₀ s : State} {p : State × α} {x : α} (e : p = (s, x)) (h : Keep s₀ p.1) : Keep s₀ s := by
  subst e; exact h

theorem keep_of_eq2 {α : Type} {s₀ s : State} {p : α × State} {x : α} (e : p = (x, s)) (h : Keep s₀ p.2) : Keep s₀ s := by
  subst e; exact h

theorem keep_of_eq22 {α β : Type} {s₀ s : State} {p : α × β × State} {x : α} {y : β} (e : p = (x, y, s)) (h : Keep s₀ p.2.2) :
    Keep s₀ s := by
  subst e; exact h

theorem Owner.grows_trans {a b c : Owner} (h : a.grows b) (k : b.grows c) : a.grows c :=
  ⟨fun p => let ⟨q, e1, e2⟩ := h.1 p; let ⟨r, f1, f2⟩ := k.1 q; ⟨r, f1.trans e1, f2.trans e2⟩, fun p => k.2 (h.2 p)⟩

theorem Fuses.Grows.trans {a b c : Fuses} (h : a.Grows b) (k : b.Grows c) : a.Grows c :=
  ⟨k.uid.trans h.uid, k.lifecycle.trans h.lifecycle, ⟨k.vendor.1.trans h.vendor.1, k.vendor.2.trans h.vendor.2⟩,
    fun i => Owner.grows_trans (h.owners i) (k.owners i), h.svn.trans k.svn,
    fun p => ⟨(h.top p).1.trans (k.top (h.top p).2).1, (k.top (h.top p).2).2⟩⟩

theorem Keep.updFuses {s₀ s : State} {f : Fuses} (hf : s.sec.fuses.Grows f) (h : Keep s₀ s) :
    KeepQ s₀ s.pending s.out s.freeCtr s.mem.cells s.mem.synd s.mem.gran s.regs s.force f :=
  ⟨h.pending, h.out, h.freeCtr, h.cells, h.synd, h.gran, h.regs, h.force, h.fuses.trans hf⟩

theorem Fuses.grows_revoke (f : Fuses) (mask signer : Nat) : f.Grows (f.revoke mask signer) := by
  refine ⟨rfl, rfl, ⟨rfl, rfl⟩, fun i => ?_, le_refl _, fun h => ⟨le_refl _, h⟩⟩
  simp only [Fuses.revoke, Fin.getElem_fin, Vector.getElem_mapIdx]
  split
  · exact ⟨fun e => ⟨e, rfl, rfl⟩, fun _ => rfl⟩
  · exact Owner.grows_refl _

theorem swfFrom_maskRegs (keep : Nat → Word) {l : List (Nat × Word)} : ∀ {lo : Nat}, swfFrom 0#32 lo l = true →
    swfFrom 0#32 lo (maskRegs keep l) = true := by
  induction l with
  | nil => exact fun w => w
  | cons e l ih =>
    intro lo w
    simp only [swfFrom, Bool.and_eq_true, decide_eq_true_eq] at w
    unfold maskRegs at ih ⊢
    rw [List.filterMap_cons]
    by_cases hk : e.2 &&& keep e.1 = 0
    · simp only [hk, if_true]
      exact swfFrom_mono (by omega) (ih w.2)
    · simp only [hk, if_false, swfFrom, Bool.and_eq_true, decide_eq_true_eq]
      exact ⟨⟨w.1.1, hk⟩, ih w.2⟩

theorem swf_maskRegs (keep : Nat → Word) {l : List (Nat × Word)} (w : swf 0#32 l = true) : swf 0#32 (maskRegs keep l) = true :=
  swfFrom_maskRegs keep w

theorem swfFrom_filter {β : Type} [DecidableEq β] {d : β} (p : Nat × β → Bool) {l : List (Nat × β)} : ∀ {lo : Nat}, swfFrom d lo l = true →
    swfFrom d lo (l.filter p) = true := by
  induction l with
  | nil => exact fun w => w
  | cons e l ih =>
    intro lo w
    simp only [swfFrom, Bool.and_eq_true, decide_eq_true_eq] at w
    rw [List.filter_cons]
    split
    · simp only [swfFrom, Bool.and_eq_true, decide_eq_true_eq]
      exact ⟨w.1, ih w.2⟩
    · exact swfFrom_mono (by omega) (ih w.2)

theorem swf_filter {β : Type} [DecidableEq β] {d : β} (p : Nat × β → Bool) {l : List (Nat × β)} (w : swf d l = true) : swf d (l.filter p) = true :=
  swfFrom_filter p w

theorem Mem.wf_noBuffers {m : Mem} (h : m.wf) : m.noBuffers.wf := ⟨swf_filter _ h.1, swf_filter _ h.2.1, h.2.2⟩

theorem Mem.wf_deepKeep {m : Mem} (h : m.wf) : m.deepKeep.wf := ⟨swf_filter _ h.1, swf_filter _ h.2.1, h.2.2⟩

end Sys2Proof.Machine
end

