-- ==== Sys2Proof/Laws/KeepOps.lean ====
section
/-! SUPPORT. `Keep` for the shared operations: one lemma for each operation. -/

namespace Sys2Proof.Machine

open Sys2Proof

set_option linter.unusedTactic false
set_option linter.unreachableTactic false
set_option linter.unusedVariables false
set_option linter.unusedSimpArgs false

/-! ### RegFile -/

theorem keep_rput {s₀ s : State} (p : Page) (off : Nat) (lo : Nat) (width : Nat) (v : Nat)  (h : Keep s₀ s) : Keep s₀ (State.rput s p off lo width
    v) := by
  unfold State.rput
  repeat' first
    | with_reducible assumption
    | with_reducible apply keep_rset

theorem keep_ror {s₀ s : State} (p : Page) (off : Nat) (mask : Nat)  (h : Keep s₀ s) : Keep s₀ (State.ror s p off mask) := by
  unfold State.ror
  repeat' first
    | with_reducible assumption
    | with_reducible apply keep_rset

theorem keep_rclr {s₀ s : State} (p : Page) (off : Nat) (mask : Nat)  (h : Keep s₀ s) : Keep s₀ (State.rclr s p off mask) := by
  unfold State.rclr
  repeat' first
    | with_reducible assumption
    | with_reducible apply keep_rset

theorem keep_count48 {s₀ s : State} (p : Page) (off : Nat) (n : Nat)  (h : Keep s₀ s) : Keep s₀ (State.count48 s p off n) := by
  unfold State.count48
  repeat' first
    | with_reducible assumption
    | with_reducible apply keep_rset

theorem keep_count64 {s₀ s : State} (p : Page) (off : Nat) (n : Nat)  (h : Keep s₀ s) : Keep s₀ (State.count64 s p off n) := by
  unfold State.count64
  repeat' first
    | with_reducible assumption
    | with_reducible apply keep_rset

theorem keep_takeForce {s₀ s : State} (p : Page) (sel : RegDef → Word)  (h : Keep s₀ s) : Keep s₀ (State.takeForce s p sel) := by
  unfold State.takeForce
  repeat' first
    | with_reducible assumption
    | with_reducible apply keep_rsetForce
    | with_reducible refine Keep.foldl _ (fun _ _ _ => ?_) ?_
    | dsimp only
    | split

theorem keep_takeRw {s₀ s : State} (p : Page)  (h : Keep s₀ s) : Keep s₀ (State.takeRw s p) := by
  unfold State.takeRw
  repeat' first
    | with_reducible assumption
    | with_reducible apply keep_takeForce

theorem keep_takeRws {s₀ s : State} (p : Page)  (h : Keep s₀ s) : Keep s₀ (State.takeRws s p) := by
  unfold State.takeRws
  repeat' first
    | with_reducible assumption
    | with_reducible apply keep_takeForce

theorem keep_restoreRws {s₀ s : State} (p : Page) (old : List (Nat × Word))  (h : Keep s₀ s) : Keep s₀ (State.restoreRws s p old) := by
  unfold State.restoreRws
  repeat' first
    | with_reducible assumption
    | with_reducible apply keep_rsetForce
    | with_reducible refine Keep.foldl _ (fun _ _ _ => ?_) ?_
    | dsimp only
    | split

/-! ### Ops -/

theorem keep_toSt {s₀ s : State} (n : Nat)  (h : Keep s₀ s) : Keep s₀ (State.toSt s n) := by
  unfold State.toSt
  repeat' first
    | with_reducible assumption
    | with_reducible apply keep_rput
    | (simp only [Keep.mk_iff]; with_reducible refine Keep.fold ?_)
    | dsimp only
    | split

theorem keep_startSt {s₀ s : State} (st : Nat) (detail : Nat)  (h : Keep s₀ s) : Keep s₀ (State.startSt s st detail) := by
  unfold State.startSt
  repeat' first
    | with_reducible assumption
    | with_reducible apply keep_rput
    | with_reducible apply keep_rset

theorem keep_leaveOut {s₀ s : State} (st : Nat) (detail : Nat)  (h : Keep s₀ s) : Keep s₀ (State.leaveOut s st detail) := by
  unfold State.leaveOut
  repeat' first
    | with_reducible assumption
    | with_reducible apply keep_toSt
    | with_reducible apply keep_startSt
    | with_reducible apply keep_ror
    | split

theorem keep_setCore {s₀ s : State} (c : Nat) (x : CoreState)  (h : Keep s₀ s) : Keep s₀ (State.setCore s c x) := by
  unfold State.setCore
  repeat' first
    | with_reducible assumption
    | (simp only [Keep.mk_iff]; with_reducible refine Keep.fold ?_)
    | split

theorem keep_modCore {s₀ s : State} (c : Nat) (f : CoreState → CoreState)  (h : Keep s₀ s) : Keep s₀ (State.modCore s c f) := by
  unfold State.modCore
  repeat' first
    | with_reducible assumption
    | with_reducible apply keep_setCore

theorem keep_setGbar {s₀ s : State} (g : Nat) (v : GroupBar)  (h : Keep s₀ s) : Keep s₀ (State.setGbar s g v) := by
  unfold State.setGbar
  repeat' first
    | with_reducible assumption
    | (simp only [Keep.mk_iff]; with_reducible refine Keep.fold ?_)
    | split

theorem keep_setDsp {s₀ s : State} (n : Nat) (v : Dispense)  (h : Keep s₀ s) : Keep s₀ (State.setDsp s n v) := by
  unfold State.setDsp
  repeat' first
    | with_reducible assumption
    | (simp only [Keep.mk_iff]; with_reducible refine Keep.fold ?_)
    | split

theorem keep_setCtx {s₀ s : State} (k : Nat) (v : Option Ctx)  (h : Keep s₀ s) : Keep s₀ (State.setCtx s k v) := by
  unfold State.setCtx
  repeat' first
    | with_reducible assumption
    | (simp only [Keep.mk_iff]; with_reducible refine Keep.fold ?_)
    | split

theorem keep_modCtx {s₀ s : State} (k : Nat) (f : Ctx → Ctx)  (h : Keep s₀ s) : Keep s₀ (State.modCtx s k f) := by
  unfold State.modCtx
  repeat' first
    | with_reducible assumption
    | with_reducible apply keep_setCtx

theorem keep_setErrQueue {s₀ s : State} (i : Nat) (q : ErrQueue)  (h : Keep s₀ s) : Keep s₀ (State.setErrQueue s i q) := by
  unfold State.setErrQueue
  repeat' first
    | with_reducible assumption
    | (simp only [Keep.mk_iff]; with_reducible refine Keep.fold ?_)
    | dsimp only
    | split

theorem keep_lostRec {s₀ s : State}  (h : Keep s₀ s) : Keep s₀ (State.lostRec s) := by
  unfold State.lostRec
  repeat' first
    | with_reducible assumption
    | with_reducible apply keep_count48
    | with_reducible apply keep_ror

theorem keep_raise {s₀ s : State} (isl : Nat) (r : ErrRec)  (h : Keep s₀ s) : Keep s₀ (State.raise s isl r) := by
  unfold State.raise
  repeat' first
    | with_reducible assumption
    | with_reducible apply keep_lostRec
    | with_reducible apply keep_setErrQueue
    | with_reducible apply keep_count48
    | dsimp only
    | split

theorem keep_raiseCore {s₀ s : State} (c : Nat) (sub : Nat) (cls : Nat) (status : Nat) (addr : Nat) (detail : Nat)  (h : Keep s₀ s) : Keep s₀
    (State.raiseCore s c sub cls status addr detail) := by
  unfold State.raiseCore
  repeat' first
    | with_reducible assumption
    | with_reducible apply keep_raise

theorem keep_noteParity {s₀ s : State} (c : Nat)  (h : Keep s₀ s) : Keep s₀ (State.noteParity s c) := by
  unfold State.noteParity
  repeat' first
    | with_reducible assumption
    | with_reducible apply keep_modCore

theorem keep_noteBad {s₀ s : State} (a1 : Nat)  (h : Keep s₀ s) : Keep s₀ (State.noteBad s a1) := by
  unfold State.noteBad
  repeat' first
    | with_reducible assumption
    | (simp only [Keep.mk_iff]; with_reducible refine Keep.fold ?_)
    | dsimp only
    | split

theorem keep_noteCe {s₀ s : State} (a1 : Nat)  (h : Keep s₀ s) : Keep s₀ (State.noteCe s a1) := by
  unfold State.noteCe
  repeat' first
    | with_reducible assumption
    | (simp only [Keep.mk_iff]; with_reducible refine Keep.fold ?_)
    | dsimp only
    | split

theorem keep_noteWord {s₀ s : State} (who : UnitId) (isl : Nat) (a1 : Nat) (patrol : Nat) (cx : optParam (Option Ctx) none)  (h : Keep s₀ s) : Keep
    s₀ (State.noteWord s who isl a1 patrol cx) := by
  unfold State.noteWord
  repeat' first
    | with_reducible assumption
    | with_reducible apply keep_noteBad
    | with_reducible apply keep_rset
    | with_reducible apply keep_ror
    | with_reducible apply keep_noteCe
    | with_reducible apply keep_raise
    | with_reducible apply keep_count48
    | (simp only [Keep.mk_iff]; with_reducible refine Keep.updWord _ _ _ ?_)
    | dsimp only
    | split

theorem keep_noteWords {s₀ s : State} (who : UnitId) (isl : Nat) (a1 : Nat) (n : Nat) (cx : optParam (Option Ctx) none)  (h : Keep s₀ s) : Keep s₀
    (State.noteWords s who isl a1 n cx) := by
  unfold State.noteWords
  repeat' first
    | with_reducible assumption
    | with_reducible apply keep_noteWord
    | with_reducible refine Keep.foldl _ (fun _ _ _ => ?_) ?_

theorem keep_putWord {s₀ s : State} (a1 : Nat) (w : PWord)  (h : Keep s₀ s) : Keep s₀ (State.putWord s a1 w) := by
  unfold State.putWord
  repeat' first
    | with_reducible assumption
    | (simp only [Keep.mk_iff]; with_reducible refine Keep.updWord _ _ _ ?_)

theorem keep_mergeGranules {s₀ s : State} (a1 : Nat) (n : Nat)  (h : Keep s₀ s) : Keep s₀ (State.mergeGranules s a1 n) := by
  unfold State.mergeGranules
  repeat' first
    | with_reducible assumption
    | with_reducible apply keep_noteWord
    | with_reducible refine Keep.foldl _ (fun _ _ _ => ?_) ?_
    | (simp only [Keep.mk_iff]; with_reducible refine Keep.updGran _ _ ?_)
    | dsimp only
    | split

theorem keep_putWords {s₀ s : State} (a1 : Nat) (ws : List PWord)  (h : Keep s₀ s) : Keep s₀ (State.putWords s a1 ws) := by
  unfold State.putWords
  repeat' first
    | with_reducible assumption
    | with_reducible apply keep_putWord
    | with_reducible apply keep_mergeGranules
    | with_reducible refine Keep.foldl _ (fun _ _ _ => ?_) ?_
    | (simp only [Keep.mk_iff]; with_reducible refine Keep.updGranules _ _ ?_)
    | dsimp only
    | split

theorem keep_mergeWord {s₀ s : State} (who : UnitId) (isl : Nat) (a1 : Nat) (keep : Nat → Bool) (bytes : Nat → Byte)  (h : Keep s₀ s) : Keep s₀
    (State.mergeWord s who isl a1 keep bytes) := by
  unfold State.mergeWord
  repeat' first
    | with_reducible assumption
    | with_reducible apply keep_putWords
    | with_reducible apply keep_noteWord
    | split

theorem keep_putBytes {s₀ s : State} (who : UnitId) (isl : Nat) (a1 : Nat) (bs : List Byte)  (h : Keep s₀ s) : Keep s₀ (State.putBytes s who isl a1
    bs) := by
  unfold State.putBytes
  repeat' first
    | with_reducible assumption
    | with_reducible apply keep_putWords
    | with_reducible apply keep_mergeWord
    | dsimp only
    | split

theorem keep_poisonRange {s₀ s : State} (a1 : Nat) (nwords : Nat)  (h : Keep s₀ s) : Keep s₀ (State.poisonRange s a1 nwords) := by
  unfold State.poisonRange
  repeat' first
    | with_reducible assumption
    | with_reducible apply keep_putWords

/-! ### LinkBase -/

theorem keep_setPort {s₀ s : State} (p : Nat) (x : Port)  (h : Keep s₀ s) : Keep s₀ (State.setPort s p x) := by
  unfold State.setPort
  repeat' first
    | with_reducible assumption
    | (simp only [Keep.mk_iff]; with_reducible refine Keep.fold ?_)
    | dsimp only
    | split

theorem keep_setEthDim {s₀ s : State} (i : Nat) (x : EthDim)  (h : Keep s₀ s) : Keep s₀ (State.setEthDim s i x) := by
  unfold State.setEthDim
  repeat' first
    | with_reducible assumption
    | (simp only [Keep.mk_iff]; with_reducible refine Keep.fold ?_)
    | dsimp only
    | split

theorem keep_drainPort {s₀ a2 : State} (p : Nat) (a1 : Nat)  (h : Keep s₀ a2) : Keep s₀ (State.drainPort p a1 a2) := by
  induction a1 generalizing a2 with
  | zero =>
    unfold State.drainPort
    repeat' first
      | with_reducible assumption
      | with_reducible apply ih
      | with_reducible apply keep_setPort
      | with_reducible apply keep_count48
      | with_reducible apply keep_emit
      | dsimp only
      | split
  | succ n ih =>
    unfold State.drainPort
    repeat' first
      | with_reducible assumption
      | with_reducible apply ih
      | with_reducible apply keep_setPort
      | with_reducible apply keep_count48
      | with_reducible apply keep_emit
      | dsimp only
      | split

theorem keep_drain {s₀ s : State} (p : Nat)  (h : Keep s₀ s) : Keep s₀ (State.drain s p) := by
  unfold State.drain
  repeat' first
    | with_reducible assumption
    | with_reducible apply keep_takeRw
    | with_reducible apply keep_drainPort

theorem keep_enqueue {s₀ s : State} (p : Nat) (f : Flit)  (h : Keep s₀ s) : Keep s₀ (State.enqueue s p f) := by
  unfold State.enqueue
  repeat' first
    | with_reducible assumption
    | with_reducible apply keep_setPort
    | with_reducible apply keep_drain

theorem keep_drainEth {s₀ s : State} (i : Nat)  (h : Keep s₀ s) : Keep s₀ (State.drainEth s i) := by
  unfold State.drainEth
  repeat' first
    | with_reducible assumption
    | with_reducible apply keep_setEthDim
    | with_reducible apply keep_count48
    | with_reducible apply keep_emit
    | dsimp only
    | split

theorem keep_sendOver {s₀ s : State} (k : Nat) (sel : Bool) (f : Flit)  (h : Keep s₀ s) : Keep s₀ (State.sendOver s k sel f) := by
  unfold State.sendOver
  repeat' first
    | with_reducible assumption
    | with_reducible apply keep_setEthDim
    | with_reducible apply keep_drainEth
    | with_reducible apply keep_enqueue
    | dsimp only
    | split

theorem keep_unreachRec {s₀ s : State} (dst : Nat)  (h : Keep s₀ s) : Keep s₀ (State.unreachRec s dst) := by
  unfold State.unreachRec
  repeat' first
    | with_reducible assumption
    | with_reducible apply keep_raise

theorem keep_sendFlit {s₀ s : State} (a1 : Option Nat) (sel : Bool) (f : Flit)  (h : Keep s₀ s) : Keep s₀ (State.sendFlit s a1 sel f) := by
  unfold State.sendFlit
  repeat' first
    | with_reducible assumption
    | with_reducible apply keep_unreachRec
    | with_reducible apply keep_sendOver
    | split

theorem keep_sendSync {s₀ s : State} (dst : Nat) (sub : Nat) (ws : List Word)  (h : Keep s₀ s) : Keep s₀ (State.sendSync s dst sub ws) := by
  unfold State.sendSync
  repeat' first
    | with_reducible assumption
    | with_reducible apply keep_sendFlit
    | with_reducible refine Keep.foldl _ (fun _ _ _ => ?_) ?_

theorem keep_castOver {s₀ s : State} (k0 : Nat) (dims : Nat) (sub : Nat) (src : Nat) (ws : List Word)  (h : Keep s₀ s) : Keep s₀ (State.castOver s
    k0 dims sub src ws) := by
  unfold State.castOver
  repeat' first
    | with_reducible assumption
    | with_reducible apply keep_sendFlit
    | with_reducible apply keep_sendOver
    | with_reducible refine Keep.foldl _ (fun _ _ _ => ?_) ?_
    | dsimp only
    | split

theorem keep_broadcast {s₀ s : State} (sub : Nat) (ws : List Word)  (h : Keep s₀ s) : Keep s₀ (State.broadcast s sub ws) := by
  unfold State.broadcast
  repeat' first
    | with_reducible assumption
    | with_reducible apply keep_castOver

/-! ### HenBase -/

theorem keep_invalidate {s₀ s : State} (c : Nat)  (h : Keep s₀ s) : Keep s₀ (State.invalidate s c) := by
  unfold State.invalidate
  repeat' first
    | with_reducible assumption
    | with_reducible apply keep_modCore
    | with_reducible apply keep_count48

theorem keep_modTile {s₀ s : State} (c : Nat) (u : Nat) (f : TileRun → TileRun)  (h : Keep s₀ s) : Keep s₀ (State.modTile s c u f) := by
  unfold State.modTile
  repeat' first
    | with_reducible assumption
    | with_reducible apply keep_modCore

theorem keep_failTile {s₀ s : State} (c : Nat) (u : Nat) (status : Nat)  (h : Keep s₀ s) : Keep s₀ (State.failTile s c u status) := by
  unfold State.failTile
  repeat' first
    | with_reducible assumption
    | with_reducible apply keep_modTile

theorem keep_noteBuffer_go {s₀ s : State} (key : Nat) (a1 : Nat) (d : Nat)  (h : Keep s₀ s) : Keep s₀ (State.noteBuffer.go key a1 s d) := by
  unfold State.noteBuffer.go
  repeat' first
    | with_reducible assumption
    | with_reducible apply keep_modCore
    | (simp only [Keep.mk_iff]; with_reducible refine Keep.fold ?_)
    | dsimp only
    | split

theorem keep_noteBuffer {s₀ s : State} (key : Nat) (a1 : Nat)  (h : Keep s₀ s) : Keep s₀ (State.noteBuffer s key a1) := by
  unfold State.noteBuffer
  repeat' first
    | with_reducible assumption
    | with_reducible apply keep_noteBuffer_go
    | split

theorem keep_taintTile {s₀ s : State} (c : Nat) (u : Nat) (as : List Nat)  (h : Keep s₀ s) : Keep s₀ (State.taintTile s c u as) := by
  unfold State.taintTile
  repeat' first
    | with_reducible assumption
    | with_reducible apply keep_noteBuffer
    | with_reducible apply keep_modTile
    | with_reducible refine Keep.foldl _ (fun _ _ _ => ?_) ?_
    | dsimp only
    | split

theorem keep_waitStatus {s₀ s : State} (c : Nat) (u : Nat) (status : Nat) (own : Option Nat)  (h : Keep s₀ s) : Keep s₀ (State.waitStatus s c u
    status own) := by
  unfold State.waitStatus
  repeat' first
    | with_reducible assumption
    | with_reducible apply keep_modCtx
    | with_reducible apply keep_failTile
    | split

theorem keep_fire {s₀ s : State} (c : Nat) (t_ : Nat) (status : Nat) (own : optParam (Option Nat) none)  (h : Keep s₀ s) : Keep s₀ (State.fire s c
    t_ status own) := by
  unfold State.fire
  repeat' first
    | with_reducible assumption
    | with_reducible apply keep_waitStatus
    | with_reducible apply keep_invalidate
    | with_reducible apply keep_count48
    | with_reducible apply keep_setCore
    | dsimp only
    | split

theorem keep_lend {s₀ s : State} (c : Nat)  (h : Keep s₀ s) : Keep s₀ (State.lend s c) := by
  unfold State.lend
  repeat' first
    | with_reducible assumption
    | with_reducible apply keep_modCore
    | (simp only [Keep.mk_iff]; with_reducible refine Keep.fold ?_)

theorem keep_lendIfWaiting {s₀ s : State} (c : Nat)  (h : Keep s₀ s) : Keep s₀ (State.lendIfWaiting s c) := by
  unfold State.lendIfWaiting
  repeat' first
    | with_reducible assumption
    | with_reducible apply keep_lend
    | dsimp only
    | split

theorem keep_register {s₀ s : State} (c : Nat) (t_ : Nat) (kind : Nat) (obj : Nat) (want : Nat) (acq : Bool) (signaller : Bool) (u : Nat)  (h :
    Keep s₀ s) : Keep s₀ (State.register s c t_ kind obj want acq signaller u) := by
  unfold State.register
  repeat' first
    | with_reducible assumption
    | with_reducible apply keep_setCore
    | with_reducible apply keep_lendIfWaiting

theorem keep_wakePhase {s₀ s : State} (c : Nat) (b : Nat) (status : Nat) (own : optParam (Option Nat) none)  (h : Keep s₀ s) : Keep s₀
    (State.wakePhase s c b status own) := by
  unfold State.wakePhase
  repeat' first
    | with_reducible assumption
    | with_reducible apply keep_fire
    | with_reducible apply keep_setCore
    | with_reducible refine Keep.foldl _ (fun _ _ _ => ?_) ?_

theorem keep_releasePhase {s₀ s : State} (c : Nat) (b : Nat) (status : Nat) (own : optParam (Option Nat) none)  (h : Keep s₀ s) : Keep s₀
    (State.releasePhase s c b status own) := by
  unfold State.releasePhase
  repeat' first
    | with_reducible assumption
    | with_reducible apply keep_setCore
    | with_reducible apply keep_wakePhase

theorem keep_arrivePhase {s₀ s : State} (c : Nat) (b : Nat) (status : optParam Nat wmMet) (own : optParam (Option Nat) none)  (h : Keep s₀ s) :
    Keep s₀ (State.arrivePhase s c b status own) := by
  unfold State.arrivePhase
  repeat' first
    | with_reducible assumption
    | with_reducible apply keep_releasePhase
    | with_reducible apply keep_setCore
    | dsimp only
    | split

theorem keep_serveCredit {s₀ a2 : State} (c : Nat) (b : Nat) (a1 : Nat)  (h : Keep s₀ a2) : Keep s₀ (State.serveCredit c b a1 a2) := by
  induction a1 generalizing a2 with
  | zero =>
    unfold State.serveCredit
    repeat' first
      | with_reducible assumption
      | with_reducible apply ih
      | with_reducible apply keep_setCore
      | with_reducible apply keep_fire
      | dsimp only
      | split
  | succ n ih =>
    unfold State.serveCredit
    repeat' first
      | with_reducible assumption
      | with_reducible apply ih
      | with_reducible apply keep_setCore
      | with_reducible apply keep_fire
      | dsimp only
      | split

theorem keep_serve {s₀ s : State} (c : Nat) (b : Nat)  (h : Keep s₀ s) : Keep s₀ (State.serve s c b) := by
  unfold State.serve
  repeat' first
    | with_reducible assumption
    | with_reducible apply keep_serveCredit

theorem keep_signalDone {s₀ s : State} (c : Nat) (bar : Nat) (failed : Option Nat)  (h : Keep s₀ s) : Keep s₀ (State.signalDone s c bar failed) := by
  unfold State.signalDone
  repeat' first
    | with_reducible assumption
    | with_reducible apply keep_arrivePhase
    | split

theorem keep_gProgress {s₀ a2 : State} (g : Nat) (a1 : List Nat)  (h : Keep s₀ a2) : Keep s₀ (State.gProgress g a1 a2) := by
  induction a1 generalizing a2 with
  | nil =>
    unfold State.gProgress
    repeat' first
      | with_reducible assumption
      | with_reducible apply ih
      | with_reducible apply keep_setGbar
      | with_reducible apply keep_sendSync
      | dsimp only
      | split
  | cons x l ih =>
    unfold State.gProgress
    repeat' first
      | with_reducible assumption
      | with_reducible apply ih
      | with_reducible apply keep_setGbar
      | with_reducible apply keep_sendSync
      | dsimp only
      | split

theorem keep_addSlack {s₀ s : State} (g : Nat)  (h : Keep s₀ s) : Keep s₀ (State.addSlack s g) := by
  unfold State.addSlack
  repeat' first
    | with_reducible assumption
    | (simp only [Keep.mk_iff]; with_reducible refine Keep.fold ?_)

theorem keep_gRelease {s₀ s : State} (g : Nat) (status : Nat)  (h : Keep s₀ s) : Keep s₀ (State.gRelease s g status) := by
  unfold State.gRelease
  repeat' first
    | with_reducible assumption
    | with_reducible apply keep_fire
    | with_reducible apply keep_count48
    | with_reducible apply keep_addSlack
    | with_reducible apply keep_setGbar
    | with_reducible refine Keep.foldl _ (fun _ _ _ => ?_) ?_

theorem keep_gStep {s₀ s : State} (g : Nat)  (h : Keep s₀ s) : Keep s₀ (State.gStep s g).1 := by
  unfold State.gStep
  repeat' first
    | with_reducible assumption
    | with_reducible apply keep_gRelease
    | with_reducible apply keep_gProgress
    | with_reducible apply keep_setGbar
    | (simp only [Keep.mk_iff]; with_reducible refine Keep.fold ?_)
    | dsimp only
    | split

theorem keep_gArrive {s₀ s : State} (g : Nat)  (h : Keep s₀ s) : Keep s₀ (State.gArrive s g).1 := by
  unfold State.gArrive
  repeat' first
    | with_reducible assumption
    | with_reducible apply keep_setGbar
    | with_reducible apply keep_gStep
    | dsimp only
    | split

theorem keep_breakBar {s₀ s : State} (c : Nat) (b : Nat)  (h : Keep s₀ s) : Keep s₀ (State.breakBar s c b) := by
  unfold State.breakBar
  repeat' first
    | with_reducible assumption
    | with_reducible apply keep_setCore
    | with_reducible apply keep_fire
    | with_reducible refine Keep.foldl _ (fun _ _ _ => ?_) ?_
    | dsimp only
    | split

theorem keep_breakGbar {s₀ s : State} (g : Nat)  (h : Keep s₀ s) : Keep s₀ (State.breakGbar s g) := by
  unfold State.breakGbar
  repeat' first
    | with_reducible assumption
    | with_reducible apply keep_setGbar
    | with_reducible apply keep_fire
    | with_reducible refine Keep.foldl _ (fun _ _ _ => ?_) ?_
    | dsimp only
    | split

theorem keep_breakWatches {s₀ s : State} (c : Nat)  (h : Keep s₀ s) : Keep s₀ (State.breakWatches s c) := by
  unfold State.breakWatches
  repeat' first
    | with_reducible assumption
    | with_reducible apply keep_fire
    | with_reducible refine Keep.foldl _ (fun _ _ _ => ?_) ?_

theorem keep_breakCtx {s₀ s : State} (k : Nat)  (h : Keep s₀ s) : Keep s₀ (State.breakCtx s k) := by
  unfold State.breakCtx
  repeat' first
    | with_reducible assumption
    | with_reducible apply keep_modCore
    | with_reducible apply keep_setDsp
    | with_reducible apply keep_breakGbar
    | with_reducible apply keep_breakBar
    | with_reducible apply keep_breakWatches
    | with_reducible refine Keep.foldl _ (fun _ _ _ => ?_) ?_
    | split

/-! ### Issue -/

theorem keep_advance {s₀ s : State} (c : Nat) (u : Nat) (t_ : Nat)  (h : Keep s₀ s) : Keep s₀ (State.advance s c u t_) := by
  unfold State.advance
  repeat' first
    | with_reducible assumption
    | with_reducible apply keep_modTile
    | with_reducible apply keep_count64

theorem keep_openOp {s₀ s : State} (c : Nat) (u : Nat)  (h : Keep s₀ s) : Keep s₀ (State.openOp s c u) := by
  unfold State.openOp
  repeat' first
    | with_reducible assumption
    | with_reducible apply keep_modTile

/-! ### Image -/

theorem keep_modImage {s₀ s : State} (id : Nat) (f : Image → Image)  (h : Keep s₀ s) : Keep s₀ (State.modImage s id f) := by
  unfold State.modImage
  repeat' first
    | with_reducible assumption
    | (simp only [Keep.mk_iff]; with_reducible refine Keep.fold ?_)

/-! ### Kv -/

theorem keep_tlbDrop {s₀ s : State} (p : Nat)  (h : Keep s₀ s) : Keep s₀ (State.tlbDrop s p) := by
  unfold State.tlbDrop
  repeat' first
    | with_reducible assumption
    | with_reducible apply keep_modCore
    | with_reducible refine Keep.foldl _ (fun _ _ _ => ?_) ?_
    | split

theorem keep_setPte {s₀ s : State} (p : Nat) (e_ : Nat)  (h : Keep s₀ s) : Keep s₀ (State.setPte s p e_) := by
  unfold State.setPte
  repeat' first
    | with_reducible assumption
    | with_reducible apply keep_putWords
    | with_reducible apply keep_tlbDrop
    | split

theorem keep_allocPages {s₀ s : State} (g : Image) (owner : Nat) (ps : List Nat) (n : Nat) {t : State} (h : Keep s₀ s)
    (e : s.allocPages g owner ps n = some t) : Keep s₀ t := by
  induction ps generalizing s n with
  | nil => cases e; exact h
  | cons p ps ih =>
    revert e
    unfold State.allocPages
    split
    · rintro ⟨⟩
    · exact ih _ (keep_setPte _ _ h)

theorem keep_freePages {s₀ s : State} (owner : Nat)  (h : Keep s₀ s) : Keep s₀ (State.freePages s owner) := by
  unfold State.freePages
  repeat' first
    | with_reducible assumption
    | with_reducible apply keep_setPte
    | with_reducible refine Keep.foldl _ (fun _ _ _ => ?_) ?_
    | (simp only [Keep.mk_iff]; with_reducible refine Keep.fold ?_)
    | split

theorem keep_translate {s₀ s : State} (c owner : Nat) (write : Bool) (off : Nat) (h : Keep s₀ s) :
    Keep s₀ (s.translate c owner write off).2 := by
  have h1 : ∀ p : Nat, Keep s₀ (s.noteWords (unitCore c 0x11) (St.islCore c) (pteAddr p) 2 (s.coreCtx c)) := fun p => keep_noteWords _ _ _ _ _ h
  have h2 : ∀ (b : Bool) (p : Nat), Keep s₀ (if b then s.noteWords (unitCore c 0x11) (St.islCore c) (pteAddr p) 2 (s.coreCtx c) else s) := by
    intro b p; split <;> simp only [h, h1]
  unfold State.translate
  extract_lets p x hit r e s0 s1
  have h0 : Keep s₀ s0 := h2 _ _
  have h3 : Keep s₀ s1 := by
    simp only [s1]
    split
    · exact h0
    · split
      · exact keep_modCore _ _ h0
      · exact keep_drawFree (keep_modCore _ _ h0)
  repeat' split
  all_goals assumption

/-! ### Reply -/

theorem keep_modSvc {s₀ s : State} (f : Service → Service)  (h : Keep s₀ s) : Keep s₀ (State.modSvc s f) := by
  unfold State.modSvc
  repeat' first
    | with_reducible assumption
    | (simp only [Keep.mk_iff]; with_reducible refine Keep.fold ?_)

theorem keep_modSession {s₀ s : State} (id : Nat) (f : Session → Session)  (h : Keep s₀ s) : Keep s₀ (State.modSession s id f) := by
  unfold State.modSession
  repeat' first
    | with_reducible assumption
    | with_reducible apply keep_modSvc

theorem keep_sent {s₀ s : State} (n : Nat)  (h : Keep s₀ s) : Keep s₀ (State.sent s n) := by
  unfold State.sent
  repeat' first
    | with_reducible assumption
    | with_reducible apply keep_count48

theorem keep_notices {s₀ s : State} (opcode : Nat) (status : Nat) (payload : List Byte)  (h : Keep s₀ s) : Keep s₀ (State.notices s opcode status
    payload) := by
  unfold State.notices
  repeat' first
    | with_reducible assumption
    | with_reducible apply keep_modSession
    | with_reducible apply keep_sent
    | with_reducible apply keep_emit
    | with_reducible refine Keep.foldl _ (fun _ _ _ => ?_) ?_
    | split

theorem keep_stateNotice {s₀ s : State} (status : Nat)  (h : Keep s₀ s) : Keep s₀ (State.stateNotice s status) := by
  unfold State.stateNotice
  repeat' first
    | with_reducible assumption
    | with_reducible apply keep_notices

theorem keep_clearReply {s₀ s : State} (to_ : Nat) (session : Nat) (seq : Nat) (opcode : Nat) (r : Reply)  (h : Keep s₀ s) : Keep s₀
    (State.clearReply s to_ session seq opcode r) := by
  unfold State.clearReply
  repeat' first
    | with_reducible assumption
    | with_reducible apply keep_sent
    | with_reducible apply keep_emit

theorem keep_encReply {s₀ s : State} (to_ : Nat) (session : Nat) (seq : Nat) (opcode : Nat) (cached : Bool) (gseq : Option Nat) (r : Reply)  (h :
    Keep s₀ s) : Keep s₀ (State.encReply s to_ session seq opcode cached gseq r) := by
  unfold State.encReply
  repeat' first
    | with_reducible assumption
    | with_reducible apply keep_modSession
    | with_reducible apply keep_sent
    | with_reducible apply keep_emit
    | dsimp only
    | split

theorem keep_modCmd {s₀ s : State} (gseq : Nat) (f : CmdRec → CmdRec)  (h : Keep s₀ s) : Keep s₀ (State.modCmd s gseq f) := by
  unfold State.modCmd
  repeat' first
    | with_reducible assumption
    | with_reducible apply keep_modSvc

theorem keep_addCmd {s₀ s : State} (c : CmdRec)  (h : Keep s₀ s) : Keep s₀ (State.addCmd s c) := by
  unfold State.addCmd
  repeat' first
    | with_reducible assumption
    | with_reducible apply keep_modSvc

theorem keep_afterFinal {s₀ s : State} (c : CmdRec) (r : Reply)  (h : Keep s₀ s) : Keep s₀ (State.afterFinal s c r) := by
  unfold State.afterFinal
  repeat' first
    | with_reducible assumption
    | with_reducible apply keep_rput
    | with_reducible apply keep_takeRws
    | with_reducible apply keep_modSvc
    | (simp only [Keep.mk_iff]; with_reducible refine Keep.fold ?_)
    | dsimp only
    | split

theorem keep_finalReply {s₀ s : State} (gseq : Nat) (r : Reply)  (h : Keep s₀ s) : Keep s₀ (State.finalReply s gseq r) := by
  unfold State.finalReply
  repeat' first
    | with_reducible assumption
    | with_reducible apply keep_afterFinal
    | with_reducible apply keep_encReply
    | with_reducible apply keep_modSession
    | with_reducible apply keep_modCmd
    | dsimp only
    | split

theorem keep_toHead {s₀ s : State} (sub : Nat) (ws : List Word)  (h : Keep s₀ s) : Keep s₀ (State.toHead s sub ws) := by
  unfold State.toHead
  repeat' first
    | with_reducible assumption
    | with_reducible apply keep_sendSync
    | split

/-! ### Roce -/

theorem keep_setConn {s₀ s : State} (i : Nat) (x : Conn)  (h : Keep s₀ s) : Keep s₀ (State.setConn s i x) := by
  unfold State.setConn
  repeat' first
    | with_reducible assumption
    | with_reducible apply keep_rput
    | with_reducible apply keep_modSvc
    | dsimp only
    | split

theorem keep_modConn {s₀ s : State} (i : Nat) (f : Conn → Conn)  (h : Keep s₀ s) : Keep s₀ (State.modConn s i f) := by
  unfold State.modConn
  repeat' first
    | with_reducible assumption
    | with_reducible apply keep_setConn

theorem keep_connDrain {s₀ a2 : State} (i : Nat) (a1 : Nat)  (h : Keep s₀ a2) : Keep s₀ (State.connDrain i a1 a2) := by
  induction a1 generalizing a2 with
  | zero =>
    unfold State.connDrain
    repeat' first
      | with_reducible assumption
      | with_reducible apply ih
      | with_reducible apply keep_count48
      | with_reducible apply keep_emit
      | with_reducible apply keep_setConn
      | dsimp only
      | split
  | succ n ih =>
    unfold State.connDrain
    repeat' first
      | with_reducible assumption
      | with_reducible apply ih
      | with_reducible apply keep_count48
      | with_reducible apply keep_emit
      | with_reducible apply keep_setConn
      | dsimp only
      | split

theorem keep_connGo {s₀ s : State} (i : Nat)  (h : Keep s₀ s) : Keep s₀ (State.connGo s i) := by
  unfold State.connGo
  repeat' first
    | with_reducible assumption
    | with_reducible apply keep_connDrain

theorem keep_connPush {s₀ s : State} (i : Nat) (m : RcMsg)  (h : Keep s₀ s) : Keep s₀ (State.connPush s i m) := by
  unfold State.connPush
  repeat' first
    | with_reducible assumption
    | with_reducible apply keep_modConn

theorem keep_connFor {s₀ s : State} (rx sid : Nat) {t : State × Nat} (h : Keep s₀ s) (e : s.connFor rx sid = some t) : Keep s₀ t.1 := by
  have hf : ∀ (s : State) (i : Nat) (x : Conn) (v : Word), Keep s₀ s →
      Keep s₀ (((s.setConn i x).rsetForce (.eth 1) 4 v).emit (.cm i 0)) :=
    fun s i x v h => keep_emit _ (keep_rsetForce _ _ _ (keep_setConn _ _ h))
  revert e
  unfold State.connFor
  dsimp only
  repeat' split
  all_goals rintro ⟨⟩
  · exact h
  · exact hf _ _ _ _ h
  · exact hf _ _ _ _ (keep_emit _ h)

theorem keep_modEgress {s₀ s : State} (gseq : Nat) (f : Egress → Egress)  (h : Keep s₀ s) : Keep s₀ (State.modEgress s gseq f) := by
  unfold State.modEgress
  repeat' first
    | with_reducible assumption
    | with_reducible apply keep_modSvc

theorem keep_openEgress {s₀ s : State} (gseq : Nat) (p : Prompt) {t : State} (h : Keep s₀ s) (e : s.openEgress gseq p = some t) :
    Keep s₀ t := by
  revert e
  unfold State.openEgress
  split
  · rintro ⟨⟩; exact h
  · split
    · rintro ⟨⟩
    · rename_i s1 i e
      rintro ⟨⟩
      exact keep_modSvc _ (keep_connFor _ _ h e)

theorem keep_pushEgress {s₀ a2 : State} (gseq : Nat) (kvBase : Nat) (layers : Nat) (a1 : Nat)  (h : Keep s₀ a2) : Keep s₀ (State.pushEgress gseq
    kvBase layers a1 a2).1 := by
  induction a1 generalizing a2 with
  | zero =>
    unfold State.pushEgress
    repeat' first
      | with_reducible assumption
      | with_reducible apply ih
      | with_reducible apply keep_modEgress
      | with_reducible apply keep_connGo
      | with_reducible apply keep_connPush
      | with_reducible refine Keep.foldl _ (fun _ _ _ => ?_) ?_
      | dsimp only
      | split
  | succ n ih =>
    unfold State.pushEgress
    repeat' first
      | with_reducible assumption
      | with_reducible apply ih
      | with_reducible apply keep_modEgress
      | with_reducible apply keep_connGo
      | with_reducible apply keep_connPush
      | with_reducible refine Keep.foldl _ (fun _ _ _ => ?_) ?_
      | dsimp only
      | split

theorem keep_stopEgress {s₀ s : State} (gseq : Nat)  (h : Keep s₀ s) : Keep s₀ (State.stopEgress s gseq) := by
  unfold State.stopEgress
  repeat' first
    | with_reducible assumption
    | with_reducible apply keep_modEgress
    | with_reducible apply keep_modConn
    | split

theorem keep_dropEgress {s₀ s : State} (gseq : Nat)  (h : Keep s₀ s) : Keep s₀ (State.dropEgress s gseq) := by
  unfold State.dropEgress
  repeat' first
    | with_reducible assumption
    | with_reducible apply keep_stopEgress
    | with_reducible apply keep_modSvc

/-! ### PowerBase -/

theorem keep_noteReasons {s₀ s : State}  (h : Keep s₀ s) : Keep s₀ (State.noteReasons s) := by
  unfold State.noteReasons
  repeat' first
    | with_reducible assumption
    | with_reducible apply keep_ror

/-! ### Recover -/

theorem keep_freeSlots {s₀ s : State} (k : Nat)  (h : Keep s₀ s) : Keep s₀ (State.freeSlots s k) := by
  unfold State.freeSlots
  repeat' first
    | with_reducible assumption
    | (simp only [Keep.mk_iff]; with_reducible refine Keep.fold ?_)

theorem keep_noteAbort {s₀ s : State} (a1 : AbortNote)  (h : Keep s₀ s) : Keep s₀ (State.noteAbort s a1) := by
  unfold State.noteAbort
  repeat' first
    | with_reducible assumption
    | (simp only [Keep.mk_iff]; with_reducible refine Keep.fold ?_)

theorem keep_sendAbort {s₀ s : State} (opid : Nat) (accused : Option Nat) (cause : Nat)  (h : Keep s₀ s) : Keep s₀ (State.sendAbort s opid accused
    cause) := by
  unfold State.sendAbort
  repeat' first
    | with_reducible assumption
    | with_reducible apply keep_broadcast
    | with_reducible apply keep_noteAbort

theorem keep_releaseGrant {s₀ s : State} (c : Nat)  (h : Keep s₀ s) : Keep s₀ (State.releaseGrant s c) := by
  unfold State.releaseGrant
  repeat' first
    | with_reducible assumption
    | with_reducible apply keep_modCore
    | (simp only [Keep.mk_iff]; with_reducible refine Keep.fold ?_)

theorem keep_withdraw {s₀ s : State} (k : Nat) (broken : Bool)  (h : Keep s₀ s) : Keep s₀ (State.withdraw s k broken) := by
  unfold State.withdraw
  repeat' first
    | with_reducible assumption
    | with_reducible apply keep_modCore
    | with_reducible apply keep_fire
    | with_reducible refine Keep.foldl _ (fun _ _ _ => ?_) ?_
    | (simp only [Keep.mk_iff]; with_reducible refine Keep.fold ?_)
    | split

theorem keep_resetCtx {s₀ s : State} (k : Nat)  (h : Keep s₀ s) : Keep s₀ (State.resetCtx s k) := by
  unfold State.resetCtx
  repeat' first
    | with_reducible assumption
    | with_reducible apply keep_modCtx
    | with_reducible apply keep_modCore
    | with_reducible apply keep_releaseGrant
    | with_reducible apply keep_breakCtx
    | with_reducible apply keep_withdraw
    | with_reducible apply keep_freeSlots
    | with_reducible apply keep_sendAbort
    | with_reducible refine Keep.foldl _ (fun _ _ _ => ?_) ?_
    | dsimp only
    | split

theorem keep_endCtx {s₀ s : State} (k : Nat)  (h : Keep s₀ s) : Keep s₀ (State.endCtx s k) := by
  unfold State.endCtx
  repeat' first
    | with_reducible assumption
    | with_reducible apply keep_setCtx
    | with_reducible apply keep_setDsp
    | with_reducible apply keep_setGbar
    | with_reducible apply keep_modCore
    | with_reducible apply keep_freePages
    | with_reducible refine Keep.foldl _ (fun _ _ _ => ?_) ?_
    | (simp only [Keep.mk_iff]; with_reducible refine Keep.fold ?_)
    | dsimp only
    | split

theorem keep_tryFinal {s₀ s : State} (gseq : Nat)  (h : Keep s₀ s) : Keep s₀ (State.tryFinal s gseq) := by
  unfold State.tryFinal
  repeat' first
    | with_reducible assumption
    | with_reducible apply keep_finalReply
    | dsimp only
    | split

theorem keep_sendCommand {s₀ s : State} (gseq : Nat) (opcode : Nat) (cls : Nat) (session : Nat) (seq : Nat) (digest : Nat) (payload : List Byte) 
    (h : Keep s₀ s) : Keep s₀ (State.sendCommand s gseq opcode cls session seq digest payload) := by
  unfold State.sendCommand
  repeat' first
    | with_reducible assumption
    | with_reducible apply keep_broadcast

theorem keep_takeGseq {s₀ s : State}  (h : Keep s₀ s) : Keep s₀ (State.takeGseq s).2 := by
  unfold State.takeGseq
  repeat' first
    | with_reducible assumption
    | with_reducible apply keep_rset
    | (simp only [Keep.mk_iff]; with_reducible refine Keep.fold ?_)

theorem keep_cancelOthers {s₀ s : State} (gseq : Nat)  (h : Keep s₀ s) : Keep s₀ (State.cancelOthers s gseq) := by
  unfold State.cancelOthers
  repeat' first
    | with_reducible assumption
    | with_reducible apply keep_sendCommand
    | with_reducible apply keep_takeGseq
    | dsimp only
    | split

theorem keep_ownFinish {s₀ s : State} (gseq : Nat) (r : Reply) (recAck : Bool)  (h : Keep s₀ s) : Keep s₀ (State.ownFinish s gseq r recAck) := by
  unfold State.ownFinish
  repeat' first
    | with_reducible assumption
    | with_reducible apply keep_toHead
    | with_reducible apply keep_cancelOthers
    | with_reducible apply keep_finalReply
    | with_reducible apply keep_tryFinal
    | with_reducible apply keep_modCmd
    | dsimp only
    | split

theorem keep_mgmtDone {s₀ s : State} (gseq : Nat) (dev : Nat) (r : Reply)  (h : Keep s₀ s) : Keep s₀ (State.mgmtDone s gseq dev r) := by
  unfold State.mgmtDone
  repeat' first
    | with_reducible assumption
    | with_reducible apply keep_finalReply
    | with_reducible apply keep_modCmd
    | dsimp only
    | split

theorem keep_mgmtOwn {s₀ s : State} (gseq : Nat) (r : Reply)  (h : Keep s₀ s) : Keep s₀ (State.mgmtOwn s gseq r) := by
  unfold State.mgmtOwn
  repeat' first
    | with_reducible assumption
    | with_reducible apply keep_toHead
    | with_reducible apply keep_mgmtDone
    | with_reducible apply keep_modCmd
    | dsimp only
    | split

theorem keep_countStart {s₀ s : State} (cls : Nat)  (h : Keep s₀ s) : Keep s₀ (State.countStart s cls) := by
  unfold State.countStart
  repeat' first
    | with_reducible assumption
    | with_reducible apply keep_modSvc

theorem keep_countElsewhere {s₀ s : State} (gseq : Nat)  (h : Keep s₀ s) : Keep s₀ (State.countElsewhere s gseq) := by
  unfold State.countElsewhere
  repeat' first
    | with_reducible assumption
    | with_reducible apply keep_countStart
    | split

theorem keep_unloadGo {s₀ s : State}  (h : Keep s₀ s) : Keep s₀ (State.unloadGo s) := by
  unfold State.unloadGo
  repeat' first
    | with_reducible assumption
    | with_reducible apply keep_modSvc
    | with_reducible apply keep_mgmtOwn
    | with_reducible refine Keep.foldl _ (fun _ _ _ => ?_) ?_
    | dsimp only
    | split

theorem keep_poisonOutputs {s₀ s : State} (x : Ctx)  (h : Keep s₀ s) : Keep s₀ (State.poisonOutputs s x) := by
  unfold State.poisonOutputs
  repeat' first
    | with_reducible assumption
    | with_reducible apply keep_poisonRange
    | with_reducible refine Keep.foldl _ (fun _ _ _ => ?_) ?_
    | split

theorem keep_failCtx {s₀ s : State} (k : Nat) (r : Reply)  (h : Keep s₀ s) : Keep s₀ (State.failCtx s k r) := by
  unfold State.failCtx
  repeat' first
    | with_reducible assumption
    | with_reducible apply keep_endCtx
    | with_reducible apply keep_dropEgress
    | with_reducible apply keep_ownFinish
    | with_reducible apply keep_poisonOutputs
    | with_reducible apply keep_resetCtx
    | with_reducible apply keep_count48
    | with_reducible refine Keep.foldl _ (fun _ _ _ => ?_) ?_
    | dsimp only
    | split

theorem keep_cancelReply {s₀ s : State} (cls : Nat) (cause : Option Nat)  (h : Keep s₀ s) : Keep s₀ (State.cancelReply s cls cause).2 := by
  unfold State.cancelReply
  repeat' first
    | with_reducible assumption
    | with_reducible apply keep_drawFree
    | split

theorem keep_quiesce {s₀ s : State}  (h : Keep s₀ s) : Keep s₀ (State.quiesce s) := by
  unfold State.quiesce
  repeat' first
    | with_reducible assumption
    | with_reducible apply keep_ror
    | with_reducible apply keep_rput
    | with_reducible apply keep_stateNotice
    | with_reducible apply keep_failCtx
    | with_reducible apply keep_cancelReply
    | with_reducible refine Keep.foldl _ (fun _ _ _ => ?_) ?_
    | (simp only [Keep.mk_iff]; with_reducible refine Keep.fold ?_)

theorem keep_reclaimTile {s₀ s : State} (k : Nat) (tile : Nat)  (h : Keep s₀ s) : Keep s₀ (State.reclaimTile s k tile) := by
  unfold State.reclaimTile
  repeat' first
    | with_reducible assumption
    | with_reducible apply keep_setDsp

theorem keep_dropTile {s₀ s : State} (c : Nat) (u : Nat)  (h : Keep s₀ s) : Keep s₀ (State.dropTile s c u) := by
  unfold State.dropTile
  repeat' first
    | with_reducible assumption
    | with_reducible apply keep_modCore

theorem keep_dropOps {s₀ s : State} (k : Nat) (mg : Nat)  (h : Keep s₀ s) : Keep s₀ (State.dropOps s k mg) := by
  unfold State.dropOps
  repeat' first
    | with_reducible assumption
    | (simp only [Keep.mk_iff]; with_reducible refine Keep.fold ?_)

theorem keep_redoStep {s₀ s : State} (k : Nat) (prog : Nat) (mg : Nat) (count : Nat)  (h : Keep s₀ s) : Keep s₀ (State.redoStep s k prog mg count)
    := by
  unfold State.redoStep
  repeat' first
    | with_reducible assumption
    | with_reducible apply keep_dropOps
    | with_reducible apply keep_count48
    | with_reducible apply keep_modCtx
    | with_reducible apply keep_reclaimTile
    | with_reducible apply keep_dropTile
    | with_reducible refine Keep.foldl _ (fun _ _ _ => ?_) ?_
    | dsimp only
    | split

theorem keep_headStep {s₀ s : State} (k : Nat) (prog : Nat) (mg : Nat)  (h : Keep s₀ s) : Keep s₀ (State.headStep s k prog mg) := by
  unfold State.headStep
  repeat' first
    | with_reducible assumption
    | with_reducible apply keep_broadcast
    | with_reducible apply keep_redoStep
    | with_reducible apply keep_failCtx
    | with_reducible apply keep_cancelReply
    | dsimp only
    | split

theorem keep_askStep {s₀ s : State} (k : Nat) (prog : Nat) (mg : Nat)  (h : Keep s₀ s) : Keep s₀ (State.askStep s k prog mg) := by
  unfold State.askStep
  repeat' first
    | with_reducible assumption
    | with_reducible apply keep_modCtx
    | with_reducible apply keep_sendSync
    | with_reducible apply keep_headStep
    | split

theorem keep_rewind {s₀ s : State} (k : Nat) (count : Nat)  (h : Keep s₀ s) : Keep s₀ (State.rewind s k count) := by
  unfold State.rewind
  repeat' first
    | with_reducible assumption
    | with_reducible apply keep_resetCtx
    | with_reducible apply keep_modCtx
    | with_reducible apply keep_count48

theorem keep_askRestart {s₀ s : State} (k : Nat)  (h : Keep s₀ s) : Keep s₀ (State.askRestart s k) := by
  unfold State.askRestart
  repeat' first
    | with_reducible assumption
    | with_reducible apply keep_broadcast
    | with_reducible apply keep_rewind
    | with_reducible apply keep_failCtx
    | with_reducible apply keep_cancelReply
    | with_reducible apply keep_modCtx
    | with_reducible apply keep_emit
    | dsimp only
    | split

theorem keep_unfetch {s₀ s : State} (page : Nat)  (h : Keep s₀ s) : Keep s₀ (State.unfetch s page) := by
  unfold State.unfetch
  repeat' first
    | with_reducible assumption
    | with_reducible apply keep_modSvc
    | with_reducible apply keep_setPte
    | dsimp only
    | split

theorem keep_askTwin {s₀ s : State} (a1 : Nat)  (h : Keep s₀ s) : Keep s₀ (State.askTwin s a1) := by
  unfold State.askTwin
  repeat' first
    | with_reducible assumption
    | with_reducible apply keep_sendFlit

theorem keep_imageFailed {s₀ s : State} (id : Nat)  (h : Keep s₀ s) : Keep s₀ (State.imageFailed s id) := by
  unfold State.imageFailed
  repeat' first
    | with_reducible assumption
    | with_reducible apply keep_modSvc

theorem keep_act {s₀ s : State} (k : Nat) (tile : Nat) (mg : Nat) (a1 : Act) (ue : Option Nat)  (h : Keep s₀ s) : Keep s₀ (State.act s k tile mg a1
    ue) := by
  unfold State.act
  repeat' first
    | with_reducible assumption
    | with_reducible apply keep_imageFailed
    | with_reducible apply keep_cancelReply
    | with_reducible apply keep_failCtx
    | with_reducible apply keep_askRestart
    | with_reducible apply keep_askTwin
    | with_reducible apply keep_unfetch
    | with_reducible apply keep_reclaimTile
    | with_reducible apply keep_modCtx
    | with_reducible apply keep_count48
    | with_reducible apply keep_askStep
    | dsimp only
    | split

theorem keep_escalate {s₀ s : State} (gseq : Nat) (k : Nat) (st : Nat) (ue : Option Nat)  (h : Keep s₀ s) : Keep s₀ (State.escalate s gseq k st ue)
    := by
  unfold State.escalate
  repeat' first
    | with_reducible assumption
    | with_reducible apply keep_quiesce
    | with_reducible apply keep_failCtx
    | with_reducible apply keep_cancelReply
    | with_reducible apply keep_modCmd
    | with_reducible apply keep_count48
    | dsimp only
    | split

theorem keep_errorAgainst {s₀ s : State} (k : Nat) (tile : Nat) (mg : Nat) (a1 : Act) (st : Nat) (ue : Option Nat)  (h : Keep s₀ s) : Keep s₀
    (State.errorAgainst s k tile mg a1 st ue) := by
  unfold State.errorAgainst
  repeat' first
    | with_reducible assumption
    | with_reducible apply keep_act
    | with_reducible apply keep_escalate
    | with_reducible apply keep_modCtx
    | split

theorem keep_tileFailed {s₀ s : State} (k : Nat) (t_ : TileRun) (mg : Nat)  (h : Keep s₀ s) : Keep s₀ (State.tileFailed s k t_ mg) := by
  unfold State.tileFailed
  repeat' first
    | with_reducible assumption
    | with_reducible apply keep_errorAgainst
    | dsimp only
    | split

theorem keep_serviceRec {s₀ s : State} (isl : Nat) (u : UnitId) (st : Nat) (action : Nat) (addr : Nat) (trigger : Nat)  (h : Keep s₀ s) : Keep s₀
    (State.serviceRec s isl u st action addr trigger) := by
  unfold State.serviceRec
  repeat' first
    | with_reducible assumption
    | with_reducible apply keep_raise

theorem keep_leaveGroup {s₀ s : State} (st : Nat) (trigger : Nat) (u : UnitId)  (h : Keep s₀ s) : Keep s₀ (State.leaveGroup s st trigger u) := by
  unfold State.leaveGroup
  repeat' first
    | with_reducible assumption
    | with_reducible apply keep_stateNotice
    | with_reducible apply keep_rput
    | with_reducible apply keep_toSt
    | with_reducible apply keep_startSt
    | with_reducible apply keep_failCtx
    | with_reducible apply keep_breakGbar
    | with_reducible apply keep_broadcast
    | with_reducible apply keep_serviceRec
    | with_reducible apply keep_ror
    | with_reducible refine Keep.foldl _ (fun _ _ _ => ?_) ?_
    | (simp only [Keep.mk_iff]; with_reducible refine Keep.fold ?_)
    | dsimp only
    | split

theorem keep_fenceCore {s₀ s : State} (c : Nat) (trigger : Nat)  (h : Keep s₀ s) : Keep s₀ (State.fenceCore s c trigger) := by
  unfold State.fenceCore
  repeat' first
    | with_reducible assumption
    | with_reducible apply keep_leaveGroup
    | with_reducible apply keep_askStep
    | with_reducible apply keep_setGbar
    | with_reducible apply keep_rput
    | with_reducible apply keep_ror
    | with_reducible apply keep_setCore
    | with_reducible apply keep_reclaimTile
    | with_reducible apply keep_raise
    | with_reducible refine Keep.foldl _ (fun _ _ _ => ?_) ?_
    | (simp only [Keep.mk_iff]; with_reducible refine Keep.fold ?_)
    | dsimp only
    | split

end Sys2Proof.Machine
end

