-- ==== Sys2Proof/Laws/KeepCores.lean ====
section
/-! SUPPORT. `Keep` for the programs of cores: passes, records, tiles and chains: one lemma for each operation. -/

namespace Sys2Proof.Machine

open Sys2Proof

set_option linter.unusedTactic false
set_option linter.unreachableTactic false
set_option linter.unusedVariables false
set_option linter.unusedSimpArgs false

/-! ### Pass -/

theorem keep_copyBytes {s₀ s : State} (c : Nat) (to_ : Nat) (from_ : Nat) (n : Nat)  (h : Keep s₀ s) : Keep s₀ (State.copyBytes s c to_ from_ n) := by
  unfold State.copyBytes
  repeat' first
    | with_reducible assumption
    | with_reducible apply keep_poisonRange
    | with_reducible apply keep_putBytes
    | with_reducible apply keep_putWords
    | dsimp only
    | split

theorem keep_stagePass {s₀ s : State} (o : OpCtx) (c : Nat) (kpp : Nat)  (h : Keep s₀ s) : Keep s₀ (State.stagePass s o c kpp) := by
  unfold State.stagePass
  repeat' first
    | with_reducible assumption
    | with_reducible apply keep_copyBytes
    | with_reducible refine Keep.foldl _ (fun _ _ _ => ?_) ?_
    | dsimp only
    | split

theorem keep_noteRow {s₀ s : State} (cfg : PassCfg) (w : RowPlace) (who : UnitId) (isl : Nat) (cx : Option Ctx)  (h : Keep s₀ s) : Keep s₀
    (State.noteRow s cfg w who isl cx) := by
  unfold State.noteRow
  repeat' first
    | with_reducible assumption
    | with_reducible apply keep_noteWords
    | dsimp only
    | split

theorem keep_passFaults {s₀ s : State} (c : Nat) (u : Nat) (lamb : Nat) (waddr : Nat) (metaOk : Bool) (sat : Bool) (mx : Option (Nat × Nat)) (par :
    Option (Fin 8 × Bool))  (h : Keep s₀ s) : Keep s₀ (State.passFaults s c u lamb waddr metaOk sat mx par) := by
  unfold State.passFaults
  repeat' first
    | with_reducible assumption
    | with_reducible apply keep_noteParity
    | with_reducible apply keep_taintTile
    | with_reducible apply keep_rset
    | with_reducible apply keep_modCtx
    | with_reducible apply keep_ror
    | with_reducible apply keep_raiseCore
    | with_reducible apply keep_failTile
    | dsimp only
    | split

theorem keep_applyTap {s₀ s : State} (c : Nat) (v : Nat) (half : Nat) (p : Prog) (mean : Bool) (rows : List (Nat × RowOut))  (h : Keep s₀ s) : Keep
    s₀ (State.applyTap s c v half p mean rows) := by
  unfold State.applyTap
  repeat' first
    | with_reducible assumption
    | with_reducible apply keep_modCore

theorem keep_issuePass {s₀ s : State} (op : Nat) (c : Nat) (u : Nat) (t_ : Nat) (ev : PassEvents)  (h : Keep s₀ s) : Keep s₀ (State.issuePass s op
    c u t_ ev) := by
  unfold State.issuePass
  repeat' first
    | with_reducible assumption
    | with_reducible apply keep_modCore
    | with_reducible apply keep_ror
    | with_reducible apply keep_openOp
    | with_reducible apply keep_applyTap
    | with_reducible apply keep_passFaults
    | with_reducible apply keep_taintTile
    | with_reducible apply keep_noteWords
    | with_reducible apply keep_noteRow
    | with_reducible apply keep_stagePass
    | with_reducible apply keep_count48
    | with_reducible apply keep_advance
    | with_reducible apply keep_register
    | with_reducible refine Keep.foldl _ (fun _ _ _ => ?_) ?_
    | dsimp only
    | split

theorem keep_drainPass {s₀ s : State} (c v : Nat) {t : State × Nat} (h : Keep s₀ s) (e : s.drainPass c v = some t) : Keep s₀ t.1 := by
  revert e
  unfold State.drainPass
  dsimp only
  split
  · rintro ⟨⟩
  · rintro ⟨⟩
    exact keep_rclr _ _ _ (keep_count48 _ _ _ (keep_modCore _ _ (Keep.foldl _ (fun _ _ h => keep_putWords _ _ h) h)))

/-! ### Collect -/

theorem keep_sendPiece {s₀ s : State} (slot : Nat) (r : ProgRun) (g : GmmRec) (mg : Nat) (q : Nat) (k : Nat)  (h : Keep s₀ s) : Keep s₀
    (State.sendPiece s slot r g mg q k) := by
  unfold State.sendPiece
  repeat' first
    | with_reducible assumption
    | with_reducible apply keep_sendOver
    | with_reducible refine Keep.foldl _ (fun _ _ _ => ?_) ?_

theorem keep_modRun {s₀ s : State} (k : Nat) (f : ProgRun → ProgRun)  (h : Keep s₀ s) : Keep s₀ (State.modRun s k f) := by
  unfold State.modRun
  repeat' first
    | with_reducible assumption
    | with_reducible apply keep_modCtx

theorem keep_wakeKind {s₀ s : State} (k : Nat) (kind : Nat) (mg : Nat) (obj : Nat) (status : Nat)  (h : Keep s₀ s) : Keep s₀ (State.wakeKind s k
    kind mg obj status) := by
  unfold State.wakeKind
  repeat' first
    | with_reducible assumption
    | with_reducible apply keep_fire
    | with_reducible refine Keep.foldl _ (fun _ _ _ => ?_) ?_
    | split

theorem keep_pieceHere {s₀ s : State} (k : Nat) (mg : Nat) (q : Nat)  (h : Keep s₀ s) : Keep s₀ (State.pieceHere s k mg q) := by
  unfold State.pieceHere
  repeat' first
    | with_reducible assumption
    | with_reducible apply keep_modRun
    | with_reducible apply keep_wakeKind

theorem keep_shareEnd {s₀ s : State} (k : Nat) (mg : Nat) (q : Nat) (step : Nat)  (h : Keep s₀ s) : Keep s₀ (State.shareEnd s k mg q step) := by
  unfold State.shareEnd
  repeat' first
    | with_reducible assumption
    | with_reducible apply keep_pieceHere
    | with_reducible apply keep_modRun
    | dsimp only
    | split

theorem keep_startTimer {s₀ s : State} (opid : Nat)  (h : Keep s₀ s) : Keep s₀ (State.startTimer s opid) := by
  unfold State.startTimer
  repeat' first
    | with_reducible assumption
    | (simp only [Keep.mk_iff]; with_reducible refine Keep.fold ?_)
    | dsimp only
    | split

theorem keep_stopOp {s₀ s : State} (k : Nat) (opid : Nat)  (h : Keep s₀ s) : Keep s₀ (State.stopOp s k opid) := by
  unfold State.stopOp
  repeat' first
    | with_reducible assumption
    | with_reducible apply keep_errorAgainst
    | with_reducible apply keep_fire
    | with_reducible apply keep_modRun
    | with_reducible refine Keep.foldl _ (fun _ _ _ => ?_) ?_
    | (simp only [Keep.mk_iff]; with_reducible refine Keep.fold ?_)
    | split

theorem keep_launchGather {s₀ s : State} (k : Nat) (mg : Nat)  (h : Keep s₀ s) : Keep s₀ (State.launchGather s k mg) := by
  unfold State.launchGather
  repeat' first
    | with_reducible assumption
    | with_reducible apply keep_stopOp
    | with_reducible apply keep_shareEnd
    | with_reducible apply keep_sendPiece
    | with_reducible apply keep_startTimer
    | with_reducible apply keep_modRun
    | with_reducible apply keep_putWords
    | with_reducible refine Keep.foldl _ (fun _ _ _ => ?_) ?_
    | (simp only [Keep.mk_iff]; with_reducible refine Keep.fold ?_)
    | dsimp only
    | split

theorem keep_writeReduced {s₀ s : State} (r : ProgRun) (m : MrsRec) (mg : Nat) (off : Nat) (ws : List PWord)  (h : Keep s₀ s) : Keep s₀
    (State.writeReduced s r m mg off ws) := by
  unfold State.writeReduced
  repeat' first
    | with_reducible assumption
    | with_reducible apply keep_putWords
    | with_reducible refine Keep.foldl_fst _ (fun _ _ _ => ?_) ?_

theorem keep_setSlot {s₀ s : State} (a1 : Nat) (x : RedSlot)  (h : Keep s₀ s) : Keep s₀ (State.setSlot s a1 x) := by
  unfold State.setSlot
  repeat' first
    | with_reducible assumption
    | (simp only [Keep.mk_iff]; with_reducible refine Keep.fold ?_)

theorem keep_grantSlot {s₀ s : State} (a1 : Nat) (port : Nat) (src : Nat) (tag : Nat) (bytes : Nat)  (h : Keep s₀ s) : Keep s₀ (State.grantSlot s
    a1 port src tag bytes) := by
  unfold State.grantSlot
  repeat' first
    | with_reducible assumption
    | with_reducible apply keep_setSlot
    | with_reducible apply keep_sendSync
    | (simp only [Keep.mk_iff]; with_reducible refine Keep.fold ?_)

theorem keep_clearSlot {s₀ s : State} (a1 : Nat)  (h : Keep s₀ s) : Keep s₀ (State.clearSlot s a1) := by
  unfold State.clearSlot
  repeat' first
    | with_reducible assumption
    | with_reducible apply keep_grantSlot
    | with_reducible apply keep_count48
    | with_reducible apply keep_drawFree
    | (simp only [Keep.mk_iff]; with_reducible refine Keep.fold ?_)
    | dsimp only
    | split

theorem keep_scatterDone {s₀ s : State} (k : Nat) (mg : Nat)  (h : Keep s₀ s) : Keep s₀ (State.scatterDone s k mg) := by
  unfold State.scatterDone
  repeat' first
    | with_reducible assumption
    | with_reducible apply keep_modRun
    | with_reducible apply keep_wakeKind

theorem keep_passOn {s₀ a3 : State} (k : Nat) (mg : Nat) (q : Nat) (seg : Nat) (a1 : List Nat) (a2 : List PWord)  (h : Keep s₀ a3) : Keep s₀
    (State.passOn k mg q seg a1 a2 a3) := by
  induction a1 generalizing a2 a3 with
  | nil =>
    unfold State.passOn
    repeat' first
      | with_reducible assumption
      | with_reducible apply ih
      | with_reducible apply keep_count48
      | with_reducible apply keep_clearSlot
      | with_reducible apply keep_setSlot
      | with_reducible apply keep_sendSync
      | with_reducible apply keep_scatterDone
      | with_reducible apply keep_modRun
      | with_reducible apply keep_writeReduced
      | (simp only [Keep.mk_iff]; with_reducible refine Keep.fold ?_)
      | dsimp only
      | split
  | cons x l ih =>
    unfold State.passOn
    repeat' first
      | with_reducible assumption
      | with_reducible apply ih
      | with_reducible apply keep_count48
      | with_reducible apply keep_clearSlot
      | with_reducible apply keep_setSlot
      | with_reducible apply keep_sendSync
      | with_reducible apply keep_scatterDone
      | with_reducible apply keep_modRun
      | with_reducible apply keep_writeReduced
      | (simp only [Keep.mk_iff]; with_reducible refine Keep.fold ?_)
      | dsimp only
      | split

theorem keep_launchScatter {s₀ s : State} (k : Nat) (mg : Nat) (q : Nat)  (h : Keep s₀ s) : Keep s₀ (State.launchScatter s k mg q) := by
  unfold State.launchScatter
  repeat' first
    | with_reducible assumption
    | with_reducible apply keep_stopOp
    | with_reducible apply keep_startTimer
    | with_reducible apply keep_passOn
    | with_reducible refine Keep.foldl _ (fun _ _ _ => ?_) ?_
    | dsimp only
    | split

theorem keep_relaunch {s₀ s : State} (k : Nat) (mg : Nat)  (h : Keep s₀ s) : Keep s₀ (State.relaunch s k mg) := by
  unfold State.relaunch
  repeat' first
    | with_reducible assumption
    | with_reducible apply keep_launchScatter
    | with_reducible apply keep_launchGather
    | with_reducible apply keep_modRun
    | with_reducible refine Keep.foldl _ (fun _ _ _ => ?_) ?_
    | dsimp only
    | split

/-! ### Commands -/

theorem keep_fillServices {s₀ s : State} (c : Sched) (gseq : Nat)  (h : Keep s₀ s) : Keep s₀ (State.fillServices s c gseq) := by
  unfold State.fillServices
  repeat' first
    | with_reducible assumption
    | with_reducible apply keep_putWords
    | with_reducible refine Keep.foldl _ (fun _ _ _ => ?_) ?_

theorem keep_enterEarlier {s₀ s : State} (owner : Nat) (l : List (Nat × Nat))  (h : Keep s₀ s) : Keep s₀ (State.enterEarlier s owner l) := by
  unfold State.enterEarlier
  repeat' first
    | with_reducible assumption
    | with_reducible apply keep_setPte
    | with_reducible apply keep_drawFree
    | with_reducible refine Keep.foldl _ (fun _ _ _ => ?_) ?_

theorem keep_failStart {s₀ s : State} (gseqs : List Nat) (st : Nat) (detail : Nat)  (h : Keep s₀ s) : Keep s₀ (State.failStart s gseqs st detail)
    := by
  unfold State.failStart
  repeat' first
    | with_reducible assumption
    | with_reducible apply keep_countStart
    | with_reducible apply keep_dropEgress
    | with_reducible apply keep_ownFinish
    | with_reducible refine Keep.foldl _ (fun _ _ _ => ?_) ?_

theorem keep_preempt {s₀ s : State} (k : Nat)  (h : Keep s₀ s) : Keep s₀ (State.preempt s k) := by
  unfold State.preempt
  repeat' first
    | with_reducible assumption
    | with_reducible apply keep_reclaimTile
    | with_reducible apply keep_modCore
    | with_reducible apply keep_modCtx
    | with_reducible refine Keep.foldl _ (fun _ _ _ => ?_) ?_
    | dsimp only
    | split

theorem keep_ctxUp {s₀ s s0 : State} (a1 : StartArgs) (g : Image) (id : Nat) (pages : List Nat)  (h : Keep s₀ s) (h1 : Keep s₀ s0) : Keep s₀
    (State.ctxUp s s0 a1 g id pages) := by
  unfold State.ctxUp
  repeat' first
    | with_reducible assumption
    | with_reducible apply keep_rput
    | with_reducible apply keep_modCmd
    | with_reducible apply keep_setCtx
    | with_reducible apply keep_countStart
    | with_reducible apply keep_modSvc
    | with_reducible apply keep_preempt
    | with_reducible apply keep_takeRws
    | with_reducible apply keep_invalidate
    | with_reducible apply keep_fillServices
    | with_reducible apply keep_enterEarlier
    | with_reducible refine Keep.foldl _ (fun _ _ _ => ?_) ?_
    | split

theorem keep_openCtx {s₀ s : State} (a : StartArgs) {t : State} (h : Keep s₀ s) (e : s.openCtx a = .ok t) : Keep s₀ t := by
  revert e
  unfold State.openCtx
  dsimp only
  repeat' split
  all_goals rintro ⟨⟩
  all_goals
    rename_i e
    exact keep_ctxUp _ _ _ _ (keep_allocPages _ _ _ _ (Keep.foldl _ (fun _ _ h => keep_setPte _ _ h) h) e) h

theorem keep_noteEnd {s₀ : State} (g : Nat) (r : State × Bool) (h : Keep s₀ r.1) : Keep s₀ (noteEnd g r) := by
  unfold noteEnd
  repeat' first
    | with_reducible assumption
    | with_reducible apply keep_modCtx
    | split

theorem keep_startRun {s₀ s : State} (k : Nat)  (h : Keep s₀ s) : Keep s₀ (State.startRun s k) := by
  unfold State.startRun
  repeat' first
    | with_reducible assumption
    | with_reducible apply keep_setGbar
    | with_reducible apply keep_gStep
    | with_reducible apply keep_noteEnd
    | with_reducible apply keep_modCtx
    | with_reducible apply keep_setDsp
    | with_reducible apply keep_failCtx
    | (simp only [Keep.mk_iff]; with_reducible refine Keep.updDraw _ ?_)
    | dsimp only
    | split

theorem keep_fenceUnit {s₀ s : State} (c : Nat) (trigger : Nat)  (h : Keep s₀ s) : Keep s₀ (State.fenceUnit s c trigger) := by
  unfold State.fenceUnit
  repeat' first
    | with_reducible assumption
    | with_reducible apply keep_fenceCore
    | with_reducible apply keep_gStep
    | with_reducible apply keep_noteEnd
    | with_reducible refine Keep.foldl _ (fun _ _ _ => ?_) ?_

theorem keep_coresEnd {s₀ s : State} (k : Nat)  (h : Keep s₀ s) : Keep s₀ (State.coresEnd s k) := by
  unfold State.coresEnd
  repeat' first
    | with_reducible assumption
    | with_reducible apply keep_modCore
    | with_reducible apply keep_releaseGrant
    | with_reducible refine Keep.foldl _ (fun _ _ _ => ?_) ?_

theorem keep_freezeNotices {s₀ s : State} (k : Nat) (sub : Nat)  (h : Keep s₀ s) : Keep s₀ (State.freezeNotices s k sub) := by
  unfold State.freezeNotices
  repeat' first
    | with_reducible assumption
    | with_reducible apply keep_broadcast
    | with_reducible refine Keep.foldl _ (fun _ _ _ => ?_) ?_
    | split

theorem keep_freezeCtx {s₀ s : State} (k : Nat)  (h : Keep s₀ s) : Keep s₀ (State.freezeCtx s k) := by
  unfold State.freezeCtx
  repeat' first
    | with_reducible assumption
    | with_reducible apply keep_modCmd
    | with_reducible apply keep_withdraw
    | with_reducible apply keep_modCtx
    | with_reducible apply keep_setDsp
    | with_reducible apply keep_setGbar
    | with_reducible apply keep_modCore
    | with_reducible apply keep_releaseGrant
    | with_reducible apply keep_freezeNotices
    | with_reducible refine Keep.foldl _ (fun _ _ _ => ?_) ?_
    | dsimp only
    | split

theorem keep_endAborted {s₀ s : State} (k : Nat) (c : Nat) (t_ : Nat)  (h : Keep s₀ s) : Keep s₀ (State.endAborted s k c t_) := by
  unfold State.endAborted
  repeat' first
    | with_reducible assumption
    | with_reducible apply keep_fire
    | dsimp only
    | split

theorem keep_thawCtx {s₀ s : State} (k : Nat)  (h : Keep s₀ s) : Keep s₀ (State.thawCtx s k) := by
  unfold State.thawCtx
  repeat' first
    | with_reducible assumption
    | with_reducible apply keep_errorAgainst
    | with_reducible apply keep_endAborted
    | with_reducible apply keep_freezeNotices
    | with_reducible apply keep_modCmd
    | with_reducible apply keep_setGbar
    | with_reducible apply keep_gStep
    | with_reducible apply keep_noteEnd
    | with_reducible apply keep_modCtx
    | with_reducible apply keep_setDsp
    | with_reducible apply keep_modCore
    | with_reducible apply keep_restoreRws
    | with_reducible refine Keep.foldl _ (fun _ _ _ => ?_) ?_
    | dsimp only
    | split

theorem keep_endCommand {s₀ s : State} (gseq : Nat) (r : Reply)  (h : Keep s₀ s) : Keep s₀ (State.endCommand s gseq r) := by
  unfold State.endCommand
  repeat' first
    | with_reducible assumption
    | with_reducible apply keep_countElsewhere
    | with_reducible apply keep_modSvc
    | with_reducible apply keep_failCtx
    | with_reducible apply keep_dropEgress
    | with_reducible apply keep_ownFinish
    | with_reducible apply keep_modCmd
    | dsimp only
    | split

theorem keep_failPrompt {s₀ s : State} (gseq : Nat) (st : Nat) (detail : Nat)  (h : Keep s₀ s) : Keep s₀ (State.failPrompt s gseq st detail) := by
  unfold State.failPrompt
  repeat' first
    | with_reducible assumption
    | with_reducible apply keep_endCommand

theorem keep_promptGo {s₀ s : State} (gseq : Nat)  (h : Keep s₀ s) : Keep s₀ (State.promptGo s gseq) := by
  unfold State.promptGo
  repeat' first
    | with_reducible assumption
    | with_reducible apply keep_modSvc
    | with_reducible apply keep_errorAgainst
    | with_reducible apply keep_failPrompt
    | with_reducible apply keep_pushEgress
    | with_reducible refine keep_of_eq1 (by with_reducible assumption) ?_
    | with_reducible apply keep_finalReply
    | with_reducible apply keep_ownFinish
    | dsimp only
    | split

theorem keep_chunkGo {s₀ s : State} (k : Nat)  (h : Keep s₀ s) : Keep s₀ (State.chunkGo s k) := by
  unfold State.chunkGo
  repeat' first
    | with_reducible assumption
    | with_reducible apply keep_endCtx
    | with_reducible apply keep_promptGo
    | with_reducible refine Keep.foldl _ (fun _ _ _ => ?_) ?_
    | dsimp only
    | split

theorem keep_chooseToken {s₀ s : State} (gseq : Nat)  (h : Keep s₀ s) : Keep s₀ (State.chooseToken s gseq) := by
  unfold State.chooseToken
  repeat' first
    | with_reducible assumption
    | with_reducible apply keep_modCmd
    | with_reducible apply keep_broadcast
    | dsimp only
    | split

theorem keep_checkDigests {s₀ s : State} (k : Nat) (gseq : Nat) (layer : Nat)  (h : Keep s₀ s) : Keep s₀ (State.checkDigests s k gseq layer) := by
  unfold State.checkDigests
  repeat' first
    | with_reducible assumption
    | with_reducible apply keep_errorAgainst
    | with_reducible apply keep_raise
    | (simp only [Keep.mk_iff]; with_reducible refine Keep.fold ?_)
    | dsimp only
    | split

theorem keep_takeDigest {s₀ s : State} (gseq : Nat) (layer : Nat) (dev : Nat) (dig : Nat)  (h : Keep s₀ s) : Keep s₀ (State.takeDigest s gseq layer
    dev dig) := by
  unfold State.takeDigest
  repeat' first
    | with_reducible assumption
    | with_reducible apply keep_checkDigests
    | (simp only [Keep.mk_iff]; with_reducible refine Keep.fold ?_)
    | dsimp only
    | split

theorem keep_tilesDone {s₀ s : State} (k : Nat)  (h : Keep s₀ s) : Keep s₀ (State.tilesDone s k) := by
  unfold State.tilesDone
  repeat' first
    | with_reducible assumption
    | with_reducible apply keep_chunkGo
    | with_reducible apply keep_chooseToken
    | with_reducible apply keep_toHead
    | with_reducible apply keep_takeDigest
    | with_reducible apply keep_modCmd
    | with_reducible apply keep_ownFinish
    | with_reducible apply keep_endCtx
    | with_reducible apply keep_modCtx
    | with_reducible refine Keep.foldl _ (fun _ _ _ => ?_) ?_
    | dsimp only
    | split

theorem keep_settle1 {s₀ s : State} {t : State} (h : Keep s₀ s) (e : s.settle1 = some t) : Keep s₀ t := by
  revert e
  unfold State.settle1
  dsimp only
  repeat' split
  all_goals rintro ⟨⟩
  all_goals repeat' first
    | with_reducible assumption
    | with_reducible apply keep_thawCtx
    | with_reducible apply keep_failCtx
    | with_reducible apply keep_relaunch
    | with_reducible apply keep_startRun
    | with_reducible apply keep_chunkGo
    | with_reducible apply keep_tilesDone
    | with_reducible apply keep_coresEnd
    | with_reducible apply keep_modCtx

theorem keep_settleFor {s₀ a2 : State} (a1 : Nat)  (h : Keep s₀ a2) : Keep s₀ (State.settleFor a1 a2) := by
  induction a1 generalizing a2 with
  | zero =>
    unfold State.settleFor
    repeat' first
      | with_reducible assumption
      | with_reducible apply ih
      | (with_reducible refine keep_settle1 ?_ (by with_reducible assumption))
      | split
  | succ n ih =>
    unfold State.settleFor
    repeat' first
      | with_reducible assumption
      | with_reducible apply ih
      | (with_reducible refine keep_settle1 ?_ (by with_reducible assumption))
      | split

theorem keep_settle {s₀ s : State}  (h : Keep s₀ s) : Keep s₀ (State.settle s) := by
  unfold State.settle
  repeat' first
    | with_reducible assumption
    | with_reducible apply keep_settleFor
    | with_reducible apply keep_unloadGo

theorem keep_settled {s₀ s : State}  (h : Keep s₀ s) : KeepO s₀ (settled s) := by
  unfold settled
  repeat' first
    | with_reducible assumption
    | with_reducible apply keep_settle
    | with_reducible refine KeepO.next ?_

theorem keep_startCmd {s₀ s : State} (a : StartArgs) (h : Keep s₀ s) : Keep s₀ (s.startCmd a) := by
  unfold State.startCmd
  split
  · exact keep_failStart _ _ _ h
  · exact keep_openCtx _ h (by assumption)

/-! ### Tile -/

theorem keep_countConversions {s₀ s : State} (k : Nat) (r : ProgRun) (idx : LoopIdx)  (h : Keep s₀ s) : Keep s₀ (State.countConversions s k r idx)
    := by
  unfold State.countConversions
  repeat' first
    | with_reducible assumption
    | with_reducible apply keep_launchScatter
    | with_reducible apply keep_modRun
    | with_reducible refine Keep.foldl _ (fun _ _ _ => ?_) ?_
    | dsimp only
    | split

theorem keep_arriveEnd {s₀ s : State} (c : Nat)  (h : Keep s₀ s) : Keep s₀ (State.arriveEnd s c) := by
  unfold State.arriveEnd
  repeat' first
    | with_reducible assumption
    | with_reducible apply keep_setGbar
    | with_reducible apply keep_gArrive
    | with_reducible apply keep_noteEnd
    | with_reducible apply keep_modRun
    | with_reducible apply keep_register
    | dsimp only
    | split

theorem keep_commit {s₀ s : State} (c : Nat) (k : Nat) (r : ProgRun) (t_ : TileRun) (idx : LoopIdx)  (h : Keep s₀ s) : Keep s₀ (State.commit s c k
    r t_ idx) := by
  unfold State.commit
  repeat' first
    | with_reducible assumption
    | with_reducible apply keep_ror
    | with_reducible apply keep_countConversions
    | with_reducible apply keep_modCtx
    | with_reducible apply keep_setDsp
    | with_reducible apply keep_count48
    | dsimp only
    | split

theorem keep_resetStats {s₀ s : State} (c : Nat) (u : Nat) (half : Nat) (p : Prog)  (h : Keep s₀ s) : Keep s₀ (State.resetStats s c u half p) := by
  unfold State.resetStats
  repeat' first
    | with_reducible assumption
    | with_reducible apply keep_modCore

theorem keep_startTile {s₀ s : State} (c : Nat) (u : Nat) (k : Nat) (num : Nat)  (h : Keep s₀ s) : Keep s₀ (State.startTile s c u k num) := by
  unfold State.startTile
  repeat' first
    | with_reducible assumption
    | with_reducible apply keep_count48
    | with_reducible apply keep_modCore
    | with_reducible apply keep_resetStats
    | dsimp only
    | split

theorem keep_startNext {s₀ s : State} (c : Nat) (u : Nat) (k : Nat)  (h : Keep s₀ s) : Keep s₀ (State.startNext s c u k) := by
  unfold State.startNext
  repeat' first
    | with_reducible assumption
    | with_reducible apply keep_startTile
    | split

theorem keep_tryEnd {s₀ s : State} (c : Nat) (u : Nat)  (h : Keep s₀ s) : Keep s₀ (State.tryEnd s c u) := by
  unfold State.tryEnd
  repeat' first
    | with_reducible assumption
    | with_reducible apply keep_startNext
    | with_reducible apply keep_arriveEnd
    | with_reducible apply keep_tileFailed
    | with_reducible apply keep_commit
    | with_reducible apply keep_modCore
    | dsimp only
    | split

theorem keep_closeOp {s₀ s : State} (c : Nat) (u : Nat)  (h : Keep s₀ s) : Keep s₀ (State.closeOp s c u) := by
  unfold State.closeOp
  repeat' first
    | with_reducible assumption
    | with_reducible apply keep_modTile
    | with_reducible apply keep_tryEnd

theorem keep_unarrive {s₀ s : State} (c : Nat) (k : Nat)  (h : Keep s₀ s) : Keep s₀ (State.unarrive s c k) := by
  unfold State.unarrive
  repeat' first
    | with_reducible assumption
    | with_reducible apply keep_modCore
    | with_reducible apply keep_modRun
    | with_reducible apply keep_setGbar
    | dsimp only
    | split

theorem keep_serveRequest {s₀ s : State} (c : Nat) (u : Nat) (k : Nat) (waited : Nat) (r : ProgRun)  (h : Keep s₀ s) : Keep s₀ (State.serveRequest
    s c u k waited r) := by
  unfold State.serveRequest
  repeat' first
    | with_reducible assumption
    | with_reducible apply keep_startNext
    | with_reducible apply keep_tryEnd
    | with_reducible apply keep_launchGather
    | with_reducible apply keep_unarrive
    | with_reducible apply keep_setDsp
    | with_reducible apply keep_rset
    | with_reducible apply keep_register
    | with_reducible apply keep_modCore
    | with_reducible apply keep_arriveEnd
    | with_reducible apply keep_fire
    | with_reducible apply keep_count48
    | dsimp only
    | split

theorem keep_execDispenseRequest {s₀ s : State} (core : Fin 48) (unit : Fin 8) (waited : Nat)  (h : Keep s₀ s) : KeepO s₀ (execDispenseRequest core
    unit waited s) := by
  unfold execDispenseRequest
  repeat' first
    | with_reducible assumption
    | with_reducible apply keep_serveRequest
    | with_reducible apply keep_startNext
    | with_reducible apply keep_settled
    | with_reducible refine KeepO.next ?_
    | dsimp only
    | split

theorem keep_waitAt {s₀ s : State} (c : Nat) (t_ : Nat) (b : Nat) (want : Nat) (acq : Bool) (signaller : Bool) (u : Nat)  (h : Keep s₀ s) : Keep s₀
    (State.waitAt s c t_ b want acq signaller u) := by
  unfold State.waitAt
  repeat' first
    | with_reducible assumption
    | with_reducible apply keep_modCore
    | with_reducible apply keep_register

theorem keep_phaseWait {s₀ s : State} (c : Nat) (u : Nat) (t_ : Nat) (b : Nat) (step : Nat) (acq : Bool)  (h : Keep s₀ s) : Keep s₀
    (State.phaseWait s c u t_ b step acq) := by
  unfold State.phaseWait
  repeat' first
    | with_reducible assumption
    | with_reducible apply keep_waitAt
    | with_reducible apply keep_invalidate
    | with_reducible apply keep_setCore
    | with_reducible apply keep_failTile
    | dsimp only
    | split

theorem keep_execPhaseWait {s₀ s : State} (core : Fin 48) (unit : Fin 8) (thread : Fin 16)  (h : Keep s₀ s) : KeepO s₀ (execPhaseWait core unit
    thread s) := by
  unfold execPhaseWait
  repeat' first
    | with_reducible assumption
    | with_reducible apply keep_advance
    | with_reducible apply keep_phaseWait
    | with_reducible apply keep_tryEnd
    | with_reducible apply keep_settled
    | with_reducible refine KeepO.next ?_
    | split

theorem keep_creditWait {s₀ s : State} (c : Nat) (u : Nat) (t_ : Nat) (b : Nat) (acq : Bool)  (h : Keep s₀ s) : Keep s₀ (State.creditWait s c u t_
    b acq) := by
  unfold State.creditWait
  repeat' first
    | with_reducible assumption
    | with_reducible apply keep_waitAt
    | with_reducible apply keep_invalidate
    | with_reducible apply keep_setCore
    | with_reducible apply keep_serve
    | with_reducible apply keep_failTile
    | dsimp only
    | split

theorem keep_execCreditWait {s₀ s : State} (core : Fin 48) (unit : Fin 8) (thread : Fin 16)  (h : Keep s₀ s) : KeepO s₀ (execCreditWait core unit
    thread s) := by
  unfold execCreditWait
  repeat' first
    | with_reducible assumption
    | with_reducible apply keep_advance
    | with_reducible apply keep_creditWait
    | with_reducible apply keep_tryEnd
    | with_reducible apply keep_settled
    | with_reducible refine KeepO.next ?_
    | split

theorem keep_signal {s₀ s : State} (c : Nat) (u : Nat) (t_ : Nat) (b : Nat)  (h : Keep s₀ s) : Keep s₀ (State.signal s c u t_ b) := by
  unfold State.signal
  repeat' first
    | with_reducible assumption
    | with_reducible apply keep_waitAt
    | with_reducible apply keep_setCore
    | with_reducible apply keep_serve
    | with_reducible apply keep_arrivePhase
    | with_reducible apply keep_failTile
    | dsimp only
    | split

theorem keep_execSignal {s₀ s : State} (core : Fin 48) (unit : Fin 8) (thread : Fin 16)  (h : Keep s₀ s) : KeepO s₀ (execSignal core unit thread s)
    := by
  unfold execSignal
  repeat' first
    | with_reducible assumption
    | with_reducible apply keep_advance
    | with_reducible apply keep_signal
    | with_reducible apply keep_tryEnd
    | with_reducible apply keep_settled
    | with_reducible refine KeepO.next ?_
    | split

theorem keep_execGmm {s₀ s : State} (core : Fin 48) (unit : Fin 8) (thread : Fin 16)  (h : Keep s₀ s) : KeepO s₀ (execGmm core unit thread s) := by
  unfold execGmm
  repeat' first
    | with_reducible assumption
    | with_reducible apply keep_advance
    | with_reducible apply keep_launchGather
    | with_reducible apply keep_tryEnd
    | with_reducible apply keep_settled
    | with_reducible refine KeepO.next ?_
    | split

theorem keep_execMrs {s₀ s : State} (core : Fin 48) (unit : Fin 8) (thread : Fin 16)  (h : Keep s₀ s) : KeepO s₀ (execMrs core unit thread s) := by
  unfold execMrs
  repeat' first
    | with_reducible assumption
    | with_reducible apply keep_advance
    | with_reducible apply keep_tryEnd
    | with_reducible apply keep_settled
    | with_reducible refine KeepO.next ?_
    | split

theorem keep_popQueue {s₀ s : State} (cls : Nat) (n : Nat)  (h : Keep s₀ s) : Keep s₀ (State.popQueue s cls n) := by
  unfold State.popQueue
  repeat' first
    | with_reducible assumption
    | with_reducible apply keep_modSvc

theorem keep_startFront {s₀ s : State} (cls : Nat)  (h : Keep s₀ s) : Keep s₀ (State.startFront s cls) := by
  unfold State.startFront
  repeat' first
    | with_reducible assumption
    | with_reducible apply keep_popQueue
    | with_reducible apply keep_startCmd
    | dsimp only
    | split

theorem keep_execCommandStart {s₀ s : State} (cls : Fin 4)  (h : Keep s₀ s) : KeepO s₀ (execCommandStart cls s) := by
  unfold execCommandStart
  repeat' first
    | with_reducible assumption
    | with_reducible apply keep_startFront
    | with_reducible apply keep_settled

theorem keep_startChunk {s₀ s : State} (cls : Nat) (n : Nat) (g : Image) (d : Descr)  (h : Keep s₀ s) : Keep s₀ (State.startChunk s cls n g d) := by
  unfold State.startChunk
  repeat' first
    | with_reducible assumption
    | with_reducible apply keep_popQueue
    | with_reducible apply keep_startCmd
    | with_reducible apply keep_modCmd
    | with_reducible refine Keep.foldl _ (fun _ _ _ => ?_) ?_

theorem keep_formChunk {s₀ s : State} (cls : Nat) (prompts : Nat)  (h : Keep s₀ s) : Keep s₀ (State.formChunk s cls prompts) := by
  unfold State.formChunk
  repeat' first
    | with_reducible assumption
    | with_reducible apply keep_startChunk
    | with_reducible apply keep_popQueue
    | with_reducible apply keep_failStart
    | with_reducible apply keep_startFront
    | dsimp only
    | split

theorem keep_execChunkStart {s₀ s : State} (cls : Fin 4) (prompts : Nat)  (h : Keep s₀ s) : KeepO s₀ (execChunkStart cls prompts s) := by
  unfold execChunkStart
  repeat' first
    | with_reducible assumption
    | with_reducible apply keep_formChunk
    | with_reducible apply keep_settled

theorem keep_execMaxHold {s₀ s : State} (gseq : Nat)  (h : Keep s₀ s) : KeepO s₀ (execMaxHold gseq s) := by
  unfold execMaxHold
  repeat' first
    | with_reducible assumption
    | with_reducible apply keep_modCmd
    | with_reducible apply keep_formChunk
    | with_reducible apply keep_settled
    | with_reducible refine KeepO.next ?_
    | split

theorem keep_execContextFreeze {s₀ s : State} (slot : Fin 4)  (h : Keep s₀ s) : KeepO s₀ (execContextFreeze slot s) := by
  unfold execContextFreeze
  repeat' first
    | with_reducible assumption
    | with_reducible apply keep_freezeCtx
    | with_reducible apply keep_settled
    | with_reducible refine KeepO.next ?_
    | dsimp only
    | split

/-! ### Lamb -/

theorem keep_runPass {s₀ s : State} (op : Nat) (c : Nat) (u : Nat) (t_ : Nat) (ev : PassEvents)  (h : Keep s₀ s) : KeepO s₀ (State.runPass s op c u
    t_ ev) := by
  unfold State.runPass
  repeat' first
    | with_reducible assumption
    | with_reducible apply keep_issuePass
    | with_reducible apply keep_tryEnd
    | with_reducible apply keep_settled

theorem keep_execMac {s₀ s : State} (core : Fin 48) (unit : Fin 8) (thread : Fin 16) (ev : PassEvents)  (h : Keep s₀ s) : KeepO s₀ (execMac core
    unit thread ev s) := by
  unfold execMac
  repeat' first
    | with_reducible assumption
    | with_reducible apply keep_runPass

theorem keep_execL2sq {s₀ s : State} (core : Fin 48) (unit : Fin 8) (thread : Fin 16) (ev : PassEvents)  (h : Keep s₀ s) : KeepO s₀ (execL2sq core
    unit thread ev s) := by
  unfold execL2sq
  repeat' first
    | with_reducible assumption
    | with_reducible apply keep_runPass

theorem keep_execL1 {s₀ s : State} (core : Fin 48) (unit : Fin 8) (thread : Fin 16) (ev : PassEvents)  (h : Keep s₀ s) : KeepO s₀ (execL1 core unit
    thread ev s) := by
  unfold execL1
  repeat' first
    | with_reducible assumption
    | with_reducible apply keep_runPass

theorem keep_execMaxplus {s₀ s : State} (core : Fin 48) (unit : Fin 8) (thread : Fin 16) (ev : PassEvents)  (h : Keep s₀ s) : KeepO s₀ (execMaxplus
    core unit thread ev s) := by
  unfold execMaxplus
  repeat' first
    | with_reducible assumption
    | with_reducible apply keep_runPass

theorem keep_execMinplus {s₀ s : State} (core : Fin 48) (unit : Fin 8) (thread : Fin 16) (ev : PassEvents)  (h : Keep s₀ s) : KeepO s₀ (execMinplus
    core unit thread ev s) := by
  unfold execMinplus
  repeat' first
    | with_reducible assumption
    | with_reducible apply keep_runPass

theorem keep_execHamming {s₀ s : State} (core : Fin 48) (unit : Fin 8) (thread : Fin 16) (ev : PassEvents)  (h : Keep s₀ s) : KeepO s₀ (execHamming
    core unit thread ev s) := by
  unfold execHamming
  repeat' first
    | with_reducible assumption
    | with_reducible apply keep_runPass

theorem keep_execGtcount {s₀ s : State} (core : Fin 48) (unit : Fin 8) (thread : Fin 16) (ev : PassEvents)  (h : Keep s₀ s) : KeepO s₀ (execGtcount
    core unit thread ev s) := by
  unfold execGtcount
  repeat' first
    | with_reducible assumption
    | with_reducible apply keep_runPass

theorem keep_execPassComplete {s₀ s : State} (core : Fin 48) (unit : Fin 8) (h : Keep s₀ s) : KeepO s₀ (execPassComplete core unit s) := by
  unfold execPassComplete
  split
  · exact h
  · exact keep_settled (keep_closeOp _ _ (keep_drainPass _ _ (t := (_, _)) h (by assumption)))

theorem keep_readOut {s₀ s : State} (o : OpCtx) (q : ConvRec) (c v : Nat) (h : Keep s₀ s) : Keep s₀ (s.readOut o q c v).2.2 := by
  unfold State.readOut
  refine foldl_keeps (P := fun p : List (Nat × List PWord) × List Nat × State => Keep s₀ p.2.2) (fun p a h => ?_) _ h
  dsimp only
  split
  · exact Keep.foldl _ (fun _ _ h => keep_noteWords _ _ _ _ _ h) h
  · exact h.updDraw _

theorem keep_issueConv {s₀ s : State} (c u t : Nat) (h : Keep s₀ s) : Keep s₀ (s.issueConv c u t) := by
  unfold State.issueConv
  repeat' first
    | exact h
    | exact keep_openOp _ _ (keep_advance _ _ _ (keep_taintTile _ _ _ (keep_modCore _ _ (keep_readOut _ _ _ _ h))))
    | dsimp only
    | split

theorem keep_execConv {s₀ s : State} (core : Fin 48) (unit : Fin 8) (thread : Fin 16)  (h : Keep s₀ s) : KeepO s₀ (execConv core unit thread s) := by
  unfold execConv
  repeat' first
    | with_reducible assumption
    | with_reducible apply keep_issueConv
    | with_reducible refine KeepO.next ?_

theorem keep_execConvComplete {s₀ s : State} (core : Fin 48) (unit : Fin 8)  (h : Keep s₀ s) : KeepO s₀ (execConvComplete core unit s) := by
  unfold execConvComplete
  repeat' first
    | with_reducible assumption
    | with_reducible apply keep_closeOp
    | with_reducible apply keep_settled
    | with_reducible apply keep_failTile
    | with_reducible apply keep_modCore
    | with_reducible apply keep_putWords
    | with_reducible refine KeepO.next ?_
    | with_reducible refine Keep.foldl _ (fun _ _ _ => ?_) ?_
    | dsimp only
    | split

/-! ### Chain -/

theorem keep_zeroCounts {s₀ s : State} (c : Nat) (op : ChainOp) (o : OpCtx) (q : ChainRec)  (h : Keep s₀ s) : Keep s₀ (State.zeroCounts s c op o q)
    := by
  unfold State.zeroCounts
  repeat' first
    | with_reducible assumption
    | with_reducible apply keep_putWords
    | with_reducible apply keep_modTile
    | with_reducible refine Keep.foldl _ (fun _ _ _ => ?_) ?_
    | dsimp only
    | split

theorem keep_presentRow {s₀ s : State} (c : Nat) (r : ChainRun)  (h : Keep s₀ s) : Keep s₀ (State.presentRow s c r) := by
  unfold State.presentRow
  repeat' first
    | with_reducible assumption
    | with_reducible apply keep_ror
    | with_reducible apply keep_count48
    | with_reducible apply keep_modCore
    | (simp only [Keep.mk_iff]; with_reducible refine Keep.updDraw _ ?_)
    | dsimp only
    | split

theorem keep_vecParity {s₀ s : State} (c : Nat) (kind : Nat) (unit : Nat) (idx : Nat) (addr : Nat)  (h : Keep s₀ s) : Keep s₀ (State.vecParity s c
    kind unit idx addr) := by
  unfold State.vecParity
  repeat' first
    | with_reducible assumption
    | with_reducible apply keep_noteParity
    | with_reducible apply keep_taintTile
    | with_reducible apply keep_raiseCore
    | with_reducible apply keep_rset

theorem keep_beginChain {s₀ s : State} (c : Nat) (op : ChainOp)  (h : Keep s₀ s) : Keep s₀ (State.beginChain s c op) := by
  unfold State.beginChain
  repeat' first
    | with_reducible assumption
    | with_reducible apply keep_ror
    | with_reducible apply keep_drawFree
    | with_reducible apply keep_vecParity
    | with_reducible apply keep_zeroCounts
    | with_reducible apply keep_rset
    | with_reducible apply keep_presentRow
    | dsimp only
    | split

theorem keep_issueChain {s₀ s : State} (c : Nat) (u : Nat) (t_ : Nat) (parity : Option Nat)  (h : Keep s₀ s) : Keep s₀ (State.issueChain s c u t_
    parity) := by
  unfold State.issueChain
  repeat' first
    | with_reducible assumption
    | with_reducible apply keep_modCore
    | with_reducible apply keep_register
    | with_reducible apply keep_beginChain
    | with_reducible apply keep_advance
    | with_reducible apply keep_openOp
    | dsimp only
    | split

theorem keep_execChain {s₀ s : State} (core : Fin 48) (unit : Fin 8) (thread : Fin 16) (parity : Option (Fin 4))  (h : Keep s₀ s) : KeepO s₀
    (execChain core unit thread parity s) := by
  unfold execChain
  repeat' first
    | with_reducible assumption
    | with_reducible apply keep_issueChain
    | with_reducible refine KeepO.next ?_

theorem keep_nextChain {s₀ s : State} (c : Nat)  (h : Keep s₀ s) : Keep s₀ (State.nextChain s c) := by
  unfold State.nextChain
  repeat' first
    | with_reducible assumption
    | with_reducible apply keep_beginChain
    | with_reducible apply keep_fire
    | with_reducible apply keep_modCore
    | dsimp only
    | split

theorem keep_execChainComplete {s₀ s : State} (core : Fin 48) (stall : Nat)  (h : Keep s₀ s) : KeepO s₀ (execChainComplete core stall s) := by
  unfold execChainComplete
  repeat' first
    | with_reducible assumption
    | with_reducible apply keep_rclr
    | with_reducible apply keep_nextChain
    | with_reducible apply keep_closeOp
    | with_reducible apply keep_settled
    | with_reducible apply keep_count48
    | with_reducible apply keep_modCore
    | with_reducible refine KeepO.next ?_
    | dsimp only
    | split

theorem keep_poisonRow {s₀ s : State} (e_ : ChainEnv) (bad : Bool)  (h : Keep s₀ s) : Keep s₀ (State.poisonRow s e_ bad) := by
  unfold State.poisonRow
  repeat' first
    | with_reducible assumption
    | with_reducible apply keep_modCore
    | with_reducible apply keep_count48
    | with_reducible apply keep_ror
    | dsimp only
    | split

theorem keep_modChain {s₀ s : State} (c : Nat) (f : ChainRun → ChainRun)  (h : Keep s₀ s) : Keep s₀ (State.modChain s c f) := by
  unfold State.modChain
  repeat' first
    | with_reducible assumption
    | with_reducible apply keep_modCore

theorem keep_putV {s₀ s : State} (c : Nat) (i : Nat) (l : List Word)  (h : Keep s₀ s) : Keep s₀ (State.putV s c i l) := by
  unfold State.putV
  repeat' first
    | with_reducible assumption
    | with_reducible apply keep_modChain

theorem keep_putScalar {s₀ s : State} (e_ : ChainEnv) (d : Nat) (w : Word)  (h : Keep s₀ s) : Keep s₀ (State.putScalar s e_ d w) := by
  unfold State.putScalar
  repeat' first
    | with_reducible assumption
    | with_reducible apply keep_putV
    | with_reducible apply keep_modCore
    | with_reducible apply keep_modChain
    | dsimp only
    | split

theorem keep_stepChain {s₀ s : State} (c : Nat) (slots : Nat) (over_ : Bool)  (h : Keep s₀ s) : Keep s₀ (State.stepChain s c slots over_) := by
  unfold State.stepChain
  repeat' first
    | with_reducible assumption
    | with_reducible apply keep_presentRow
    | with_reducible apply keep_modCore
    | dsimp only
    | split

theorem keep_noteTensor {s₀ s : State} (c : Nat) (t_ : Tensor) (base : Nat) (row : Nat) (col : Nat) (n : Nat)  (h : Keep s₀ s) : Keep s₀
    (State.noteTensor s c t_ base row col n) := by
  unfold State.noteTensor
  repeat' first
    | with_reducible assumption
    | with_reducible apply keep_noteWords
    | dsimp only
    | split

theorem keep_storeBytes {s₀ s : State} (c : Nat) (a1 : Nat) (bs : List Byte) (bad : Bool)  (h : Keep s₀ s) : Keep s₀ (State.storeBytes s c a1 bs
    bad) := by
  unfold State.storeBytes
  repeat' first
    | with_reducible assumption
    | with_reducible apply keep_putBytes
    | with_reducible apply keep_poisonRange
    | split

theorem keep_storeTensor {s₀ s : State} (c : Nat) (t_ : Tensor) (base : Nat) (row : Nat) (col : Nat) (fmt : Nat) (l : List Word) (bad : Bool)  (h :
    Keep s₀ s) : Keep s₀ (State.storeTensor s c t_ base row col fmt l bad) := by
  unfold State.storeTensor
  repeat' first
    | with_reducible assumption
    | with_reducible apply keep_storeBytes
    | dsimp only
    | split

theorem keep_ChainEnv_storeSlot {s₀ s : State} (e_ : ChainEnv) (col : Nat) (l : List Word) (bad : Bool)  (h : Keep s₀ s) : Keep s₀
    (ChainEnv.storeSlot e_ s col l bad) := by
  unfold ChainEnv.storeSlot
  repeat' first
    | with_reducible assumption
    | with_reducible apply keep_putWords
    | with_reducible refine Keep.foldl _ (fun _ _ _ => ?_) ?_

theorem keep_ChainEnv_load {s₀ s : State} (e_ : ChainEnv) (row : Nat) (col : Nat) (n : Nat)  (h : Keep s₀ s) : Keep s₀ (ChainEnv.load e_ s row col
    n).2 := by
  unfold ChainEnv.load
  repeat' first
    | with_reducible assumption
    | with_reducible apply keep_taintTile
    | with_reducible apply keep_poisonRow
    | with_reducible apply keep_noteTensor
    | with_reducible apply keep_noteWords
    | with_reducible refine Keep.foldl _ (fun _ _ _ => ?_) ?_
    | dsimp only
    | split

theorem keep_ChainEnv_store {s₀ s : State} (e_ : ChainEnv) (col : Nat) (fmt : Nat) (l : List Word)  (h : Keep s₀ s) : Keep s₀ (ChainEnv.store e_ s
    col fmt l) := by
  unfold ChainEnv.store
  repeat' first
    | with_reducible assumption
    | with_reducible apply keep_storeTensor
    | with_reducible apply keep_ChainEnv_storeSlot
    | dsimp only
    | split

theorem keep_rangeError {s₀ s : State} (e_ : ChainEnv) (addr : Nat) (sel : Nat) (value : Word)  (h : Keep s₀ s) : Keep s₀ (State.rangeError s e_
    addr sel value) := by
  unfold State.rangeError
  repeat' first
    | with_reducible assumption
    | with_reducible apply keep_raiseCore
    | with_reducible apply keep_modCtx
    | with_reducible apply keep_ror
    | dsimp only
    | split

theorem keep_chainStep {s₀ s : State} (c : Nat) (opc : Nat) (f : ChainEnv → State → State × Nat) (hf : ∀ e s, Keep s₀ s → Keep s₀ (f e s).1) (h :
    Keep s₀ s) : KeepO s₀ (State.chainStep s c opc f) := by
  unfold State.chainStep
  repeat' first
    | with_reducible assumption
    | with_reducible apply hf
    | with_reducible apply keep_stepChain
    | with_reducible refine KeepO.next ?_
    | dsimp only
    | split

theorem keep_execLd {s₀ s : State} (core : Fin 48)  (h : Keep s₀ s) : KeepO s₀ (execLd core s) := by
  unfold execLd
  repeat' first
    | with_reducible assumption
    | with_reducible apply keep_putV
    | with_reducible apply keep_ChainEnv_load
    | with_reducible apply keep_chainStep
    | intro _

theorem keep_execLdv {s₀ s : State} (core : Fin 48)  (h : Keep s₀ s) : KeepO s₀ (execLdv core s) := by
  unfold execLdv
  repeat' first
    | with_reducible assumption
    | with_reducible apply keep_putV
    | with_reducible apply keep_ChainEnv_load
    | with_reducible apply keep_chainStep
    | intro _

theorem keep_execLdp {s₀ s : State} (core : Fin 48)  (h : Keep s₀ s) : KeepO s₀ (execLdp core s) := by
  unfold execLdp
  repeat' first
    | with_reducible assumption
    | with_reducible apply keep_ChainEnv_load
    | with_reducible apply keep_rangeError
    | with_reducible apply keep_putV
    | with_reducible apply keep_chainStep
    | intro _
    | dsimp only
    | split

theorem keep_execSt {s₀ s : State} (core : Fin 48)  (h : Keep s₀ s) : KeepO s₀ (execSt core s) := by
  unfold execSt
  repeat' first
    | with_reducible assumption
    | with_reducible apply keep_ChainEnv_store
    | with_reducible apply keep_poisonRow
    | with_reducible apply keep_chainStep
    | intro _

theorem keep_execLdq {s₀ s : State} (core : Fin 48)  (h : Keep s₀ s) : KeepO s₀ (execLdq core s) := by
  unfold execLdq
  repeat' first
    | with_reducible assumption
    | with_reducible apply keep_putScalar
    | with_reducible apply keep_ChainEnv_load
    | with_reducible apply keep_chainStep
    | intro _

theorem keep_execStq {s₀ s : State} (core : Fin 48)  (h : Keep s₀ s) : KeepO s₀ (execStq core s) := by
  unfold execStq
  repeat' first
    | with_reducible assumption
    | with_reducible apply keep_poisonRow
    | with_reducible apply keep_ChainEnv_store
    | with_reducible apply keep_chainStep
    | intro _

theorem keep_ChainEnv_arith {s₀ s : State} (e_ : ChainEnv) (as : List Nat) (f : List Word → Word)  (h : Keep s₀ s) : Keep s₀ (ChainEnv.arith e_ as
    f s).1 := by
  unfold ChainEnv.arith
  repeat' first
    | with_reducible assumption
    | with_reducible apply keep_putScalar
    | with_reducible apply keep_poisonRow
    | with_reducible apply keep_putV
    | dsimp only
    | split

theorem keep_ChainEnv_unary {s₀ s : State} (e_ : ChainEnv) (f : Word → Word)  (h : Keep s₀ s) : Keep s₀ (ChainEnv.unary e_ f s).1 := by
  unfold ChainEnv.unary
  repeat' first
    | with_reducible assumption
    | with_reducible apply keep_ChainEnv_arith

theorem keep_ChainEnv_binary {s₀ s : State} (e_ : ChainEnv) (f : Word → Word → Word)  (h : Keep s₀ s) : Keep s₀ (ChainEnv.binary e_ f s).1 := by
  unfold ChainEnv.binary
  repeat' first
    | with_reducible assumption
    | with_reducible apply keep_ChainEnv_arith

theorem keep_ChainEnv_ternary {s₀ s : State} (e_ : ChainEnv) (f : Word → Word → Word → Word)  (h : Keep s₀ s) : Keep s₀ (ChainEnv.ternary e_ f s).1
    := by
  unfold ChainEnv.ternary
  repeat' first
    | with_reducible assumption
    | with_reducible apply keep_ChainEnv_arith

theorem keep_execAdd {s₀ s : State} (core : Fin 48)  (h : Keep s₀ s) : KeepO s₀ (execAdd core s) := by
  unfold execAdd
  repeat' first
    | with_reducible assumption
    | with_reducible apply keep_ChainEnv_binary
    | with_reducible apply keep_chainStep
    | intro _

theorem keep_execSub {s₀ s : State} (core : Fin 48)  (h : Keep s₀ s) : KeepO s₀ (execSub core s) := by
  unfold execSub
  repeat' first
    | with_reducible assumption
    | with_reducible apply keep_ChainEnv_binary
    | with_reducible apply keep_chainStep
    | intro _

theorem keep_execMul {s₀ s : State} (core : Fin 48)  (h : Keep s₀ s) : KeepO s₀ (execMul core s) := by
  unfold execMul
  repeat' first
    | with_reducible assumption
    | with_reducible apply keep_ChainEnv_binary
    | with_reducible apply keep_chainStep
    | intro _

theorem keep_execFma {s₀ s : State} (core : Fin 48)  (h : Keep s₀ s) : KeepO s₀ (execFma core s) := by
  unfold execFma
  repeat' first
    | with_reducible assumption
    | with_reducible apply keep_ChainEnv_ternary
    | with_reducible apply keep_chainStep
    | intro _

theorem keep_execMax {s₀ s : State} (core : Fin 48)  (h : Keep s₀ s) : KeepO s₀ (execMax core s) := by
  unfold execMax
  repeat' first
    | with_reducible assumption
    | with_reducible apply keep_ChainEnv_binary
    | with_reducible apply keep_chainStep
    | intro _

theorem keep_execMin {s₀ s : State} (core : Fin 48)  (h : Keep s₀ s) : KeepO s₀ (execMin core s) := by
  unfold execMin
  repeat' first
    | with_reducible assumption
    | with_reducible apply keep_ChainEnv_binary
    | with_reducible apply keep_chainStep
    | intro _

theorem keep_execNeg {s₀ s : State} (core : Fin 48)  (h : Keep s₀ s) : KeepO s₀ (execNeg core s) := by
  unfold execNeg
  repeat' first
    | with_reducible assumption
    | with_reducible apply keep_ChainEnv_unary
    | with_reducible apply keep_chainStep
    | intro _

theorem keep_execAbs {s₀ s : State} (core : Fin 48)  (h : Keep s₀ s) : KeepO s₀ (execAbs core s) := by
  unfold execAbs
  repeat' first
    | with_reducible assumption
    | with_reducible apply keep_ChainEnv_unary
    | with_reducible apply keep_chainStep
    | intro _

theorem keep_execSel {s₀ s : State} (core : Fin 48)  (h : Keep s₀ s) : KeepO s₀ (execSel core s) := by
  unfold execSel
  repeat' first
    | with_reducible assumption
    | with_reducible apply keep_ChainEnv_ternary
    | with_reducible apply keep_chainStep
    | intro _

theorem keep_execCgt {s₀ s : State} (core : Fin 48)  (h : Keep s₀ s) : KeepO s₀ (execCgt core s) := by
  unfold execCgt
  repeat' first
    | with_reducible assumption
    | with_reducible apply keep_ChainEnv_binary
    | with_reducible apply keep_chainStep
    | intro _

theorem keep_execCge {s₀ s : State} (core : Fin 48)  (h : Keep s₀ s) : KeepO s₀ (execCge core s) := by
  unfold execCge
  repeat' first
    | with_reducible assumption
    | with_reducible apply keep_ChainEnv_binary
    | with_reducible apply keep_chainStep
    | intro _

theorem keep_execCeq {s₀ s : State} (core : Fin 48)  (h : Keep s₀ s) : KeepO s₀ (execCeq core s) := by
  unfold execCeq
  repeat' first
    | with_reducible assumption
    | with_reducible apply keep_ChainEnv_binary
    | with_reducible apply keep_chainStep
    | intro _

theorem keep_execExp {s₀ s : State} (core : Fin 48)  (h : Keep s₀ s) : KeepO s₀ (execExp core s) := by
  unfold execExp
  repeat' first
    | with_reducible assumption
    | with_reducible apply keep_ChainEnv_unary
    | with_reducible apply keep_chainStep
    | intro _

theorem keep_execExp2 {s₀ s : State} (core : Fin 48)  (h : Keep s₀ s) : KeepO s₀ (execExp2 core s) := by
  unfold execExp2
  repeat' first
    | with_reducible assumption
    | with_reducible apply keep_ChainEnv_unary
    | with_reducible apply keep_chainStep
    | intro _

theorem keep_execLog2 {s₀ s : State} (core : Fin 48)  (h : Keep s₀ s) : KeepO s₀ (execLog2 core s) := by
  unfold execLog2
  repeat' first
    | with_reducible assumption
    | with_reducible apply keep_ChainEnv_unary
    | with_reducible apply keep_chainStep
    | intro _

theorem keep_execRsqrt {s₀ s : State} (core : Fin 48)  (h : Keep s₀ s) : KeepO s₀ (execRsqrt core s) := by
  unfold execRsqrt
  repeat' first
    | with_reducible assumption
    | with_reducible apply keep_ChainEnv_unary
    | with_reducible apply keep_chainStep
    | intro _

theorem keep_execRcp {s₀ s : State} (core : Fin 48)  (h : Keep s₀ s) : KeepO s₀ (execRcp core s) := by
  unfold execRcp
  repeat' first
    | with_reducible assumption
    | with_reducible apply keep_ChainEnv_unary
    | with_reducible apply keep_chainStep
    | intro _

theorem keep_perm {s₀ s : State} (c : Nat) (mode : Nat) (f : Nat → List Word → List Word)  (h : Keep s₀ s) : KeepO s₀ (State.perm s c mode f) := by
  unfold State.perm
  repeat' first
    | with_reducible assumption
    | with_reducible apply keep_poisonRow
    | with_reducible apply keep_putV
    | with_reducible apply keep_stepChain
    | with_reducible refine KeepO.next ?_
    | dsimp only
    | split

theorem keep_execPermRotateHalf {s₀ s : State} (core : Fin 48)  (h : Keep s₀ s) : KeepO s₀ (execPermRotateHalf core s) := by
  unfold execPermRotateHalf
  repeat' first
    | with_reducible assumption
    | with_reducible apply keep_perm

theorem keep_execPermPairSwap {s₀ s : State} (core : Fin 48)  (h : Keep s₀ s) : KeepO s₀ (execPermPairSwap core s) := by
  unfold execPermPairSwap
  repeat' first
    | with_reducible assumption
    | with_reducible apply keep_perm

theorem keep_ChainEnv_reduce {s₀ s : State} (e_ : ChainEnv) (f : List Word → Word)  (h : Keep s₀ s) : Keep s₀ (ChainEnv.reduce e_ f s).1 := by
  unfold ChainEnv.reduce
  repeat' first
    | with_reducible assumption
    | with_reducible apply keep_putScalar

theorem keep_execRsum {s₀ s : State} (core : Fin 48)  (h : Keep s₀ s) : KeepO s₀ (execRsum core s) := by
  unfold execRsum
  repeat' first
    | with_reducible assumption
    | with_reducible apply keep_ChainEnv_reduce
    | with_reducible apply keep_chainStep
    | intro _

theorem keep_execRmax {s₀ s : State} (core : Fin 48)  (h : Keep s₀ s) : KeepO s₀ (execRmax core s) := by
  unfold execRmax
  repeat' first
    | with_reducible assumption
    | with_reducible apply keep_ChainEnv_reduce
    | with_reducible apply keep_chainStep
    | intro _

theorem keep_execRmin {s₀ s : State} (core : Fin 48)  (h : Keep s₀ s) : KeepO s₀ (execRmin core s) := by
  unfold execRmin
  repeat' first
    | with_reducible assumption
    | with_reducible apply keep_ChainEnv_reduce
    | with_reducible apply keep_chainStep
    | intro _

theorem keep_execRssq {s₀ s : State} (core : Fin 48)  (h : Keep s₀ s) : KeepO s₀ (execRssq core s) := by
  unfold execRssq
  repeat' first
    | with_reducible assumption
    | with_reducible apply keep_ChainEnv_reduce
    | with_reducible apply keep_chainStep
    | intro _

theorem keep_execOsm {s₀ s : State} (core : Fin 48)  (h : Keep s₀ s) : KeepO s₀ (execOsm core s) := by
  unfold execOsm
  repeat' first
    | with_reducible assumption
    | with_reducible apply keep_count48
    | with_reducible apply keep_poisonRow
    | with_reducible apply keep_putScalar
    | with_reducible apply keep_chainStep
    | intro _
    | dsimp only
    | split

theorem keep_topk {s₀ s : State} (c : Nat) (smallest : Bool)  (h : Keep s₀ s) : KeepO s₀ (State.topk s c smallest) := by
  unfold State.topk
  repeat' first
    | with_reducible assumption
    | with_reducible apply keep_putV
    | with_reducible apply keep_stepChain
    | with_reducible refine KeepO.next ?_
    | dsimp only
    | split

theorem keep_execTopkLargest {s₀ s : State} (core : Fin 48)  (h : Keep s₀ s) : KeepO s₀ (execTopkLargest core s) := by
  unfold execTopkLargest
  repeat' first
    | with_reducible assumption
    | with_reducible apply keep_topk

theorem keep_execTopkSmallest {s₀ s : State} (core : Fin 48)  (h : Keep s₀ s) : KeepO s₀ (execTopkSmallest core s) := by
  unfold execTopkSmallest
  repeat' first
    | with_reducible assumption
    | with_reducible apply keep_topk

theorem keep_countOne {s₀ s : State} (e_ : ChainEnv) (row : Nat) (lane : Word)  (h : Keep s₀ s) : Keep s₀ (State.countOne s e_ row lane) := by
  unfold State.countOne
  repeat' first
    | with_reducible assumption
    | with_reducible apply keep_noteWords
    | with_reducible apply keep_putWords
    | with_reducible apply keep_rangeError
    | dsimp only
    | split

theorem keep_execSelcnt {s₀ s : State} (core : Fin 48)  (h : Keep s₀ s) : KeepO s₀ (execSelcnt core s) := by
  unfold execSelcnt
  repeat' first
    | with_reducible assumption
    | with_reducible apply keep_poisonRange
    | with_reducible apply keep_countOne
    | with_reducible apply keep_chainStep
    | with_reducible refine Keep.foldl _ (fun _ _ _ => ?_) ?_
    | intro _
    | dsimp only
    | split

theorem keep_execStg {s₀ s : State} (core : Fin 48)  (h : Keep s₀ s) : KeepO s₀ (execStg core s) := by
  unfold execStg
  repeat' first
    | with_reducible assumption
    | with_reducible apply keep_putV
    | with_reducible apply keep_chainStep
    | with_reducible refine Keep.foldl _ (fun _ _ _ => ?_) ?_
    | intro _

theorem keep_execEnd {s₀ s : State} (core : Fin 48)  (h : Keep s₀ s) : KeepO s₀ (execEnd core s) := by
  unfold execEnd
  repeat' first
    | with_reducible assumption
    | with_reducible apply keep_stepChain
    | with_reducible refine KeepO.next ?_
    | split

end Sys2Proof.Machine
end

