-- ==== Sys2Proof/Laws/KeepMemory.lean ====
section
/-! SUPPORT. `Keep` for streams, thread accesses, barriers and pages: one lemma for each operation. -/

namespace Sys2Proof.Machine

open Sys2Proof

set_option linter.unusedTactic false
set_option linter.unreachableTactic false
set_option linter.unusedVariables false
set_option linter.unusedSimpArgs false

/-! ### Streams -/

theorem keep_modStream {s₀ s : State} (c : Nat) (k : Nat) (f : StreamCtx → StreamCtx)  (h : Keep s₀ s) : Keep s₀ (State.modStream s c k f) := by
  unfold State.modStream
  repeat' first
    | with_reducible assumption
    | with_reducible apply keep_modCore

theorem keep_wakeFor {s₀ s : State} (c : Nat) (kind : Nat) (obj : Nat)  (h : Keep s₀ s) : Keep s₀ (State.wakeFor s c kind obj) := by
  unfold State.wakeFor
  repeat' first
    | with_reducible assumption
    | with_reducible apply keep_count48
    | with_reducible apply keep_drawFree
    | with_reducible apply keep_fire
    | split

theorem keep_noteWrote {s₀ s : State} (k : Nat) (a1 : Nat) (n : Nat)  (h : Keep s₀ s) : Keep s₀ (State.noteWrote s k a1 n) := by
  unfold State.noteWrote
  repeat' first
    | with_reducible assumption
    | with_reducible apply keep_modCtx
    | split

theorem keep_endStream {s₀ s : State} (c : Nat) (k : Nat) (st : StreamCtx)  (h : Keep s₀ s) : Keep s₀ (State.endStream s c k st) := by
  unfold State.endStream
  repeat' first
    | with_reducible assumption
    | with_reducible apply keep_signalDone
    | with_reducible apply keep_wakeFor
    | with_reducible apply keep_closeOp
    | with_reducible apply keep_modCore
    | with_reducible apply keep_failTile
    | split

theorem keep_endIfOver {s₀ s : State} (c : Nat) (k : Nat)  (h : Keep s₀ s) : Keep s₀ (State.endIfOver s c k) := by
  unfold State.endIfOver
  repeat' first
    | with_reducible assumption
    | with_reducible apply keep_endStream
    | split

theorem keep_failStream {s₀ s : State} (c : Nat) (k : Nat) (st : Nat) (taint : List Nat)  (h : Keep s₀ s) : Keep s₀ (State.failStream s c k st
    taint) := by
  unfold State.failStream
  repeat' first
    | with_reducible assumption
    | with_reducible apply keep_modStream
    | with_reducible apply keep_ror
    | with_reducible apply keep_taintTile
    | split

theorem keep_place {s₀ s : State} (c : Nat) (owner : Nat) (tier : Nat) (write : Bool) (a1 : Nat) (n : Nat)  (h : Keep s₀ s) : Keep s₀ (State.place
    s c owner tier write a1 n).2 := by
  unfold State.place
  repeat' first
    | with_reducible assumption
    | with_reducible apply keep_translate
    | with_reducible refine keep_of_eq2 (by with_reducible assumption) ?_
    | dsimp only
    | split

theorem keep_refusedRec {s₀ s : State} (c : Nat) (sub : Nat) (st : Nat) (addr : Nat)  (h : Keep s₀ s) : Keep s₀ (State.refusedRec s c sub st addr)
    := by
  unfold State.refusedRec
  repeat' first
    | with_reducible assumption
    | with_reducible apply keep_raiseCore
    | with_reducible apply keep_unreachRec
    | split

theorem keep_indexRange {s₀ s : State} (c : Nat) (k : Nat) (st : StreamCtx) (sel : Nat) (block : Nat)  (h : Keep s₀ s) : Keep s₀ (State.indexRange
    s c k st sel block) := by
  unfold State.indexRange
  repeat' first
    | with_reducible assumption
    | with_reducible apply keep_failStream
    | with_reducible apply keep_raiseCore
    | split

theorem keep_readIndex {s₀ s : State} (c : Nat) (k : Nat) (st : StreamCtx) (e_ : BlEntry)  (h : Keep s₀ s) : Keep s₀ (State.readIndex s c k st e_)
    := by
  unfold State.readIndex
  repeat' first
    | with_reducible assumption
    | with_reducible apply keep_indexRange
    | with_reducible apply keep_failStream
    | with_reducible apply keep_noteWords
    | with_reducible apply keep_modStream
    | (simp only [Keep.mk_iff]; with_reducible refine Keep.updDraw2 _ _ ?_)
    | dsimp only
    | split

theorem keep_sendFlits {s₀ s : State} (sel : Bool) (fs : List Flit)  (h : Keep s₀ s) : Keep s₀ (State.sendFlits s sel fs) := by
  unfold State.sendFlits
  repeat' first
    | with_reducible assumption
    | with_reducible apply keep_sendFlit
    | with_reducible refine Keep.foldl _ (fun _ _ _ => ?_) ?_

theorem keep_issueSegment {s₀ s : State} (c : Nat) (k : Nat) (tag : Nat) (st : StreamCtx) (src : Place) (dst : Place) (srcOff : Nat) (n : Nat)  (h
    : Keep s₀ s) : Keep s₀ (State.issueSegment s c k tag st src dst srcOff n) := by
  unfold State.issueSegment
  repeat' first
    | with_reducible assumption
    | with_reducible apply keep_sendFlit
    | with_reducible apply keep_sendFlits
    | with_reducible apply keep_noteWords
    | with_reducible apply keep_taintTile
    | with_reducible apply keep_modStream
    | dsimp only
    | split

theorem keep_haltStream {s₀ s : State} (c : Nat) (k : Nat) (p : Nat) (st : StreamCtx)  (h : Keep s₀ s) : Keep s₀ (State.haltStream s c k p st) := by
  unfold State.haltStream
  repeat' first
    | with_reducible assumption
    | with_reducible apply keep_count48
    | with_reducible apply keep_rset
    | with_reducible apply keep_modStream

theorem keep_streamStep {s₀ s : State} (c k : Nat) {t : State} (h : Keep s₀ s) (e : s.streamStep c k = .next t) : Keep s₀ t := by
  revert e
  unfold State.streamStep
  dsimp only
  repeat' split
  all_goals rintro ⟨⟩
  all_goals repeat' first
    | with_reducible assumption
    | with_reducible apply keep_readIndex
    | with_reducible apply keep_modStream
    | with_reducible apply keep_failStream
    | with_reducible apply keep_noteWords
    | with_reducible apply keep_count48
    | with_reducible apply keep_indexRange
    | with_reducible apply keep_refusedRec
    | with_reducible apply keep_haltStream
    | with_reducible apply keep_issueSegment
    | with_reducible refine keep_of_eq2 (by with_reducible assumption) ?_
    | with_reducible apply keep_place

theorem keep_pumpStream {s₀ s : State} (c k fuel : Nat) (h : Keep s₀ s) : Keep s₀ (State.pumpStream c k fuel s) := by
  induction fuel generalizing s with
  | zero => exact h
  | succ n ih =>
    unfold State.pumpStream
    split
    · exact h
    · exact ih (keep_streamStep _ _ h (by assumption))

theorem keep_runStream {s₀ s : State} (c : Nat) (k : Nat)  (h : Keep s₀ s) : Keep s₀ (State.runStream s c k) := by
  unfold State.runStream
  repeat' first
    | with_reducible assumption
    | with_reducible apply keep_pumpStream
    | with_reducible apply keep_endIfOver
    | split

theorem keep_issueStream {s₀ s : State} (c : Nat) (u : Nat) (t_ : Nat)  (h : Keep s₀ s) : Keep s₀ (State.issueStream s c u t_) := by
  unfold State.issueStream
  repeat' first
    | with_reducible assumption
    | with_reducible apply keep_register
    | with_reducible apply keep_modCore
    | with_reducible apply keep_advance
    | with_reducible apply keep_openOp
    | with_reducible apply keep_runStream
    | dsimp only
    | split

theorem keep_execStream {s₀ s : State} (core : Fin 48) (unit : Fin 8) (thread : Fin 16)  (h : Keep s₀ s) : KeepO s₀ (execStream core unit thread s)
    := by
  unfold execStream
  repeat' first
    | with_reducible assumption
    | with_reducible apply keep_issueStream
    | with_reducible apply keep_settled

theorem keep_closeSegment {s₀ s : State} (c : Nat) (k : Nat) (g : Segment) (status : Nat)  (h : Keep s₀ s) : Keep s₀ (State.closeSegment s c k g
    status) := by
  unfold State.closeSegment
  repeat' first
    | with_reducible assumption
    | with_reducible apply keep_runStream
    | with_reducible apply keep_failStream
    | with_reducible apply keep_count48
    | with_reducible apply keep_modStream
    | split

theorem keep_ackSegment {s₀ s : State} (c : Nat) (k : Nat) (tag : Nat) (status : Nat)  (h : Keep s₀ s) : Keep s₀ (State.ackSegment s c k tag
    status) := by
  unfold State.ackSegment
  repeat' first
    | with_reducible assumption
    | with_reducible apply keep_noteWrote
    | with_reducible apply keep_putWords
    | with_reducible apply keep_closeSegment
    | dsimp only
    | split

theorem keep_execSegmentAcknowledged {s₀ s : State} (core : Fin 48) (ctx : Fin 64) (tag : Fin 256) (status : Nat)  (h : Keep s₀ s) : KeepO s₀
    (execSegmentAcknowledged core ctx tag status s) := by
  unfold execSegmentAcknowledged
  repeat' first
    | with_reducible assumption
    | with_reducible apply keep_ackSegment
    | with_reducible apply keep_settled

theorem keep_streamTimedOut {s₀ s : State} (c : Nat) (k : Nat)  (h : Keep s₀ s) : Keep s₀ (State.streamTimedOut s c k) := by
  unfold State.streamTimedOut
  repeat' first
    | with_reducible assumption
    | with_reducible apply keep_raiseCore
    | with_reducible apply keep_modStream
    | with_reducible apply keep_failStream
    | with_reducible apply keep_endIfOver
    | dsimp only
    | split

theorem keep_execStreamTimeout {s₀ s : State} (core : Fin 48) (ctx : Fin 64)  (h : Keep s₀ s) : KeepO s₀ (execStreamTimeout core ctx s) := by
  unfold execStreamTimeout
  repeat' first
    | with_reducible assumption
    | with_reducible apply keep_streamTimedOut
    | with_reducible apply keep_settled

theorem keep_faultLimit {s₀ s : State} (c : Nat) (k : Nat)  (h : Keep s₀ s) : Keep s₀ (State.faultLimit s c k) := by
  unfold State.faultLimit
  repeat' first
    | with_reducible assumption
    | with_reducible apply keep_raiseCore
    | with_reducible apply keep_failStream
    | with_reducible apply keep_endIfOver
    | split

theorem keep_execFaultLimit {s₀ s : State} (core : Fin 48) (ctx : Fin 64)  (h : Keep s₀ s) : KeepO s₀ (execFaultLimit core ctx s) := by
  unfold execFaultLimit
  repeat' first
    | with_reducible assumption
    | with_reducible apply keep_faultLimit
    | with_reducible apply keep_settled

theorem keep_applyWord {s₀ s : State} (add : Bool) (a1 : Nat) (w : PWord)  (h : Keep s₀ s) : Keep s₀ (State.applyWord s add a1 w) := by
  unfold State.applyWord
  repeat' first
    | with_reducible assumption
    | with_reducible apply keep_noteWords
    | with_reducible apply keep_putWords
    | dsimp only
    | split

theorem keep_sendMules {s₀ a2 : State} (c : Nat) (dev : Nat) (a1 : List (Nat × MuleSlot))  (h : Keep s₀ a2) : Keep s₀ (State.sendMules c dev a1 a2)
    := by
  induction a1 generalizing a2 with
  | nil =>
    unfold State.sendMules
    repeat' first
      | with_reducible assumption
      | with_reducible apply ih
      | with_reducible apply keep_sendFlit
      | with_reducible apply keep_sendFlits
      | with_reducible apply keep_applyWord
      | with_reducible apply keep_putWords
      | with_reducible apply keep_modCore
      | dsimp only
      | split
  | cons x l ih =>
    unfold State.sendMules
    repeat' first
      | with_reducible assumption
      | with_reducible apply ih
      | with_reducible apply keep_sendFlit
      | with_reducible apply keep_sendFlits
      | with_reducible apply keep_applyWord
      | with_reducible apply keep_putWords
      | with_reducible apply keep_modCore
      | dsimp only
      | split

theorem keep_issueMule {s₀ s : State} (op : Nat) (c : Nat) (u : Nat) (t_ : Nat)  (h : Keep s₀ s) : Keep s₀ (State.issueMule s op c u t_) := by
  unfold State.issueMule
  repeat' first
    | with_reducible assumption
    | with_reducible apply keep_sendFlit
    | with_reducible apply keep_noteWords
    | with_reducible apply keep_taintTile
    | with_reducible apply keep_sendMules
    | with_reducible apply keep_refusedRec
    | with_reducible apply keep_ror
    | with_reducible apply keep_modCore
    | with_reducible apply keep_advance
    | with_reducible apply keep_openOp
    | with_reducible apply keep_register
    | dsimp only
    | split

theorem keep_execCopy {s₀ s : State} (core : Fin 48) (unit : Fin 8) (thread : Fin 16)  (h : Keep s₀ s) : KeepO s₀ (execCopy core unit thread s) := by
  unfold execCopy
  repeat' first
    | with_reducible assumption
    | with_reducible apply keep_issueMule
    | with_reducible apply keep_settled

theorem keep_execPut32 {s₀ s : State} (core : Fin 48) (unit : Fin 8) (thread : Fin 16)  (h : Keep s₀ s) : KeepO s₀ (execPut32 core unit thread s)
    := by
  unfold execPut32
  repeat' first
    | with_reducible assumption
    | with_reducible apply keep_issueMule
    | with_reducible apply keep_settled

theorem keep_execAdd32 {s₀ s : State} (core : Fin 48) (unit : Fin 8) (thread : Fin 16)  (h : Keep s₀ s) : KeepO s₀ (execAdd32 core unit thread s)
    := by
  unfold execAdd32
  repeat' first
    | with_reducible assumption
    | with_reducible apply keep_issueMule
    | with_reducible apply keep_settled

theorem keep_endMule {s₀ s : State} (c : Nat) (i : Nat) (status : Nat)  (h : Keep s₀ s) : Keep s₀ (State.endMule s c i status) := by
  unfold State.endMule
  repeat' first
    | with_reducible assumption
    | with_reducible apply keep_sendMules
    | with_reducible apply keep_signalDone
    | with_reducible apply keep_wakeFor
    | with_reducible apply keep_closeOp
    | with_reducible apply keep_noteWrote
    | with_reducible apply keep_count48
    | with_reducible apply keep_ror
    | with_reducible apply keep_failTile
    | with_reducible apply keep_modCore
    | dsimp only
    | split

theorem keep_execMuleComplete {s₀ s : State} (core : Fin 48) (slot : Fin 16) (status : Nat)  (h : Keep s₀ s) : KeepO s₀ (execMuleComplete core slot
    status s) := by
  unfold execMuleComplete
  repeat' first
    | with_reducible assumption
    | with_reducible apply keep_endMule
    | with_reducible apply keep_settled

theorem keep_fillLine {s₀ s : State} (c : Nat) (a1 : Nat) (ws : List (Word × BitVec 7))  (h : Keep s₀ s) : Keep s₀ (State.fillLine s c a1 ws) := by
  unfold State.fillLine
  repeat' first
    | with_reducible assumption
    | with_reducible apply keep_drawFree
    | with_reducible apply keep_modCore
    | dsimp only
    | split

theorem keep_lineWords {s₀ s : State} (c a : Nat) (h : Keep s₀ s) : Keep s₀ (s.lineWords c a).2 := by
  unfold State.lineWords
  split
  · exact h.updDraw _
  · exact keep_noteWords _ _ _ _ _ h

theorem keep_taintAll {s₀ s : State} (c : Nat) (as : List Nat)  (h : Keep s₀ s) : Keep s₀ (State.taintAll s c as) := by
  unfold State.taintAll
  repeat' first
    | with_reducible assumption
    | with_reducible apply keep_taintTile
    | with_reducible refine Keep.foldl _ (fun _ _ _ => ?_) ?_

theorem keep_loadPiece {s₀ s : State} (c a n : Nat) (tagParity : Bool) (h : Keep s₀ s) : Keep s₀ (s.loadPiece c a n tagParity).2 := by
  unfold State.loadPiece
  extract_lets base s1 s2 b out
  have h1 : Keep s₀ s1 := by
    simp only [s1]
    split
    · exact keep_count48 _ _ _ (keep_modCore _ _ h)
    · exact h
  have h2 : Keep s₀ s2 := by
    simp only [s2]
    split
    · exact keep_count48 _ _ _ h1
    · exact h1
  have ho : ∀ s l, Keep s₀ s → Keep s₀ (out s l).2 := fun s l h => keep_taintAll _ _ h
  split
  · split
    · exact h2.updDraw _
    · exact keep_taintAll _ _ (keep_noteWords _ _ _ _ _ h2)
  · split
    · exact ho _ _ (keep_count48 _ _ _ h1)
    · exact ho _ _ (keep_count48 _ _ _ (keep_fillLine _ _ _ (keep_lineWords _ _ h1)))

theorem keep_loadPieces {s₀ a4 : State} (c : Nat) (tagParity : Bool) (a1 : Nat) (a2 : Nat) (a3 : Nat)  (h : Keep s₀ a4) : Keep s₀ (State.loadPieces
    c tagParity a1 a2 a3 a4).2 := by
  induction a1 generalizing a2 a3 a4 with
  | zero =>
    unfold State.loadPieces
    repeat' first
      | with_reducible assumption
      | with_reducible apply ih
      | with_reducible apply keep_loadPiece
      | dsimp only
      | split
  | succ n ih =>
    unfold State.loadPieces
    repeat' first
      | with_reducible assumption
      | with_reducible apply ih
      | with_reducible apply keep_loadPiece
      | dsimp only
      | split

theorem keep_threadStore {s₀ s : State} (c : Nat) (a1 : Nat) (bs : List Byte)  (h : Keep s₀ s) : Keep s₀ (State.threadStore s c a1 bs) := by
  unfold State.threadStore
  repeat' first
    | with_reducible assumption
    | with_reducible apply keep_modCore
    | with_reducible apply keep_putBytes
    | with_reducible apply keep_sendFlits
    | dsimp only
    | split

/-! ### Access -/

theorem keep_reject {s₀ s : State} (p : Page)  (h : Keep s₀ s) : Keep s₀ (State.reject s p) := by
  unfold State.reject
  repeat' first
    | with_reducible assumption
    | with_reducible apply keep_ror
    | split

theorem keep_denied {s₀ s : State} (by_ : Agent) (addr : Nat)  (h : Keep s₀ s) : Keep s₀ (State.denied s by_ addr) := by
  unfold State.denied
  repeat' first
    | with_reducible assumption
    | with_reducible apply keep_raiseCore
    | with_reducible apply keep_raise
    | split

theorem keep_writeAs {s₀ s : State} (by_ : Agent) (p : Page) (off : Nat) (f : State → State) (hf : ∀ s, Keep s₀ s → Keep s₀ (f s)) (h : Keep s₀ s)
    : Keep s₀ (State.writeAs s by_ p off f) := by
  unfold State.writeAs
  repeat' first
    | with_reducible assumption
    | with_reducible apply hf
    | with_reducible apply keep_denied
    | split

/-! ### Hen -/

theorem keep_tickWatches {s₀ s : State}  (h : Keep s₀ s) : Keep s₀ (State.tickWatches s) := by
  unfold State.tickWatches
  repeat' first
    | with_reducible assumption
    | with_reducible apply keep_modCore
    | with_reducible refine Keep.foldl _ (fun _ _ _ => ?_) ?_
    | split

theorem keep_timeoutRec {s₀ s : State} (e_ : Nat × Nat × Watch) (waiters : Nat)  (h : Keep s₀ s) : Keep s₀ (State.timeoutRec s e_ waiters) := by
  unfold State.timeoutRec
  repeat' first
    | with_reducible assumption
    | with_reducible apply keep_raise

theorem keep_expire {s₀ s : State} (c : Nat) (t_ : Nat) (w : Watch)  (h : Keep s₀ s) : Keep s₀ (State.expire s c t_ w) := by
  unfold State.expire
  repeat' first
    | with_reducible assumption
    | with_reducible apply keep_tryEnd
    | with_reducible apply keep_setGbar
    | with_reducible apply keep_modCore
    | with_reducible apply keep_fire
    | with_reducible apply keep_count48
    | with_reducible apply keep_ror
    | dsimp only
    | split

theorem keep_barrierTimeout {s₀ s : State} (g : Nat) (missing : Option Nat)  (h : Keep s₀ s) : Keep s₀ (State.barrierTimeout s g missing) := by
  unfold State.barrierTimeout
  repeat' first
    | with_reducible assumption
    | with_reducible apply keep_failCtx
    | dsimp only
    | split

theorem keep_tickOps {s₀ s : State}  (h : Keep s₀ s) : Keep s₀ (State.tickOps s) := by
  unfold State.tickOps
  repeat' first
    | with_reducible assumption
    | (simp only [Keep.mk_iff]; with_reducible refine Keep.fold ?_)

theorem keep_timeoutTick {s₀ s : State}  (h : Keep s₀ s) : Keep s₀ (State.timeoutTick s) := by
  unfold State.timeoutTick
  repeat' first
    | with_reducible assumption
    | with_reducible apply keep_barrierTimeout
    | with_reducible apply keep_expire
    | with_reducible apply keep_timeoutRec
    | with_reducible apply keep_tickWatches
    | with_reducible apply keep_tickOps
    | with_reducible refine Keep.foldl _ (fun _ _ _ => ?_) ?_

theorem keep_execWaitTimeout {s₀ s : State}  (h : Keep s₀ s) : KeepO s₀ (execWaitTimeout s) := by
  unfold execWaitTimeout
  repeat' first
    | with_reducible assumption
    | with_reducible apply keep_timeoutTick
    | with_reducible apply keep_settled

theorem keep_lendLong {s₀ s : State} (c : Nat)  (h : Keep s₀ s) : Keep s₀ (State.lendLong s c) := by
  unfold State.lendLong
  repeat' first
    | with_reducible assumption
    | with_reducible apply keep_lend
    | dsimp only
    | split

theorem keep_execLongWaitLend {s₀ s : State} (core : Fin 48)  (h : Keep s₀ s) : KeepO s₀ (execLongWaitLend core s) := by
  unfold execLongWaitLend
  repeat' first
    | with_reducible assumption
    | with_reducible apply keep_lendLong
    | with_reducible refine KeepO.next ?_

theorem keep_forced {s₀ s : State} (page : Page) (isl : Nat) (u : UnitId) (obj : Nat) (by_ : Agent) (cx : Option Ctx)  (h : Keep s₀ s) : Keep s₀
    (State.forced s page isl u obj by_ cx) := by
  unfold State.forced
  repeat' first
    | with_reducible assumption
    | with_reducible apply keep_ror
    | with_reducible apply keep_raise

theorem keep_henDbg {s₀ s : State} (by_ : Agent) (c : Nat) (b : Nat) (f : State → State) (hf : ∀ s, Keep s₀ s → Keep s₀ (f s)) (h : Keep s₀ s) :
    Keep s₀ (State.henDbg s by_ c b f) := by
  unfold State.henDbg
  repeat' first
    | with_reducible assumption
    | with_reducible apply hf
    | with_reducible apply keep_modCtx
    | with_reducible apply keep_forced
    | with_reducible apply keep_reject
    | with_reducible apply keep_writeAs
    | intro _
    | dsimp only
    | split

theorem keep_endTiles {s₀ s : State} (c : Nat)  (h : Keep s₀ s) : Keep s₀ (State.endTiles s c) := by
  unfold State.endTiles
  repeat' first
    | with_reducible assumption
    | with_reducible apply keep_tryEnd
    | with_reducible refine Keep.foldl _ (fun _ _ _ => ?_) ?_

theorem keep_forceBar {s₀ s : State} (c : Nat) (b : Nat)  (h : Keep s₀ s) : Keep s₀ (State.forceBar s c b) := by
  unfold State.forceBar
  repeat' first
    | with_reducible assumption
    | with_reducible apply keep_fire
    | with_reducible apply keep_modCore
    | with_reducible apply keep_releasePhase
    | with_reducible refine Keep.foldl _ (fun _ _ _ => ?_) ?_
    | dsimp only
    | split

theorem keep_execHenDbgForceRelease {s₀ s : State} (by_ : Agent) (core : Fin 48) (bar : Fin 32) (_value : Fin 256)  (h : Keep s₀ s) : KeepO s₀
    (execHenDbgForceRelease by_ core bar _value s) := by
  unfold execHenDbgForceRelease
  repeat' first
    | with_reducible assumption
    | with_reducible apply keep_forceBar
    | with_reducible apply keep_henDbg
    | with_reducible apply keep_endTiles
    | with_reducible apply keep_settled
    | intro _

theorem keep_setArrivals {s₀ s : State} (c : Nat) (b : Nat) (v : Nat)  (h : Keep s₀ s) : Keep s₀ (State.setArrivals s c b v) := by
  unfold State.setArrivals
  repeat' first
    | with_reducible assumption
    | with_reducible apply keep_releasePhase
    | with_reducible apply keep_serve
    | with_reducible apply keep_modCore
    | dsimp only
    | split

theorem keep_execHenDbgSetArrivals {s₀ s : State} (by_ : Agent) (core : Fin 48) (bar : Fin 32) (value : Fin 256)  (h : Keep s₀ s) : KeepO s₀
    (execHenDbgSetArrivals by_ core bar value s) := by
  unfold execHenDbgSetArrivals
  repeat' first
    | with_reducible assumption
    | with_reducible apply keep_setArrivals
    | with_reducible apply keep_henDbg
    | with_reducible apply keep_endTiles
    | with_reducible apply keep_settled
    | intro _

theorem keep_setConsumed {s₀ s : State} (c : Nat) (b : Nat) (v : Nat)  (h : Keep s₀ s) : Keep s₀ (State.setConsumed s c b v) := by
  unfold State.setConsumed
  repeat' first
    | with_reducible assumption
    | with_reducible apply keep_modCore
    | with_reducible apply keep_serve
    | dsimp only
    | split

theorem keep_execHenDbgSetConsumed {s₀ s : State} (by_ : Agent) (core : Fin 48) (bar : Fin 32) (value : Fin 256)  (h : Keep s₀ s) : KeepO s₀
    (execHenDbgSetConsumed by_ core bar value s) := by
  unfold execHenDbgSetConsumed
  repeat' first
    | with_reducible assumption
    | with_reducible apply keep_setConsumed
    | with_reducible apply keep_henDbg
    | with_reducible apply keep_endTiles
    | with_reducible apply keep_settled
    | intro _

theorem keep_execHenDbgBreak {s₀ s : State} (by_ : Agent) (core : Fin 48) (bar : Fin 32) (_value : Fin 256)  (h : Keep s₀ s) : KeepO s₀
    (execHenDbgBreak by_ core bar _value s) := by
  unfold execHenDbgBreak
  repeat' first
    | with_reducible assumption
    | with_reducible apply keep_breakBar
    | with_reducible apply keep_henDbg
    | with_reducible apply keep_endTiles
    | with_reducible apply keep_settled
    | intro _

theorem keep_hengDbg {s₀ s : State} (by_ : Agent) (g : Nat) (f : State → State) (hf : ∀ s, Keep s₀ s → Keep s₀ (f s)) (h : Keep s₀ s) : Keep s₀
    (State.hengDbg s by_ g f) := by
  unfold State.hengDbg
  repeat' first
    | with_reducible assumption
    | with_reducible apply hf
    | with_reducible apply keep_forced
    | with_reducible apply keep_modCtx
    | with_reducible apply keep_reject
    | with_reducible apply keep_writeAs
    | intro _
    | split

theorem keep_execHengDbgForceRelease {s₀ s : State} (by_ : Agent) (bar : Fin 64)  (h : Keep s₀ s) : KeepO s₀ (execHengDbgForceRelease by_ bar s) := by
  unfold execHengDbgForceRelease
  repeat' first
    | with_reducible assumption
    | with_reducible apply keep_gRelease
    | with_reducible apply keep_noteEnd
    | with_reducible apply keep_hengDbg
    | with_reducible apply keep_settled
    | intro _

theorem keep_execHengDbgBreak {s₀ s : State} (by_ : Agent) (bar : Fin 64)  (h : Keep s₀ s) : KeepO s₀ (execHengDbgBreak by_ bar s) := by
  unfold execHengDbgBreak
  repeat' first
    | with_reducible assumption
    | with_reducible apply keep_breakGbar
    | with_reducible apply keep_hengDbg
    | with_reducible apply keep_settled
    | intro _

theorem keep_execCbufInvAll {s₀ s : State} (by_ : Agent) (core : Fin 48)  (h : Keep s₀ s) : KeepO s₀ (execCbufInvAll by_ core s) := by
  unfold execCbufInvAll
  repeat' first
    | with_reducible assumption
    | with_reducible apply keep_invalidate
    | with_reducible apply keep_writeAs
    | with_reducible refine KeepO.next ?_
    | intro _

/-! ### Paging -/

theorem keep_modFetch {s₀ s : State} (p : Nat) (f : PageFetch → PageFetch)  (h : Keep s₀ s) : Keep s₀ (State.modFetch s p f) := by
  unfold State.modFetch
  repeat' first
    | with_reducible assumption
    | with_reducible apply keep_modSvc

theorem keep_askHost {s₀ s : State} (f : PageFetch)  (h : Keep s₀ s) : Keep s₀ (State.askHost s f) := by
  unfold State.askHost
  repeat' first
    | with_reducible assumption
    | with_reducible apply keep_notices

theorem keep_askPeer {s₀ s : State} (f : PageFetch)  (h : Keep s₀ s) : Keep s₀ (State.askPeer s f) := by
  unfold State.askPeer
  repeat' first
    | with_reducible assumption
    | with_reducible apply keep_sendFlit
    | with_reducible refine Keep.foldl _ (fun _ _ _ => ?_) ?_

theorem keep_failWaiters {s₀ s : State} (p : Nat)  (h : Keep s₀ s) : Keep s₀ (State.failWaiters s p) := by
  unfold State.failWaiters
  repeat' first
    | with_reducible assumption
    | with_reducible apply keep_failStream
    | with_reducible apply keep_endIfOver
    | with_reducible refine Keep.foldl _ (fun _ _ _ => ?_) ?_

theorem keep_serveFault {s₀ s : State} (c : Nat) (k : Nat)  (h : Keep s₀ s) : Keep s₀ (State.serveFault s c k) := by
  unfold State.serveFault
  repeat' first
    | with_reducible assumption
    | with_reducible apply keep_askPeer
    | with_reducible apply keep_askHost
    | with_reducible apply keep_setPte
    | with_reducible apply keep_modSvc
    | with_reducible apply keep_failWaiters
    | dsimp only
    | split

theorem keep_execPageFault {s₀ s : State} (core : Fin 48) (ctx : Fin 64)  (h : Keep s₀ s) : KeepO s₀ (execPageFault core ctx s) := by
  unfold execPageFault
  repeat' first
    | with_reducible assumption
    | with_reducible apply keep_serveFault
    | with_reducible apply keep_settled

theorem keep_resumeStream {s₀ s : State} (c : Nat) (k : Nat)  (h : Keep s₀ s) : Keep s₀ (State.resumeStream s c k) := by
  unfold State.resumeStream
  repeat' first
    | with_reducible assumption
    | with_reducible apply keep_count48
    | with_reducible apply keep_drawFree
    | with_reducible apply keep_runStream
    | with_reducible apply keep_modStream
    | with_reducible apply keep_modCore
    | dsimp only
    | split

theorem keep_strResume {s₀ s : State} (c : Nat) (k : Nat)  (h : Keep s₀ s) : Keep s₀ (State.strResume s c k) := by
  unfold State.strResume
  repeat' first
    | with_reducible assumption
    | with_reducible apply keep_reject
    | with_reducible apply keep_resumeStream
    | split

theorem keep_execStrResume {s₀ s : State} (by_ : Agent) (core : Fin 48) (ctx : Fin 64)  (h : Keep s₀ s) : KeepO s₀ (execStrResume by_ core ctx s)
    := by
  unfold execStrResume
  repeat' first
    | with_reducible assumption
    | with_reducible apply keep_strResume
    | with_reducible apply keep_writeAs
    | with_reducible apply keep_settled
    | intro _

theorem keep_pageHere {s₀ s : State} (p : Nat)  (h : Keep s₀ s) : Keep s₀ (State.pageHere s p) := by
  unfold State.pageHere
  repeat' first
    | with_reducible assumption
    | with_reducible apply keep_strResume
    | with_reducible apply keep_modFetch
    | with_reducible apply keep_setPte
    | with_reducible refine Keep.foldl _ (fun _ _ _ => ?_) ?_
    | dsimp only
    | split

theorem keep_execPageFetchComplete {s₀ s : State} (page : Nat) (data : List PWord)  (h : Keep s₀ s) : KeepO s₀ (execPageFetchComplete page data s)
    := by
  unfold execPageFetchComplete
  repeat' first
    | with_reducible assumption
    | with_reducible apply keep_putWords
    | with_reducible apply keep_pageHere
    | with_reducible apply keep_settled
    | with_reducible refine KeepO.next ?_
    | split

theorem keep_execKvPageRequest {s₀ s : State} (page : Nat)  (h : Keep s₀ s) : KeepO s₀ (execKvPageRequest page s) := by
  unfold execKvPageRequest
  repeat' first
    | with_reducible assumption
    | with_reducible apply keep_askHost
    | with_reducible refine KeepO.next ?_
    | split

end Sys2Proof.Machine
end

