-- ==== Sys2Proof/Laws/KeepLinks.lean ====
section
/-! SUPPORT. `Keep` for ports, flits, idling and registers: one lemma for each operation. -/

namespace Sys2Proof.Machine

open Sys2Proof

set_option linter.unusedTactic false
set_option linter.unreachableTactic false
set_option linter.unusedVariables false
set_option linter.unusedSimpArgs false

/-! ### Ports -/

theorem keep_modPort {s₀ s : State} (p : Nat) (f : Port → Port)  (h : Keep s₀ s) : Keep s₀ (State.modPort s p f) := by
  unfold State.modPort
  repeat' first
    | with_reducible assumption
    | with_reducible apply keep_setPort

theorem keep_portTo {s₀ s : State} (p : Nat) (st : PortSt)  (h : Keep s₀ s) : Keep s₀ (State.portTo s p st) := by
  unfold State.portTo
  repeat' first
    | with_reducible assumption
    | with_reducible apply keep_modPort
    | with_reducible apply keep_rput

theorem keep_linkRec {s₀ s : State} (p : Nat) (st : Nat) (what : Nat) (dev : Nat) (lanes : Nat)  (h : Keep s₀ s) : Keep s₀ (State.linkRec s p st
    what dev lanes) := by
  unfold State.linkRec
  repeat' first
    | with_reducible assumption
    | with_reducible apply keep_raise

theorem keep_tryColt {s₀ s : State} (p : Nat)  (h : Keep s₀ s) : Keep s₀ (State.tryColt s p) := by
  unfold State.tryColt
  repeat' first
    | with_reducible assumption
    | with_reducible apply keep_modPort
    | with_reducible apply keep_portTo
    | dsimp only
    | split

theorem keep_takeTrailer {s₀ s : State} (p : Nat) (tr : Trailer)  (h : Keep s₀ s) : Keep s₀ (State.takeTrailer s p tr) := by
  unfold State.takeTrailer
  repeat' first
    | with_reducible assumption
    | with_reducible apply keep_modPort
    | with_reducible apply keep_drain
    | with_reducible apply keep_tryColt
    | with_reducible apply keep_count48
    | split

theorem keep_answer {s₀ s : State} (p : Nat) (vc : Nat) (n : Nat)  (h : Keep s₀ s) : Keep s₀ (State.answer s p vc n) := by
  unfold State.answer
  repeat' first
    | with_reducible assumption
    | with_reducible apply keep_emits

theorem keep_discard {s₀ s : State} (p : Nat)  (h : Keep s₀ s) : Keep s₀ (State.discard s p) := by
  unfold State.discard
  repeat' first
    | with_reducible assumption
    | with_reducible apply keep_modPort
    | with_reducible apply keep_emit
    | with_reducible apply keep_count48
    | dsimp only
    | split

theorem keep_deliver {s₀ s : State} (p : Nat) (tr : Trailer) (vc : Nat) (n : Nat) (here : State → State) (hhere : ∀ s, Keep s₀ s → Keep s₀ (here
    s)) (h : Keep s₀ s) : Keep s₀ (State.deliver s p tr vc n here) := by
  unfold State.deliver
  repeat' first
    | with_reducible assumption
    | with_reducible apply hhere
    | with_reducible apply keep_discard
    | with_reducible apply keep_answer
    | with_reducible apply keep_modPort
    | with_reducible apply keep_count48
    | with_reducible apply keep_takeTrailer
    | dsimp only
    | split

theorem keep_moveQueues {s₀ s : State} (p : Nat) (q : Nat)  (h : Keep s₀ s) : Keep s₀ (State.moveQueues s p q) := by
  unfold State.moveQueues
  repeat' first
    | with_reducible assumption
    | with_reducible apply keep_modPort
    | with_reducible apply keep_drain
    | dsimp only
    | split

theorem keep_report {s₀ s : State} (p : Nat) (q : Nat)  (h : Keep s₀ s) : Keep s₀ (State.report s p q) := by
  unfold State.report
  repeat' first
    | with_reducible assumption
    | with_reducible apply keep_modPort
    | with_reducible apply keep_emit
    | split

theorem keep_gate {s₀ s : State} (p : Nat)  (h : Keep s₀ s) : Keep s₀ (State.gate s p) := by
  unfold State.gate
  repeat' first
    | with_reducible assumption
    | with_reducible apply keep_modPort

theorem keep_leaveActive {s₀ s : State} (p : Nat) (st : PortSt)  (h : Keep s₀ s) : Keep s₀ (State.leaveActive s p st) := by
  unfold State.leaveActive
  repeat' first
    | with_reducible assumption
    | with_reducible apply keep_report
    | with_reducible apply keep_moveQueues
    | with_reducible apply keep_gate
    | with_reducible apply keep_modPort
    | with_reducible apply keep_portTo

theorem keep_handover {s₀ s : State} (p : Nat) (failed : Nat) (lastSeq : Nat)  (h : Keep s₀ s) : Keep s₀ (State.handover s p failed lastSeq) := by
  unfold State.handover
  repeat' first
    | with_reducible assumption
    | with_reducible apply keep_gate
    | with_reducible apply keep_drain
    | with_reducible apply keep_modPort

theorem keep_retrain {s₀ s : State} (p : Nat)  (h : Keep s₀ s) : Keep s₀ (State.retrain s p) := by
  unfold State.retrain
  repeat' first
    | with_reducible assumption
    | with_reducible apply keep_modPort
    | with_reducible apply keep_emit
    | with_reducible apply keep_leaveActive
    | with_reducible apply keep_rput
    | with_reducible apply keep_linkRec
    | with_reducible apply keep_count48
    | with_reducible apply keep_ror
    | dsimp only
    | split

theorem keep_trainFailed {s₀ s : State} (p : Nat)  (h : Keep s₀ s) : Keep s₀ (State.trainFailed s p) := by
  unfold State.trainFailed
  repeat' first
    | with_reducible assumption
    | with_reducible apply keep_modPort
    | with_reducible apply keep_portTo
    | with_reducible apply keep_linkRec
    | split

theorem keep_execIdle {s₀ s : State} (port : Fin 8) (tr : Trailer)  (h : Keep s₀ s) : KeepO s₀ (execIdle port tr s) := by
  unfold execIdle
  repeat' first
    | with_reducible assumption
    | with_reducible apply keep_takeTrailer
    | with_reducible refine KeepO.next ?_
    | split

theorem keep_discardRaw {s₀ s : State} (p : Nat) (raw : List Byte)  (h : Keep s₀ s) : Keep s₀ (State.discardRaw s p raw) := by
  unfold State.discardRaw
  repeat' first
    | with_reducible assumption
    | with_reducible apply keep_count48
    | with_reducible apply keep_takeTrailer
    | with_reducible apply keep_discard
    | dsimp only
    | split

theorem keep_execFlitDiscard {s₀ s : State} (port : Fin 8) (raw : List Byte)  (h : Keep s₀ s) : KeepO s₀ (execFlitDiscard port raw s) := by
  unfold execFlitDiscard
  repeat' first
    | with_reducible assumption
    | with_reducible apply keep_discardRaw
    | with_reducible refine KeepO.next ?_

theorem keep_replayAll {s₀ s : State} (p : Nat)  (h : Keep s₀ s) : Keep s₀ (State.replayAll s p) := by
  unfold State.replayAll
  repeat' first
    | with_reducible assumption
    | with_reducible apply keep_retrain
    | with_reducible apply keep_modPort
    | with_reducible apply keep_count48
    | with_reducible apply keep_emits
    | dsimp only
    | split

theorem keep_execReplayTimer {s₀ s : State} (port : Fin 8)  (h : Keep s₀ s) : KeepO s₀ (execReplayTimer port s) := by
  unfold execReplayTimer
  repeat' first
    | with_reducible assumption
    | with_reducible apply keep_replayAll
    | with_reducible refine KeepO.next ?_

theorem keep_execNak {s₀ s : State} (port : Fin 8) (expected : Nat)  (h : Keep s₀ s) : KeepO s₀ (execNak port expected s) := by
  unfold execNak
  repeat' first
    | with_reducible assumption
    | with_reducible apply keep_modPort
    | with_reducible apply keep_replayAll
    | with_reducible refine KeepO.next ?_
    | split

theorem keep_execLaneSignalDetect {s₀ s : State} (port : Fin 8)  (h : Keep s₀ s) : KeepO s₀ (execLaneSignalDetect port s) := by
  unfold execLaneSignalDetect
  repeat' first
    | with_reducible assumption
    | with_reducible apply keep_modPort
    | with_reducible apply keep_portTo
    | with_reducible apply keep_emit
    | with_reducible refine KeepO.next ?_
    | split

theorem keep_toIdentify {s₀ s : State} (p : Nat)  (h : Keep s₀ s) : Keep s₀ (State.toIdentify s p) := by
  unfold State.toIdentify
  repeat' first
    | with_reducible assumption
    | with_reducible apply keep_emit
    | with_reducible apply keep_modPort
    | with_reducible apply keep_portTo

theorem keep_execTrain {s₀ s : State} (port : Fin 8) (state : Nat) (coefs : List Word)  (h : Keep s₀ s) : KeepO s₀ (execTrain port state coefs s)
    := by
  unfold execTrain
  repeat' first
    | with_reducible assumption
    | with_reducible apply keep_toIdentify
    | with_reducible apply keep_portTo
    | with_reducible apply keep_emit
    | with_reducible apply keep_modPort
    | with_reducible refine KeepO.next ?_
    | dsimp only
    | split

theorem keep_execId {s₀ s : State} (port : Fin 8) (device : Fin 64) (peerPort : Fin 8) (_lifecycle : Fin 4) (w3 : Bool) (_colt : Bool)  (h : Keep
    s₀ s) : KeepO s₀ (execId port device peerPort _lifecycle w3 _colt s) := by
  unfold execId
  repeat' first
    | with_reducible assumption
    | with_reducible apply keep_modPort
    | with_reducible apply keep_portTo
    | with_reducible apply keep_linkRec
    | with_reducible apply keep_rput
    | with_reducible apply keep_trainFailed
    | with_reducible apply keep_rset
    | with_reducible refine KeepO.next ?_
    | dsimp only
    | split

theorem keep_trained {s₀ s : State} (p : Nat) (lanes : Nat)  (h : Keep s₀ s) : Keep s₀ (State.trained s p lanes) := by
  unfold State.trained
  repeat' first
    | with_reducible assumption
    | with_reducible apply keep_gate
    | with_reducible apply keep_moveQueues
    | with_reducible apply keep_drain
    | with_reducible apply keep_report
    | with_reducible apply keep_linkRec
    | with_reducible apply keep_portTo
    | with_reducible apply keep_modPort
    | with_reducible apply keep_trainFailed
    | with_reducible apply keep_rput
    | dsimp only
    | split

theorem keep_lockLoss {s₀ s : State} (p : Nat) (lane : Nat)  (h : Keep s₀ s) : Keep s₀ (State.lockLoss s p lane) := by
  unfold State.lockLoss
  repeat' first
    | with_reducible assumption
    | with_reducible apply keep_trainFailed
    | with_reducible apply keep_rput
    | with_reducible apply keep_modPort
    | with_reducible apply keep_retrain
    | dsimp only
    | split

theorem keep_execLaneLockLoss {s₀ s : State} (port : Fin 8) (lane : Fin 6)  (h : Keep s₀ s) : KeepO s₀ (execLaneLockLoss port lane s) := by
  unfold execLaneLockLoss
  repeat' first
    | with_reducible assumption
    | with_reducible apply keep_lockLoss
    | with_reducible refine KeepO.next ?_

theorem keep_execTrainTmo {s₀ s : State} (port : Fin 8)  (h : Keep s₀ s) : KeepO s₀ (execTrainTmo port s) := by
  unfold execTrainTmo
  repeat' first
    | with_reducible assumption
    | with_reducible apply keep_trainFailed
    | with_reducible refine KeepO.next ?_
    | split

theorem keep_wantColt {s₀ s : State} (p : Nat)  (h : Keep s₀ s) : Keep s₀ (State.wantColt s p) := by
  unfold State.wantColt
  repeat' first
    | with_reducible assumption
    | with_reducible apply keep_tryColt
    | with_reducible apply keep_modPort
    | with_reducible apply keep_emit
    | dsimp only
    | split

theorem keep_execColtReq {s₀ s : State} (port : Fin 8)  (h : Keep s₀ s) : KeepO s₀ (execColtReq port s) := by
  unfold execColtReq
  repeat' first
    | with_reducible assumption
    | with_reducible apply keep_emit
    | with_reducible apply keep_tryColt
    | with_reducible apply keep_modPort
    | with_reducible refine KeepO.next ?_
    | dsimp only
    | split

theorem keep_execColtAck {s₀ s : State} (port : Fin 8)  (h : Keep s₀ s) : KeepO s₀ (execColtAck port s) := by
  unfold execColtAck
  repeat' first
    | with_reducible assumption
    | with_reducible apply keep_modPort
    | with_reducible apply keep_tryColt
    | with_reducible refine KeepO.next ?_
    | split

theorem keep_execHandover {s₀ s : State} (port : Fin 8) (failed : Fin 8) (lastSeq : Nat)  (h : Keep s₀ s) : KeepO s₀ (execHandover port failed
    lastSeq s) := by
  unfold execHandover
  repeat' first
    | with_reducible assumption
    | with_reducible apply keep_handover
    | with_reducible refine KeepO.next ?_
    | dsimp only
    | split

theorem keep_execLnkCmdRetrain {s₀ s : State} (by_ : Agent) (port : Fin 8)  (h : Keep s₀ s) : KeepO s₀ (execLnkCmdRetrain by_ port s) := by
  unfold execLnkCmdRetrain
  repeat' first
    | with_reducible assumption
    | with_reducible apply keep_retrain
    | with_reducible apply keep_writeAs
    | with_reducible refine KeepO.next ?_
    | intro _

theorem keep_disable {s₀ s : State} (p : Nat)  (h : Keep s₀ s) : Keep s₀ (State.disable s p) := by
  unfold State.disable
  repeat' first
    | with_reducible assumption
    | with_reducible apply keep_modPort
    | with_reducible apply keep_portTo
    | with_reducible apply keep_leaveActive
    | split

theorem keep_execLnkCmdDisable {s₀ s : State} (by_ : Agent) (port : Fin 8)  (h : Keep s₀ s) : KeepO s₀ (execLnkCmdDisable by_ port s) := by
  unfold execLnkCmdDisable
  repeat' first
    | with_reducible assumption
    | with_reducible apply keep_disable
    | with_reducible apply keep_writeAs
    | with_reducible refine KeepO.next ?_
    | intro _

theorem keep_enable {s₀ s : State} (p : Nat)  (h : Keep s₀ s) : Keep s₀ (State.enable s p) := by
  unfold State.enable
  repeat' first
    | with_reducible assumption
    | with_reducible apply keep_portTo
    | split

theorem keep_execLnkCmdEnable {s₀ s : State} (by_ : Agent) (port : Fin 8)  (h : Keep s₀ s) : KeepO s₀ (execLnkCmdEnable by_ port s) := by
  unfold execLnkCmdEnable
  repeat' first
    | with_reducible assumption
    | with_reducible apply keep_enable
    | with_reducible apply keep_writeAs
    | with_reducible refine KeepO.next ?_
    | intro _

/-! ### Sleep -/

theorem keep_dozeHere {s₀ s : State} (h : Keep s₀ s) : Keep s₀ s.dozeHere := by
  unfold State.dozeHere
  dsimp only
  split
  · exact h
  · simp only [Keep.mk_iff]
    exact Keep.updMem _ Mem.wf_noBuffers (keep_rput _ _ _ _ _ (keep_rput _ _ _ _ _ (Keep.foldl _ (fun _ _ h => keep_wantColt _ h) h)))

theorem keep_wakeHere {s₀ s : State}  (h : Keep s₀ s) : Keep s₀ (State.wakeHere s) := by
  unfold State.wakeHere
  repeat' first
    | with_reducible assumption
    | with_reducible apply keep_modPort
    | with_reducible apply keep_retrain
    | with_reducible apply keep_rput
    | with_reducible refine Keep.foldl _ (fun _ _ _ => ?_) ?_
    | (simp only [Keep.mk_iff]; with_reducible refine Keep.fold ?_)
    | dsimp only
    | split

theorem keep_stopWork {s₀ s : State}  (h : Keep s₀ s) : Keep s₀ (State.stopWork s) := by
  unfold State.stopWork
  repeat' first
    | with_reducible assumption
    | with_reducible apply keep_portTo
    | with_reducible refine Keep.foldl _ (fun _ _ _ => ?_) ?_
    | (simp only [Keep.mk_iff]; with_reducible refine Keep.fold ?_)

theorem keep_wakeOn {s₀ s : State}  (h : Keep s₀ s) : Keep s₀ (State.wakeOn s) := by
  unfold State.wakeOn
  repeat' first
    | with_reducible assumption
    | with_reducible apply keep_broadcast
    | with_reducible apply keep_wakeHere
    | split

/-! ### Flits -/

theorem keep_invalidFlit {s₀ s : State} (p : Nat) (f : Flit)  (h : Keep s₀ s) : Keep s₀ (State.invalidFlit s p f) := by
  unfold State.invalidFlit
  repeat' first
    | with_reducible assumption
    | with_reducible apply keep_raise
    | split

theorem keep_refusedHere {s₀ s : State} (st : Nat) (a1 : Nat)  (h : Keep s₀ s) : Keep s₀ (State.refusedHere s st a1) := by
  unfold State.refusedHere
  repeat' first
    | with_reducible assumption
    | with_reducible apply keep_raise

theorem keep_takeWrite {s₀ s : State} (f : Flit)  (h : Keep s₀ s) : Keep s₀ (State.takeWrite s f) := by
  unfold State.takeWrite
  repeat' first
    | with_reducible assumption
    | with_reducible apply keep_putWords
    | with_reducible apply keep_noteWrote
    | with_reducible apply keep_sendFlit
    | with_reducible apply keep_refusedHere
    | dsimp only
    | split

theorem keep_takeRead {s₀ s : State} (f : Flit)  (h : Keep s₀ s) : Keep s₀ (State.takeRead s f) := by
  unfold State.takeRead
  repeat' first
    | with_reducible assumption
    | with_reducible apply keep_noteWords
    | with_reducible apply keep_sendFlits
    | with_reducible apply keep_sendFlit
    | with_reducible apply keep_refusedHere
    | dsimp only
    | split

theorem keep_coreData {s₀ s : State} (c : Nat) (tag : Nat) (f : Flit)  (h : Keep s₀ s) : Keep s₀ (State.coreData s c tag f) := by
  unfold State.coreData
  repeat' first
    | with_reducible assumption
    | with_reducible apply keep_sendMules
    | with_reducible apply keep_modCore
    | with_reducible apply keep_sendFlit
    | with_reducible apply keep_putWords
    | with_reducible apply keep_taintTile
    | with_reducible apply keep_modStream
    | dsimp only
    | split

theorem keep_takeRdata {s₀ s : State} (f : Flit)  (h : Keep s₀ s) : Keep s₀ (State.takeRdata s f) := by
  unfold State.takeRdata
  repeat' first
    | with_reducible assumption
    | with_reducible apply keep_putWords
    | with_reducible apply keep_coreData
    | dsimp only
    | split

theorem keep_takeAck {s₀ s : State} (f : Flit)  (h : Keep s₀ s) : Keep s₀ (State.takeAck s f) := by
  unfold State.takeAck
  repeat' first
    | with_reducible assumption
    | with_reducible apply keep_endMule
    | with_reducible apply keep_ackSegment
    | dsimp only
    | split

theorem keep_takeMule {s₀ s : State} (f : Flit)  (h : Keep s₀ s) : Keep s₀ (State.takeMule s f) := by
  unfold State.takeMule
  repeat' first
    | with_reducible assumption
    | with_reducible apply keep_applyWord
    | with_reducible apply keep_noteWrote
    | with_reducible apply keep_sendFlit
    | with_reducible apply keep_refusedHere
    | dsimp only
    | split

theorem keep_takePieceEnd {s₀ s : State} (f : Flit)  (h : Keep s₀ s) : Keep s₀ (State.takePieceEnd s f) := by
  unfold State.takePieceEnd
  repeat' first
    | with_reducible assumption
    | with_reducible apply keep_sendPiece
    | with_reducible apply keep_shareEnd
    | with_reducible refine Keep.foldl _ (fun _ _ _ => ?_) ?_
    | (simp only [Keep.mk_iff]; with_reducible refine Keep.fold ?_)
    | dsimp only
    | split

theorem keep_takeReduce {s₀ s : State} (f : Flit)  (h : Keep s₀ s) : Keep s₀ (State.takeReduce s f) := by
  unfold State.takeReduce
  repeat' first
    | with_reducible assumption
    | with_reducible apply keep_passOn
    | with_reducible apply keep_count48
    | with_reducible apply keep_clearSlot
    | with_reducible apply keep_setSlot
    | dsimp only
    | split

theorem keep_takeGrantReq {s₀ s : State} (src : Nat) (tag : Nat) (bytes : Nat)  (h : Keep s₀ s) : Keep s₀ (State.takeGrantReq s src tag bytes) := by
  unfold State.takeGrantReq
  repeat' first
    | with_reducible assumption
    | with_reducible apply keep_grantSlot
    | (simp only [Keep.mk_iff]; with_reducible refine Keep.fold ?_)
    | dsimp only
    | split

theorem keep_takeGrant {s₀ s : State} (src : Nat) (tag : Nat) (slot : Nat)  (h : Keep s₀ s) : Keep s₀ (State.takeGrant s src tag slot) := by
  unfold State.takeGrant
  repeat' first
    | with_reducible assumption
    | with_reducible apply keep_sendOver
    | with_reducible refine Keep.foldl _ (fun _ _ _ => ?_) ?_
    | (simp only [Keep.mk_iff]; with_reducible refine Keep.fold ?_)
    | dsimp only
    | split

theorem keep_route {s₀ s : State} (p : Nat) (from_ : Nat) (f : Flit)  (h : Keep s₀ s) : Keep s₀ (State.route s p from_ f) := by
  unfold State.route
  repeat' first
    | with_reducible assumption
    | with_reducible apply keep_takePieceEnd
    | with_reducible apply keep_takeReduce
    | with_reducible apply keep_takeMule
    | with_reducible apply keep_takeAck
    | with_reducible apply keep_takeRdata
    | with_reducible apply keep_takeRead
    | with_reducible apply keep_takeWrite
    | with_reducible apply keep_sendFlit
    | with_reducible apply keep_invalidFlit
    | split

theorem keep_flitIn {s₀ s : State} (p : Nat) (f : Flit) (tr : Trailer)  (h : Keep s₀ s) : KeepO s₀ (State.flitIn s p f tr) := by
  unfold State.flitIn
  repeat' first
    | with_reducible assumption
    | with_reducible apply keep_route
    | with_reducible apply keep_deliver
    | with_reducible apply keep_settled
    | intro _

theorem keep_execWrite {s₀ s : State} (port : Fin 8) (f : Flit) (tr : Trailer)  (h : Keep s₀ s) : KeepO s₀ (execWrite port f tr s) := by
  unfold execWrite
  repeat' first
    | with_reducible assumption
    | with_reducible apply keep_flitIn

theorem keep_execRead {s₀ s : State} (port : Fin 8) (f : Flit) (tr : Trailer)  (h : Keep s₀ s) : KeepO s₀ (execRead port f tr s) := by
  unfold execRead
  repeat' first
    | with_reducible assumption
    | with_reducible apply keep_flitIn

theorem keep_execRdata {s₀ s : State} (port : Fin 8) (f : Flit) (tr : Trailer)  (h : Keep s₀ s) : KeepO s₀ (execRdata port f tr s) := by
  unfold execRdata
  repeat' first
    | with_reducible assumption
    | with_reducible apply keep_flitIn

theorem keep_execAck {s₀ s : State} (port : Fin 8) (f : Flit) (tr : Trailer)  (h : Keep s₀ s) : KeepO s₀ (execAck port f tr s) := by
  unfold execAck
  repeat' first
    | with_reducible assumption
    | with_reducible apply keep_flitIn

theorem keep_execMule {s₀ s : State} (port : Fin 8) (f : Flit) (tr : Trailer)  (h : Keep s₀ s) : KeepO s₀ (execMule port f tr s) := by
  unfold execMule
  repeat' first
    | with_reducible assumption
    | with_reducible apply keep_flitIn

theorem keep_execReduce {s₀ s : State} (port : Fin 8) (f : Flit) (tr : Trailer)  (h : Keep s₀ s) : KeepO s₀ (execReduce port f tr s) := by
  unfold execReduce
  repeat' first
    | with_reducible assumption
    | with_reducible apply keep_flitIn

theorem keep_execPieceEnd {s₀ s : State} (port : Fin 8) (f : Flit) (tr : Trailer)  (h : Keep s₀ s) : KeepO s₀ (execPieceEnd port f tr s) := by
  unfold execPieceEnd
  repeat' first
    | with_reducible assumption
    | with_reducible apply keep_flitIn

theorem keep_execLinkFlitInvalid {s₀ s : State} (port : Fin 8) (f : Flit) (tr : Trailer)  (h : Keep s₀ s) : KeepO s₀ (execLinkFlitInvalid port f tr
    s) := by
  unfold execLinkFlitInvalid
  repeat' first
    | with_reducible assumption
    | with_reducible apply keep_invalidFlit
    | with_reducible apply keep_deliver
    | with_reducible refine KeepO.next ?_
    | intro _
    | split

theorem keep_datagramIn {s₀ s : State} (i : Nat) (version : Nat) (seq : Nat) (ack : Nat) (flits : List Flit) (credits : List (Nat × Nat))  (h :
    Keep s₀ s) : Keep s₀ (State.datagramIn s i version seq ack flits credits) := by
  unfold State.datagramIn
  repeat' first
    | with_reducible assumption
    | with_reducible apply keep_emit
    | with_reducible apply keep_route
    | with_reducible apply keep_drainEth
    | with_reducible apply keep_setEthDim
    | with_reducible apply keep_count48
    | with_reducible refine Keep.foldl _ (fun _ _ _ => ?_) ?_
    | dsimp only
    | split

theorem keep_execDatagramReceive {s₀ s : State} (dim : Fin 2) (version : Nat) (seq : Nat) (ack : Nat) (flits : List Flit) (credits : List (Fin 4 ×
    Nat))  (h : Keep s₀ s) : KeepO s₀ (execDatagramReceive dim version seq ack flits credits s) := by
  unfold execDatagramReceive
  repeat' first
    | with_reducible assumption
    | with_reducible apply keep_datagramIn
    | with_reducible apply keep_settled

/-! ### RegAccess -/

theorem keep_regRead {s₀ s : State} (by_ : Agent) (a1 : Nat)  (h : Keep s₀ s) : Keep s₀ (State.regRead s by_ a1).2 := by
  unfold State.regRead
  repeat' first
    | with_reducible assumption
    | with_reducible apply keep_reject
    | with_reducible apply keep_denied
    | (simp only [Keep.mk_iff]; with_reducible refine Keep.fold ?_)
    | dsimp only
    | split

theorem keep_coreSelftest {s₀ s : State} (c : Nat)  (h : Keep s₀ s) : Keep s₀ (State.coreSelftest s c) := by
  unfold State.coreSelftest
  repeat' first
    | with_reducible assumption
    | with_reducible apply keep_modCore
    | with_reducible apply keep_reject
    | dsimp only
    | split

theorem keep_pwrCal {s₀ s : State} (v : Word)  (h : Keep s₀ s) : Keep s₀ (State.pwrCal s v) := by
  unfold State.pwrCal
  repeat' first
    | with_reducible assumption
    | with_reducible apply keep_rput
    | with_reducible apply keep_rset

theorem keep_henCmd {s₀ s : State} (by_ : Agent) (c : Nat) (op : Nat) (b : Nat) (x : Nat)  (h : Keep s₀ s) : Keep s₀ (State.henCmd s by_ c op b x)
    := by
  unfold State.henCmd
  repeat' first
    | with_reducible assumption
    | with_reducible apply keep_reject
    | with_reducible apply keep_breakBar
    | with_reducible apply keep_setConsumed
    | with_reducible apply keep_setArrivals
    | with_reducible apply keep_forceBar
    | with_reducible apply keep_henDbg
    | with_reducible apply keep_endTiles
    | intro _
    | split

theorem keep_hengCmd {s₀ s : State} (by_ : Agent) (op : Nat) (g : Nat)  (h : Keep s₀ s) : Keep s₀ (State.hengCmd s by_ op g) := by
  unfold State.hengCmd
  repeat' first
    | with_reducible assumption
    | with_reducible apply keep_reject
    | with_reducible apply keep_breakGbar
    | with_reducible apply keep_gRelease
    | with_reducible apply keep_noteEnd
    | with_reducible apply keep_hengDbg
    | intro _
    | split

theorem keep_lnkCmd {s₀ s : State} (q : Nat) (op : Nat)  (h : Keep s₀ s) : Keep s₀ (State.lnkCmd s q op) := by
  unfold State.lnkCmd
  repeat' first
    | with_reducible assumption
    | with_reducible apply keep_reject
    | with_reducible apply keep_enable
    | with_reducible apply keep_disable
    | with_reducible apply keep_retrain
    | split

theorem keep_actionWrite {s₀ s : State} (by_ : Agent) (p : Page) (off : Nat) (v : Word) {t : State} (h : Keep s₀ s)
    (e : s.actionWrite by_ p off v = some t) : Keep s₀ t := by
  revert e
  unfold State.actionWrite
  dsimp only
  split <;> rintro ⟨⟩
  all_goals repeat' first
    | with_reducible assumption
    | with_reducible apply keep_pwrCal
    | with_reducible apply keep_lnkCmd
    | with_reducible apply keep_hengCmd
    | with_reducible apply keep_henCmd
    | with_reducible apply keep_strResume
    | with_reducible apply keep_invalidate
    | with_reducible apply keep_coreSelftest
    | split

theorem keep_regStore {s₀ s : State} (by_ : Agent) (p : Page) (off : Nat) (r : RegDef) (v : Word) (h : Keep s₀ s) :
    Keep s₀ (s.regStore by_ p off r v) := by
  unfold State.regStore
  split
  · exact keep_actionWrite _ _ _ _ h (by assumption)
  · split
    · exact keep_reject _ h
    · dsimp only
      split
      · exact keep_reject _ (keep_rset _ _ _ h)
      · exact keep_rset _ _ _ h

theorem keep_regWrite {s₀ s : State} (by_ : Agent) (a1 : Nat) (width : Nat) (v : Word)  (h : Keep s₀ s) : Keep s₀ (State.regWrite s by_ a1 width v)
    := by
  unfold State.regWrite
  repeat' first
    | with_reducible assumption
    | with_reducible apply keep_regStore
    | with_reducible apply keep_reject
    | with_reducible apply keep_denied
    | split

theorem keep_execRegisterWrite {s₀ s : State} (by_ : Agent) (addr : Nat) (width : Nat) (value : Word)  (h : Keep s₀ s) : KeepO s₀
    (execRegisterWrite by_ addr width value s) := by
  unfold execRegisterWrite
  repeat' first
    | with_reducible assumption
    | with_reducible apply keep_regWrite
    | with_reducible apply keep_settled

theorem keep_execCoreCmdSelftest {s₀ s : State} (by_ : Agent) (core : Fin 48)  (h : Keep s₀ s) : KeepO s₀ (execCoreCmdSelftest by_ core s) := by
  unfold execCoreCmdSelftest
  repeat' first
    | with_reducible assumption
    | with_reducible apply keep_coreSelftest
    | with_reducible apply keep_writeAs
    | with_reducible refine KeepO.next ?_
    | intro _

theorem keep_execPwrCalWrite {s₀ s : State} (by_ : Agent) (value : Word)  (h : Keep s₀ s) : KeepO s₀ (execPwrCalWrite by_ value s) := by
  unfold execPwrCalWrite
  repeat' first
    | with_reducible assumption
    | with_reducible apply keep_pwrCal
    | with_reducible apply keep_writeAs
    | with_reducible refine KeepO.next ?_
    | intro _

theorem keep_threadRefused {s₀ s : State} (c : Nat) (t_ : Nat) (st : Nat) (a1 : Nat)  (h : Keep s₀ s) : Keep s₀ (State.threadRefused s c t_ st a1)
    := by
  unfold State.threadRefused
  repeat' first
    | with_reducible assumption
    | with_reducible apply keep_raiseCore
    | split

theorem keep_threadLoad {s₀ s : State} (c : Fin 48) (t_ : Fin 16) (a1 : Nat) (bytes : Nat) (tagParity : Bool)  (h : Keep s₀ s) : Keep s₀
    (State.threadLoad s c t_ a1 bytes tagParity) := by
  unfold State.threadLoad
  repeat' first
    | with_reducible assumption
    | with_reducible apply keep_loadPieces
    | with_reducible apply keep_regRead
    | with_reducible apply keep_denied
    | with_reducible apply keep_reject
    | with_reducible apply keep_emit
    | with_reducible apply keep_threadRefused
    | with_reducible apply keep_taintAll
    | dsimp only
    | split

theorem keep_execThreadLoad {s₀ s : State} (core : Fin 48) (thread : Fin 16) (addr : Nat) (bytes : Nat) (tagParity : Bool)  (h : Keep s₀ s) : KeepO
    s₀ (execThreadLoad core thread addr bytes tagParity s) := by
  unfold execThreadLoad
  repeat' first
    | with_reducible assumption
    | with_reducible apply keep_threadLoad
    | with_reducible refine KeepO.next ?_

theorem keep_execThreadStore {s₀ s : State} (core : Fin 48) (thread : Fin 16) (addr : Nat) (data : List Byte)  (h : Keep s₀ s) : KeepO s₀
    (execThreadStore core thread addr data s) := by
  unfold execThreadStore
  repeat' first
    | with_reducible assumption
    | with_reducible apply keep_threadStore
    | with_reducible apply keep_regWrite
    | with_reducible apply keep_settled
    | with_reducible apply keep_threadRefused
    | with_reducible refine KeepO.next ?_
    | split

end Sys2Proof.Machine
end

