-- ==== Sys2Proof/Laws/KeepProtocol.lean ====
section
/-! SUPPORT. `Keep` for the command protocol and the group: one lemma for each operation. -/

namespace Sys2Proof.Machine

open Sys2Proof

set_option linter.unusedTactic false
set_option linter.unreachableTactic false
set_option linter.unusedVariables false
set_option linter.unusedSimpArgs false

/-! ### Manage -/

theorem keep_freeBytes {s₀ s : State} (n : Nat)  (h : Keep s₀ s) : Keep s₀ (State.freeBytes s n).2 := by
  unfold State.freeBytes
  repeat' first
    | with_reducible assumption
    | (simp only [Keep.mk_iff]; with_reducible refine Keep.updDraw _ ?_)

theorem keep_readRegs {s₀ s : State} (a1 : Nat) (n : Nat)  (h : Keep s₀ s) : Keep s₀ (State.readRegs s a1 n).2 := by
  unfold State.readRegs
  repeat' first
    | with_reducible assumption
    | with_reducible apply keep_regRead
    | with_reducible refine Keep.foldl_snd _ (fun _ _ _ => ?_) ?_

theorem keep_writeRegs {s₀ s : State} (a1 : Nat) (ws : List Word)  (h : Keep s₀ s) : Keep s₀ (State.writeRegs s a1 ws) := by
  unfold State.writeRegs
  repeat' first
    | with_reducible assumption
    | with_reducible apply keep_regWrite
    | with_reducible refine Keep.foldl _ (fun _ _ _ => ?_) ?_

theorem keep_gPut {s₀ s : State} (a1 : Nat) (ws : List Word)  (h : Keep s₀ s) : Keep s₀ (State.gPut s a1 ws) := by
  unfold State.gPut
  repeat' first
    | with_reducible assumption
    | with_reducible apply keep_putWords
    | with_reducible apply keep_reject
    | with_reducible refine Keep.foldl _ (fun _ _ _ => ?_) ?_
    | (simp only [Keep.mk_iff]; with_reducible refine Keep.updWord _ _ _ ?_)
    | dsimp only
    | split

theorem keep_memRefused {s₀ s : State} (st : Nat) (a1 : Nat)  (h : Keep s₀ s) : Keep s₀ (State.memRefused s st a1) := by
  unfold State.memRefused
  repeat' first
    | with_reducible assumption
    | with_reducible apply keep_raise
    | split

theorem keep_returnToService {s₀ s : State}  (h : Keep s₀ s) : Keep s₀ (State.returnToService s) := by
  unfold State.returnToService
  repeat' first
    | with_reducible assumption
    | with_reducible apply keep_rclr
    | with_reducible apply keep_rput
    | (simp only [Keep.mk_iff]; with_reducible refine Keep.fold ?_)
    | dsimp only
    | split

theorem keep_errorAck {s₀ s : State} (cursor : Nat)  (h : Keep s₀ s) : Keep s₀ (State.errorAck s cursor) := by
  unfold State.errorAck
  repeat' first
    | with_reducible assumption
    | with_reducible apply keep_returnToService
    | with_reducible apply keep_modCore
    | with_reducible apply keep_rset
    | with_reducible refine Keep.foldl _ (fun _ _ _ => ?_) ?_
    | (simp only [Keep.mk_iff]; with_reducible refine Keep.fold ?_)
    | dsimp only
    | split

theorem keep_configItem {s₀ s : State} (session : Nat) (i : Nat × List Byte)  (h : Keep s₀ s) : Keep s₀ (State.configItem s session i) := by
  unfold State.configItem
  repeat' first
    | with_reducible assumption
    | with_reducible apply keep_takeRws
    | with_reducible apply keep_modSession
    | with_reducible apply keep_rput
    | with_reducible refine Keep.foldl _ (fun _ _ _ => ?_) ?_
    | (simp only [Keep.mk_iff]; with_reducible refine Keep.fold ?_)
    | dsimp only
    | split

theorem keep_setConfig {s₀ s : State} (session : Nat) (payload : List Byte)  (h : Keep s₀ s) : Keep s₀ (State.setConfig s session payload) := by
  unfold State.setConfig
  repeat' first
    | with_reducible assumption
    | with_reducible apply keep_configItem
    | with_reducible refine Keep.foldl _ (fun _ _ _ => ?_) ?_

theorem keep_memberPart {s₀ s : State} (d : Nat)  (h : Keep s₀ s) : Keep s₀ (State.memberPart s d).2 := by
  unfold State.memberPart
  repeat' first
    | with_reducible assumption
    | with_reducible apply keep_freeBytes
    | dsimp only
    | split

theorem keep_groupState {s₀ s : State}  (h : Keep s₀ s) : Keep s₀ (State.groupState s).2 := by
  unfold State.groupState
  repeat' first
    | with_reducible assumption
    | with_reducible apply keep_memberPart
    | with_reducible refine Keep.foldl_snd _ (fun _ _ _ => ?_) ?_

theorem keep_debugFailed {s₀ s : State}  (h : Keep s₀ s) : Keep s₀ (State.debugFailed s) := by
  unfold State.debugFailed
  repeat' first
    | with_reducible assumption
    | with_reducible apply keep_rset
    | with_reducible apply keep_raise

theorem keep_debugOpened {s₀ s : State}  (h : Keep s₀ s) : Keep s₀ (State.debugOpened s) := by
  unfold State.debugOpened
  repeat' first
    | with_reducible assumption
    | with_reducible apply keep_rset
    | with_reducible apply keep_count48

theorem keep_challenge {s₀ s : State} (session : Nat)  (h : Keep s₀ s) : Keep s₀ (State.challenge s session).2 := by
  unfold State.challenge
  repeat' first
    | with_reducible assumption
    | with_reducible apply keep_modSvc
    | with_reducible apply keep_freeBytes

theorem keep_debugUnlock {s₀ s : State} (session : Nat) (p : List Byte) (proofOk : Bool)  (h : Keep s₀ s) : Keep s₀ (State.debugUnlock s session p
    proofOk).2 := by
  unfold State.debugUnlock
  repeat' first
    | with_reducible assumption
    | with_reducible apply keep_debugFailed
    | with_reducible apply keep_debugOpened
    | with_reducible apply keep_modSession
    | with_reducible apply keep_modSvc
    | with_reducible apply keep_challenge
    | dsimp only
    | split

theorem keep_execChallengeExpiry {s₀ s : State} (session : Nat)  (h : Keep s₀ s) : KeepO s₀ (execChallengeExpiry session s) := by
  unfold execChallengeExpiry
  repeat' first
    | with_reducible assumption
    | with_reducible apply keep_modSvc
    | with_reducible refine KeepO.next ?_

theorem keep_imageBegin {s₀ s : State} (p : List Byte)  (h : Keep s₀ s) : Keep s₀ (State.imageBegin s p) := by
  unfold State.imageBegin
  repeat' first
    | with_reducible assumption
    | with_reducible apply keep_modSvc

theorem keep_commitDone {s₀ s : State} (id : Nat) (sigOk : Bool)  (h : Keep s₀ s) : Keep s₀ (State.commitDone s id sigOk) := by
  unfold State.commitDone
  repeat' first
    | with_reducible assumption
    | with_reducible apply keep_mgmtOwn
    | with_reducible apply keep_modImage
    | dsimp only
    | split

theorem keep_execCommitChecksDone {s₀ s : State} (image : Nat) (sigOk : Bool)  (h : Keep s₀ s) : KeepO s₀ (execCommitChecksDone image sigOk s) := by
  unfold execCommitChecksDone
  repeat' first
    | with_reducible assumption
    | with_reducible apply keep_commitDone
    | with_reducible apply keep_settled
    | with_reducible refine KeepO.next ?_
    | split

/-! ### RunCmd -/

theorem keep_cancel {s₀ s : State} (t_ : Nat) (host : Bool)  (h : Keep s₀ s) : Keep s₀ (State.cancel s t_ host).2 := by
  unfold State.cancel
  repeat' first
    | with_reducible assumption
    | with_reducible apply keep_modCtx
    | with_reducible apply keep_modCmd
    | with_reducible apply keep_countElsewhere
    | with_reducible apply keep_dropEgress
    | with_reducible apply keep_ownFinish
    | with_reducible apply keep_modSvc
    | dsimp only
    | split

theorem keep_recordCmd {s₀ s : State} (gseq : Nat) (opcode : Nat) (cls : Nat) (session : Nat) (src : Nat) (seq : Nat) (p : List Byte) (prompt :
    Option Prompt)  (h : Keep s₀ s) : Keep s₀ (State.recordCmd s gseq opcode cls session src seq p prompt) := by
  unfold State.recordCmd
  repeat' first
    | with_reducible assumption
    | with_reducible apply keep_addCmd

theorem keep_enqueueCmd {s₀ s : State} (cls : Nat) (gseq : Nat)  (h : Keep s₀ s) : Keep s₀ (State.enqueueCmd s cls gseq) := by
  unfold State.enqueueCmd
  repeat' first
    | with_reducible assumption
    | with_reducible apply keep_modSvc

theorem keep_promptHere {s₀ s : State} (gseq : Nat) (q : Prompt) (h : Keep s₀ s) : Keep s₀ (s.promptHere gseq q) := by
  unfold State.promptHere
  split
  · exact keep_openEgress _ _ h (by assumption)
  · exact keep_failPrompt _ _ _ h

theorem keep_keepSession {s₀ s : State} (id : Nat) (keys : Nat)  (h : Keep s₀ s) : Keep s₀ (State.keepSession s id keys) := by
  unfold State.keepSession
  repeat' first
    | with_reducible assumption
    | with_reducible apply keep_modSvc
    | with_reducible apply keep_modSession
    | split

theorem keep_writeReg {s₀ s : State} (session : Nat) (p : List Byte)  (h : Keep s₀ s) : Keep s₀ (State.writeReg s session p).2 := by
  unfold State.writeReg
  repeat' first
    | with_reducible assumption
    | with_reducible apply keep_writeRegs
    | dsimp only
    | split

theorem keep_memWrite {s₀ s : State} (session : Nat) (p : List Byte)  (h : Keep s₀ s) : Keep s₀ (State.memWrite s session p).2 := by
  unfold State.memWrite
  repeat' first
    | with_reducible assumption
    | with_reducible apply keep_gPut
    | with_reducible apply keep_memRefused
    | dsimp only
    | split

theorem keep_applyMgmt {s₀ s : State} (gseq : Nat) (opcode : Nat) (session : Nat) (p : List Byte) (proofOk : Bool)  (h : Keep s₀ s) : Keep s₀
    (State.applyMgmt s gseq opcode session p proofOk).2 := by
  unfold State.applyMgmt
  repeat' first
    | with_reducible assumption
    | with_reducible apply keep_cancel
    | with_reducible apply keep_modImage
    | with_reducible apply keep_imageBegin
    | with_reducible apply keep_setConfig
    | with_reducible apply keep_errorAck
    | with_reducible apply keep_memWrite
    | with_reducible apply keep_writeReg
    | with_reducible apply keep_debugUnlock
    | with_reducible apply keep_modSvc
    | with_reducible apply keep_modSession
    | with_reducible apply keep_keepSession
    | dsimp only
    | split

theorem keep_applySeq {s₀ s : State} (gseq : Nat) (opcode : Nat) (cls : Nat) (session : Nat) (src : Nat) (seq : Nat) (p : List Byte) (prompt :
    Option Prompt) (proofOk : Bool)  (h : Keep s₀ s) : Keep s₀ (State.applySeq s gseq opcode cls session src seq p prompt proofOk) := by
  unfold State.applySeq
  repeat' first
    | with_reducible assumption
    | with_reducible apply keep_unloadGo
    | with_reducible apply keep_mgmtOwn
    | with_reducible apply keep_applyMgmt
    | with_reducible apply keep_promptHere
    | with_reducible apply keep_enqueueCmd
    | with_reducible apply keep_rset
    | with_reducible apply keep_recordCmd
    | (simp only [Keep.mk_iff]; with_reducible refine Keep.fold ?_)
    | dsimp only
    | split

theorem keep_tokenized {s₀ s : State} (gseq : Nat)  (h : Keep s₀ s) : Keep s₀ (State.tokenized s gseq) := by
  unfold State.tokenized
  repeat' first
    | with_reducible assumption
    | with_reducible apply keep_dropEgress
    | with_reducible apply keep_sendCommand
    | with_reducible apply keep_finalReply
    | with_reducible apply keep_modCmd
    | with_reducible apply keep_modSvc
    | dsimp only
    | split

theorem keep_execTokenize {s₀ s : State} (gseq : Nat)  (h : Keep s₀ s) : KeepO s₀ (execTokenize gseq s) := by
  unfold execTokenize
  repeat' first
    | with_reducible assumption
    | with_reducible apply keep_tokenized
    | with_reducible apply keep_settled
    | with_reducible refine KeepO.next ?_
    | split

/-! ### Attest -/

theorem keep_authRecord {s₀ s : State} (session : Nat) (from_ : Nat)  (h : Keep s₀ s) : Keep s₀ (State.authRecord s session from_) := by
  unfold State.authRecord
  repeat' first
    | with_reducible assumption
    | with_reducible apply keep_modSvc
    | with_reducible apply keep_raise
    | split

theorem keep_startRegen {s₀ s : State}  (h : Keep s₀ s) : Keep s₀ (State.startRegen s) := by
  unfold State.startRegen
  repeat' first
    | with_reducible assumption
    | (simp only [Keep.mk_iff]; with_reducible refine Keep.fold ?_)
    | dsimp only
    | split

theorem keep_swapTree {s₀ s : State}  (h : Keep s₀ s) : Keep s₀ (State.swapTree s) := by
  unfold State.swapTree
  repeat' first
    | with_reducible assumption
    | (simp only [Keep.mk_iff]; with_reducible refine Keep.fold ?_)
    | dsimp only
    | split

theorem keep_spendLeaf {s₀ s : State}  (h : Keep s₀ s) : Keep s₀ (State.spendLeaf s) := by
  unfold State.spendLeaf
  repeat' first
    | with_reducible assumption
    | with_reducible apply keep_startRegen
    | with_reducible apply keep_swapTree
    | with_reducible apply keep_count48
    | (simp only [Keep.mk_iff]; with_reducible refine Keep.fold ?_)

theorem keep_keepExchange {s₀ s : State} (e_ : Exchange)  (h : Keep s₀ s) : Keep s₀ (State.keepExchange s e_) := by
  unfold State.keepExchange
  repeat' first
    | with_reducible assumption
    | with_reducible apply keep_modSvc

theorem keep_answerQuery {s₀ s : State} (to_ : Nat) (session : Nat) (seq : Nat) (op : Nat) (r : Reply)  (h : Keep s₀ s) : Keep s₀
    (State.answerQuery s to_ session seq op r) := by
  unfold State.answerQuery
  repeat' first
    | with_reducible assumption
    | with_reducible apply keep_encReply
    | with_reducible apply keep_clearReply
    | split

theorem keep_attestHere {s₀ s : State} (to_ : Nat) (session : Nat) (seq : Nat) (p : List Byte)  (h : Keep s₀ s) : Keep s₀ (State.attestHere s to_
    session seq p) := by
  unfold State.attestHere
  repeat' first
    | with_reducible assumption
    | with_reducible apply keep_spendLeaf
    | with_reducible apply keep_keepExchange
    | with_reducible apply keep_freeBytes
    | with_reducible apply keep_modSvc
    | with_reducible apply keep_answerQuery
    | dsimp only
    | split

theorem keep_attestGo {s₀ s : State}  (h : Keep s₀ s) : Keep s₀ (State.attestGo s) := by
  unfold State.attestGo
  repeat' first
    | with_reducible assumption
    | with_reducible apply keep_modSvc
    | with_reducible apply keep_attestHere
    | with_reducible refine Keep.foldl _ (fun _ _ _ => ?_) ?_

theorem keep_askOther {s₀ s : State} (d : Nat) (op : Nat) (n : Nat) (p : List Byte)  (h : Keep s₀ s) : Keep s₀ (State.askOther s d op n p).2 := by
  unfold State.askOther
  repeat' first
    | with_reducible assumption
    | with_reducible apply keep_drawFree
    | with_reducible apply keep_freeBytes
    | with_reducible apply keep_emit

theorem keep_attest {s₀ s : State} (to_ : Nat) (session : Nat) (seq : Nat) (p : List Byte)  (h : Keep s₀ s) : Keep s₀ (State.attest s to_ session
    seq p) := by
  unfold State.attest
  repeat' first
    | with_reducible assumption
    | with_reducible apply keep_askOther
    | with_reducible apply keep_attestHere
    | with_reducible apply keep_answerQuery
    | with_reducible apply keep_takeRws
    | dsimp only
    | split

theorem keep_countAttest {s₀ s : State}  (h : Keep s₀ s) : Keep s₀ (State.countAttest s) := by
  unfold State.countAttest
  repeat' first
    | with_reducible assumption
    | with_reducible apply keep_modSvc

theorem keep_execExchangeExpiry {s₀ s : State} (digest : Nat)  (h : Keep s₀ s) : KeepO s₀ (execExchangeExpiry digest s) := by
  unfold execExchangeExpiry
  repeat' first
    | with_reducible assumption
    | with_reducible apply keep_modSvc
    | with_reducible refine KeepO.next ?_

theorem keep_openSession {s₀ s : State} (from_ : Nat) (p : List Byte) (sigOk : Bool)  (h : Keep s₀ s) : Keep s₀ (State.openSession s from_ p sigOk)
    := by
  unfold State.openSession
  repeat' first
    | with_reducible assumption
    | with_reducible apply keep_applySeq
    | with_reducible apply keep_sendSync
    | with_reducible apply keep_sendCommand
    | with_reducible apply keep_emit
    | with_reducible apply keep_count48
    | with_reducible apply keep_takeGseq
    | with_reducible apply keep_modSvc
    | with_reducible apply keep_authRecord
    | with_reducible apply keep_encReply
    | with_reducible apply keep_clearReply
    | with_reducible refine Keep.foldl _ (fun _ _ _ => ?_) ?_
    | dsimp only
    | split

/-! ### Bcp -/

theorem keep_dropBcp {s₀ s : State}  (h : Keep s₀ s) : Keep s₀ (State.dropBcp s) := by
  unfold State.dropBcp
  repeat' first
    | with_reducible assumption
    | with_reducible apply keep_count48

theorem keep_acceptPkt {s₀ s : State} (x : Session) (p : BcpPkt)  (h : Keep s₀ s) : Keep s₀ (State.acceptPkt s x p).2 := by
  unfold State.acceptPkt
  repeat' first
    | with_reducible assumption
    | with_reducible apply keep_modSession
    | with_reducible apply keep_count48
    | with_reducible apply keep_authRecord
    | dsimp only
    | split

theorem keep_imageBytes {s₀ s : State} (id off : Nat) (data : List Byte) {t : State} (h : Keep s₀ s) (e : s.imageBytes id off data = some t) : Keep
    s₀ t := by
  revert e
  unfold State.imageBytes
  dsimp only
  repeat' split
  all_goals rintro ⟨⟩
  all_goals repeat' first
    | with_reducible assumption
    | with_reducible apply keep_putBytes
    | with_reducible apply keep_modImage

theorem keep_pageBytes {s₀ s : State} (handle off : Nat) (refuse : Bool) (data : List Byte) {t : State} (h : Keep s₀ s) (e : s.pageBytes handle off
    refuse data = some t) : Keep s₀ t := by
  revert e
  unfold State.pageBytes
  dsimp only
  repeat' split
  all_goals rintro ⟨⟩
  all_goals repeat' first
    | with_reducible assumption
    | with_reducible apply keep_pageHere
    | with_reducible apply keep_putBytes
    | with_reducible apply keep_modFetch
    | with_reducible apply keep_failWaiters
    | with_reducible apply keep_unfetch
    | with_reducible refine Keep.foldl _ (fun _ _ _ => ?_) ?_
    | split

theorem keep_dataBody {s₀ s : State} (op : Nat) (p : BcpPkt) (h : Keep s₀ s) : Keep s₀ (s.dataBody op p) := by
  have hr : ∀ {a b d off x t}, (if op = 0x21 then s.imageBytes a off d else if op = 0x41 then s.pageBytes b off x d else none) = some t →
      Keep s₀ t := by
    intro a b d off x t e
    split at e
    · exact keep_imageBytes _ _ _ h e
    · split at e
      · exact keep_pageBytes _ _ _ _ h e
      · cases e
  unfold State.dataBody
  dsimp only
  generalize (if op = 0x21 then beAt p.payload 8 8 else beAt p.payload 8 4) = off
  generalize hx : (if op = 0x21 then _ else _ : Option State) = r
  split
  · exact keep_dropBcp h
  · split
    · exact keep_count48 _ _ _ (hr hx)
    · exact keep_dropBcp h

theorem keep_dataIn {s₀ s : State} (op : Nat) (p : BcpPkt)  (h : Keep s₀ s) : Keep s₀ (State.dataIn s op p) := by
  unfold State.dataIn
  repeat' first
    | with_reducible assumption
    | with_reducible apply keep_dataBody
    | with_reducible apply keep_acceptPkt
    | with_reducible refine keep_of_eq2 (by with_reducible assumption) ?_
    | with_reducible apply keep_dropBcp
    | split

theorem keep_readReg {s₀ s : State} (session : Nat) (p : List Byte)  (h : Keep s₀ s) : Keep s₀ (State.readReg s session p).2 := by
  unfold State.readReg
  repeat' first
    | with_reducible assumption
    | with_reducible apply keep_readRegs
    | with_reducible apply keep_askOther
    | dsimp only
    | split

theorem keep_memRead {s₀ s : State} (session : Nat) (p : List Byte)  (h : Keep s₀ s) : Keep s₀ (State.memRead s session p).2 := by
  unfold State.memRead
  repeat' first
    | with_reducible assumption
    | with_reducible apply keep_noteWords
    | with_reducible apply keep_memRefused
    | with_reducible apply keep_askOther
    | dsimp only
    | split

theorem keep_telemetryAll {s₀ s : State} (p : List Byte)  (h : Keep s₀ s) : Keep s₀ (State.telemetryAll s p).2 := by
  unfold State.telemetryAll
  repeat' first
    | with_reducible assumption
    | with_reducible apply keep_emit
    | with_reducible apply keep_freeBytes
    | with_reducible refine Keep.foldl_snd _ (fun _ _ _ => ?_) ?_
    | dsimp only
    | split

theorem keep_errorReadAt {s₀ s : State} (p : List Byte)  (h : Keep s₀ s) : Keep s₀ (State.errorReadAt s p).2 := by
  unfold State.errorReadAt
  repeat' first
    | with_reducible assumption
    | with_reducible apply keep_drawFree
    | with_reducible apply keep_askOther
    | dsimp only
    | split

theorem keep_query {s₀ s : State} (op : Nat) (session : Nat) (p : List Byte)  (h : Keep s₀ s) : Keep s₀ (State.query s op session p).2 := by
  unfold State.query
  repeat' first
    | with_reducible assumption
    | with_reducible apply keep_errorReadAt
    | with_reducible apply keep_telemetryAll
    | with_reducible apply keep_memRead
    | with_reducible apply keep_readReg
    | with_reducible apply keep_groupState
    | dsimp only
    | split

theorem keep_sequence {s₀ s : State} (op : Nat) (session : Nat) (src : Nat) (seq : Nat) (p : List Byte) (proofOk : Bool)  (h : Keep s₀ s) : Keep s₀
    (State.sequence s op session src seq p proofOk) := by
  unfold State.sequence
  repeat' first
    | with_reducible assumption
    | with_reducible apply keep_applySeq
    | with_reducible apply keep_sendCommand
    | with_reducible apply keep_modSession
    | with_reducible apply keep_encReply
    | with_reducible apply keep_takeGseq
    | split

theorem keep_runNew {s₀ s : State} (op : Nat) (session : Nat) (src : Nat) (seq : Nat) (p : List Byte) (proofOk : Bool)  (h : Keep s₀ s) : Keep s₀
    (State.runNew s op session src seq p proofOk) := by
  unfold State.runNew
  repeat' first
    | with_reducible assumption
    | with_reducible apply keep_sequence
    | with_reducible apply keep_encReply
    | with_reducible apply keep_query
    | with_reducible apply keep_attest
    | with_reducible apply keep_modSession
    | with_reducible apply keep_count48
    | dsimp only
    | split

theorem keep_message {s₀ s : State} (x : Session) (op : Nat) (src : Nat) (seq : Nat) (p : List Byte) (proofOk : Bool)  (h : Keep s₀ s) : Keep s₀
    (State.message s x op src seq p proofOk) := by
  unfold State.message
  repeat' first
    | with_reducible assumption
    | with_reducible apply keep_runNew
    | with_reducible apply keep_count48
    | with_reducible apply keep_query
    | with_reducible apply keep_attest
    | with_reducible apply keep_encReply
    | dsimp only
    | split

theorem keep_sessionIn {s₀ s : State} (id : Nat) (op : Nat) (p : BcpPkt) (proofOk : Bool)  (h : Keep s₀ s) : Keep s₀ (State.sessionIn s id op p
    proofOk) := by
  unfold State.sessionIn
  repeat' first
    | with_reducible assumption
    | with_reducible apply keep_message
    | with_reducible apply keep_modSession
    | with_reducible apply keep_dropBcp
    | with_reducible apply keep_encReply
    | dsimp only
    | split

theorem keep_clearIn {s₀ s : State} (op : Nat) (p : BcpPkt) (sigOk : Bool)  (h : Keep s₀ s) : Keep s₀ (State.clearIn s op p sigOk) := by
  unfold State.clearIn
  repeat' first
    | with_reducible assumption
    | with_reducible apply keep_openSession
    | with_reducible apply keep_attest
    | with_reducible apply keep_countAttest
    | with_reducible apply keep_dropBcp
    | with_reducible apply keep_clearReply
    | dsimp only
    | split

theorem keep_bcpIn {s₀ s0 : State} (op : Nat) (p : BcpPkt) (ok : Bool)  (h : Keep s₀ s0) : Keep s₀ (State.bcpIn s0 op p ok) := by
  unfold State.bcpIn
  repeat' first
    | with_reducible assumption
    | with_reducible apply keep_sessionIn
    | with_reducible apply keep_acceptPkt
    | with_reducible refine keep_of_eq2 (by with_reducible assumption) ?_
    | with_reducible apply keep_clearIn
    | with_reducible apply keep_dataIn
    | with_reducible apply keep_dropBcp
    | with_reducible apply keep_clearReply
    | with_reducible apply keep_count48
    | with_reducible apply keep_wakeOn
    | dsimp only
    | split

theorem keep_bcp {s₀ s : State} (op : Nat) (p : BcpPkt) (ok : Bool)  (h : Keep s₀ s) : KeepO s₀ (bcp s op p ok) := by
  unfold bcp
  repeat' first
    | with_reducible assumption
    | with_reducible apply keep_bcpIn
    | with_reducible apply keep_takeRws
    | with_reducible apply keep_settled

theorem keep_execAttest {s₀ s : State} (p : BcpPkt)  (h : Keep s₀ s) : KeepO s₀ (execAttest p s) := by
  unfold execAttest
  repeat' first
    | with_reducible assumption
    | with_reducible apply keep_bcp

theorem keep_execSessionOpen {s₀ s : State} (p : BcpPkt) (sigOk : Bool)  (h : Keep s₀ s) : KeepO s₀ (execSessionOpen p sigOk s) := by
  unfold execSessionOpen
  repeat' first
    | with_reducible assumption
    | with_reducible apply keep_bcp

theorem keep_execSessionClose {s₀ s : State} (p : BcpPkt)  (h : Keep s₀ s) : KeepO s₀ (execSessionClose p s) := by
  unfold execSessionClose
  repeat' first
    | with_reducible assumption
    | with_reducible apply keep_bcp

theorem keep_execDebugUnlock {s₀ s : State} (p : BcpPkt) (proofOk : Bool)  (h : Keep s₀ s) : KeepO s₀ (execDebugUnlock p proofOk s) := by
  unfold execDebugUnlock
  repeat' first
    | with_reducible assumption
    | with_reducible apply keep_bcp

theorem keep_execGroupState {s₀ s : State} (p : BcpPkt)  (h : Keep s₀ s) : KeepO s₀ (execGroupState p s) := by
  unfold execGroupState
  repeat' first
    | with_reducible assumption
    | with_reducible apply keep_bcp

theorem keep_execCommandStatus {s₀ s : State} (p : BcpPkt)  (h : Keep s₀ s) : KeepO s₀ (execCommandStatus p s) := by
  unfold execCommandStatus
  repeat' first
    | with_reducible assumption
    | with_reducible apply keep_bcp

theorem keep_execReadReg {s₀ s : State} (p : BcpPkt)  (h : Keep s₀ s) : KeepO s₀ (execReadReg p s) := by
  unfold execReadReg
  repeat' first
    | with_reducible assumption
    | with_reducible apply keep_bcp

theorem keep_execWriteReg {s₀ s : State} (p : BcpPkt)  (h : Keep s₀ s) : KeepO s₀ (execWriteReg p s) := by
  unfold execWriteReg
  repeat' first
    | with_reducible assumption
    | with_reducible apply keep_bcp

theorem keep_execMemRead {s₀ s : State} (p : BcpPkt)  (h : Keep s₀ s) : KeepO s₀ (execMemRead p s) := by
  unfold execMemRead
  repeat' first
    | with_reducible assumption
    | with_reducible apply keep_bcp

theorem keep_execMemWrite {s₀ s : State} (p : BcpPkt)  (h : Keep s₀ s) : KeepO s₀ (execMemWrite p s) := by
  unfold execMemWrite
  repeat' first
    | with_reducible assumption
    | with_reducible apply keep_bcp

theorem keep_execTelemetry {s₀ s : State} (p : BcpPkt)  (h : Keep s₀ s) : KeepO s₀ (execTelemetry p s) := by
  unfold execTelemetry
  repeat' first
    | with_reducible assumption
    | with_reducible apply keep_bcp

theorem keep_execErrorRead {s₀ s : State} (p : BcpPkt)  (h : Keep s₀ s) : KeepO s₀ (execErrorRead p s) := by
  unfold execErrorRead
  repeat' first
    | with_reducible assumption
    | with_reducible apply keep_bcp

theorem keep_execErrorAck {s₀ s : State} (p : BcpPkt)  (h : Keep s₀ s) : KeepO s₀ (execErrorAck p s) := by
  unfold execErrorAck
  repeat' first
    | with_reducible assumption
    | with_reducible apply keep_bcp

theorem keep_execSetConfig {s₀ s : State} (p : BcpPkt)  (h : Keep s₀ s) : KeepO s₀ (execSetConfig p s) := by
  unfold execSetConfig
  repeat' first
    | with_reducible assumption
    | with_reducible apply keep_bcp

theorem keep_execImageBegin {s₀ s : State} (p : BcpPkt)  (h : Keep s₀ s) : KeepO s₀ (execImageBegin p s) := by
  unfold execImageBegin
  repeat' first
    | with_reducible assumption
    | with_reducible apply keep_bcp

theorem keep_execImageData {s₀ s : State} (p : BcpPkt)  (h : Keep s₀ s) : KeepO s₀ (execImageData p s) := by
  unfold execImageData
  repeat' first
    | with_reducible assumption
    | with_reducible apply keep_bcp

theorem keep_execImageCommit {s₀ s : State} (p : BcpPkt)  (h : Keep s₀ s) : KeepO s₀ (execImageCommit p s) := by
  unfold execImageCommit
  repeat' first
    | with_reducible assumption
    | with_reducible apply keep_bcp

theorem keep_execImageActivate {s₀ s : State} (p : BcpPkt)  (h : Keep s₀ s) : KeepO s₀ (execImageActivate p s) := by
  unfold execImageActivate
  repeat' first
    | with_reducible assumption
    | with_reducible apply keep_bcp

theorem keep_execImageUnload {s₀ s : State} (p : BcpPkt)  (h : Keep s₀ s) : KeepO s₀ (execImageUnload p s) := by
  unfold execImageUnload
  repeat' first
    | with_reducible assumption
    | with_reducible apply keep_bcp

theorem keep_execExec {s₀ s : State} (p : BcpPkt)  (h : Keep s₀ s) : KeepO s₀ (execExec p s) := by
  unfold execExec
  repeat' first
    | with_reducible assumption
    | with_reducible apply keep_bcp

theorem keep_execPrefill {s₀ s : State} (p : BcpPkt)  (h : Keep s₀ s) : KeepO s₀ (execPrefill p s) := by
  unfold execPrefill
  repeat' first
    | with_reducible assumption
    | with_reducible apply keep_bcp

theorem keep_execScore {s₀ s : State} (p : BcpPkt)  (h : Keep s₀ s) : KeepO s₀ (execScore p s) := by
  unfold execScore
  repeat' first
    | with_reducible assumption
    | with_reducible apply keep_bcp

theorem keep_execCancel {s₀ s : State} (p : BcpPkt)  (h : Keep s₀ s) : KeepO s₀ (execCancel p s) := by
  unfold execCancel
  repeat' first
    | with_reducible assumption
    | with_reducible apply keep_bcp

theorem keep_execKvPageData {s₀ s : State} (p : BcpPkt)  (h : Keep s₀ s) : KeepO s₀ (execKvPageData p s) := by
  unfold execKvPageData
  repeat' first
    | with_reducible assumption
    | with_reducible apply keep_bcp

theorem keep_execReservedOpcode {s₀ s : State} (opcode : Nat) (p : BcpPkt)  (h : Keep s₀ s) : KeepO s₀ (execReservedOpcode opcode p s) := by
  unfold execReservedOpcode
  repeat' first
    | with_reducible assumption
    | with_reducible apply keep_bcp
    | with_reducible refine KeepO.next ?_
    | split

theorem keep_execReassemblyTimeout {s₀ s : State} (session : Nat) (seq : Nat)  (h : Keep s₀ s) : KeepO s₀ (execReassemblyTimeout session seq s) := by
  unfold execReassemblyTimeout
  repeat' first
    | with_reducible assumption
    | with_reducible apply keep_modSession
    | with_reducible refine KeepO.next ?_

/-! ### Group -/

theorem keep_takeSync {s₀ s : State} (m : SyncMsg) (sub : Nat) (here : State → State) (hhere : ∀ s, Keep s₀ s → Keep s₀ (here s)) (h : Keep s₀ s) :
    Keep s₀ (State.takeSync s m sub here) := by
  unfold State.takeSync
  repeat' first
    | with_reducible assumption
    | with_reducible apply hhere
    | with_reducible apply keep_castOver
    | with_reducible apply keep_sendFlit
    | with_reducible refine Keep.foldl _ (fun _ _ _ => ?_) ?_
    | (simp only [Keep.mk_iff]; with_reducible refine Keep.fold ?_)
    | dsimp only
    | split

theorem keep_syncIn {s₀ s : State} (m : SyncMsg) (sub : Nat) (here : State → State) (hhere : ∀ s, Keep s₀ s → Keep s₀ (here s)) (h : Keep s₀ s) :
    KeepO s₀ (State.syncIn s m sub here) := by
  unfold State.syncIn
  repeat' first
    | with_reducible assumption
    | with_reducible apply keep_takeSync
    | with_reducible apply keep_deliver
    | with_reducible apply keep_settled
    | with_reducible refine KeepO.next ?_
    | intro _
    | split

theorem keep_applyWords {s₀ s : State} (ws : List Word) (proofOk : Bool)  (h : Keep s₀ s) : Keep s₀ (State.applyWords s ws proofOk) := by
  unfold State.applyWords
  repeat' first
    | with_reducible assumption
    | with_reducible apply keep_applySeq

theorem keep_applyHeld {s₀ a2 : State} (a1 : Nat)  (h : Keep s₀ a2) : Keep s₀ (State.applyHeld a1 a2) := by
  induction a1 generalizing a2 with
  | zero =>
    unfold State.applyHeld
    repeat' first
      | with_reducible assumption
      | with_reducible apply ih
      | with_reducible apply keep_modSvc
      | with_reducible apply keep_applyWords
      | split
  | succ n ih =>
    unfold State.applyHeld
    repeat' first
      | with_reducible assumption
      | with_reducible apply ih
      | with_reducible apply keep_modSvc
      | with_reducible apply keep_applyWords
      | split

theorem keep_takeCommand {s₀ s : State} (ws : List Word) (proofOk : Bool)  (h : Keep s₀ s) : Keep s₀ (State.takeCommand s ws proofOk) := by
  unfold State.takeCommand
  repeat' first
    | with_reducible assumption
    | with_reducible apply keep_modSvc
    | with_reducible apply keep_applyHeld
    | with_reducible apply keep_applyWords
    | dsimp only
    | split

theorem keep_execCommand {s₀ s : State} (m : SyncMsg) (proofOk : Bool)  (h : Keep s₀ s) : KeepO s₀ (execCommand m proofOk s) := by
  unfold execCommand
  repeat' first
    | with_reducible assumption
    | with_reducible apply keep_takeCommand
    | with_reducible apply keep_syncIn
    | intro _

theorem keep_memberFailed {s₀ s : State} (gseq : Nat) (r : Reply)  (h : Keep s₀ s) : Keep s₀ (State.memberFailed s gseq r) := by
  unfold State.memberFailed
  repeat' first
    | with_reducible assumption
    | with_reducible apply keep_endCommand
    | with_reducible apply keep_finalReply
    | with_reducible apply keep_cancelOthers
    | split

theorem keep_takeDone {s₀ s : State} (dev : Nat) (gseq : Nat) (st : Nat) (recAck : Bool)  (h : Keep s₀ s) : Keep s₀ (State.takeDone s dev gseq st
    recAck) := by
  unfold State.takeDone
  repeat' first
    | with_reducible assumption
    | with_reducible apply keep_memberFailed
    | with_reducible apply keep_tryFinal
    | with_reducible apply keep_modCmd
    | with_reducible apply keep_drawFree
    | with_reducible apply keep_mgmtDone
    | with_reducible apply keep_freeBytes
    | dsimp only
    | split

theorem keep_execDone {s₀ s : State} (m : SyncMsg)  (h : Keep s₀ s) : KeepO s₀ (execDone m s) := by
  unfold execDone
  repeat' first
    | with_reducible assumption
    | with_reducible apply keep_takeDone
    | with_reducible apply keep_syncIn
    | intro _

theorem keep_takeToken {s₀ s : State} (gseq : Nat) (token : Nat) (logp : Word)  (h : Keep s₀ s) : Keep s₀ (State.takeToken s gseq token logp) := by
  unfold State.takeToken
  repeat' first
    | with_reducible assumption
    | with_reducible apply keep_chunkGo
    | with_reducible apply keep_modCmd
    | dsimp only
    | split

theorem keep_execFirstToken {s₀ s : State} (m : SyncMsg)  (h : Keep s₀ s) : KeepO s₀ (execFirstToken m s) := by
  unfold execFirstToken
  repeat' first
    | with_reducible assumption
    | with_reducible apply keep_takeToken
    | with_reducible apply keep_syncIn
    | intro _
    | split

theorem keep_execRouteDigest {s₀ s : State} (m : SyncMsg)  (h : Keep s₀ s) : KeepO s₀ (execRouteDigest m s) := by
  unfold execRouteDigest
  repeat' first
    | with_reducible assumption
    | with_reducible apply keep_takeDigest
    | with_reducible apply keep_syncIn
    | intro _
    | split

theorem keep_execKeyWrap {s₀ s : State} (m : SyncMsg) (tagOk : Bool)  (h : Keep s₀ s) : KeepO s₀ (execKeyWrap m tagOk s) := by
  unfold execKeyWrap
  repeat' first
    | with_reducible assumption
    | with_reducible apply keep_keepSession
    | with_reducible apply keep_syncIn
    | intro _
    | split

theorem keep_headGone {s₀ s : State}  (h : Keep s₀ s) : Keep s₀ (State.headGone s) := by
  unfold State.headGone
  repeat' first
    | with_reducible assumption
    | with_reducible apply keep_rput
    | with_reducible apply keep_startSt
    | with_reducible apply keep_stateNotice
    | with_reducible apply keep_modSvc
    | with_reducible apply keep_dropEgress
    | with_reducible apply keep_resetCtx
    | with_reducible apply keep_endCtx
    | with_reducible refine Keep.foldl _ (fun _ _ _ => ?_) ?_
    | (simp only [Keep.mk_iff]; with_reducible refine Keep.fold ?_)
    | dsimp only
    | split

theorem keep_execHeadLost {s₀ s : State} (cause : HeadLoss)  (h : Keep s₀ s) : KeepO s₀ (execHeadLost cause s) := by
  unfold execHeadLost
  repeat' first
    | with_reducible assumption
    | with_reducible apply keep_headGone
    | with_reducible apply keep_settled
    | with_reducible refine KeepO.next ?_
    | split

theorem keep_execHeartbeat {s₀ s : State} (m : SyncMsg)  (h : Keep s₀ s) : KeepO s₀ (execHeartbeat m s) := by
  unfold execHeartbeat
  repeat' first
    | with_reducible assumption
    | with_reducible apply keep_syncIn
    | intro _

theorem keep_execHeartbeatPeriod {s₀ s : State}  (h : Keep s₀ s) : KeepO s₀ (execHeartbeatPeriod s) := by
  unfold execHeartbeatPeriod
  repeat' first
    | with_reducible assumption
    | with_reducible apply keep_broadcast
    | with_reducible refine KeepO.next ?_
    | split

theorem keep_takeArrive {s₀ s : State} (g : Nat) (k : Nat) (gen : Nat) (context : Nat)  (h : Keep s₀ s) : Keep s₀ (State.takeArrive s g k gen
    context) := by
  unfold State.takeArrive
  repeat' first
    | with_reducible assumption
    | with_reducible apply keep_setGbar
    | with_reducible apply keep_gStep
    | with_reducible apply keep_noteEnd

theorem keep_execArrive {s₀ s : State} (m : SyncMsg)  (h : Keep s₀ s) : KeepO s₀ (execArrive m s) := by
  unfold execArrive
  repeat' first
    | with_reducible assumption
    | with_reducible apply keep_takeArrive
    | with_reducible apply keep_syncIn
    | intro _

theorem keep_execGrantReq {s₀ s : State} (m : SyncMsg)  (h : Keep s₀ s) : KeepO s₀ (execGrantReq m s) := by
  unfold execGrantReq
  repeat' first
    | with_reducible assumption
    | with_reducible apply keep_takeGrantReq
    | with_reducible apply keep_syncIn
    | intro _

theorem keep_execGrant {s₀ s : State} (m : SyncMsg)  (h : Keep s₀ s) : KeepO s₀ (execGrant m s) := by
  unfold execGrant
  repeat' first
    | with_reducible assumption
    | with_reducible apply keep_takeGrant
    | with_reducible apply keep_syncIn
    | intro _

theorem keep_takeAbort {s₀ s : State} (a1 : AbortNote)  (h : Keep s₀ s) : Keep s₀ (State.takeAbort s a1) := by
  unfold State.takeAbort
  repeat' first
    | with_reducible assumption
    | with_reducible apply keep_stopOp
    | with_reducible apply keep_noteAbort
    | dsimp only
    | split

theorem keep_execAbort {s₀ s : State} (m : SyncMsg)  (h : Keep s₀ s) : KeepO s₀ (execAbort m s) := by
  unfold execAbort
  repeat' first
    | with_reducible assumption
    | with_reducible apply keep_takeAbort
    | with_reducible apply keep_syncIn
    | intro _
    | split

theorem keep_collTimeout {s₀ s : State} (opid : Nat)  (h : Keep s₀ s) : Keep s₀ (State.collTimeout s opid) := by
  unfold State.collTimeout
  repeat' first
    | with_reducible assumption
    | with_reducible apply keep_sendAbort
    | with_reducible apply keep_stopOp
    | split

theorem keep_execCollectiveTimeout {s₀ s : State} (opid : Nat)  (h : Keep s₀ s) : KeepO s₀ (execCollectiveTimeout opid s) := by
  unfold execCollectiveTimeout
  repeat' first
    | with_reducible assumption
    | with_reducible apply keep_collTimeout
    | with_reducible apply keep_settled

theorem keep_recordAbort {s₀ s : State} (opid : Nat)  (h : Keep s₀ s) : Keep s₀ (State.recordAbort s opid) := by
  unfold State.recordAbort
  repeat' first
    | with_reducible assumption
    | with_reducible apply keep_count48
    | with_reducible apply keep_rset
    | with_reducible apply keep_raise
    | (simp only [Keep.mk_iff]; with_reducible refine Keep.fold ?_)
    | dsimp only
    | split

theorem keep_execAbortRecord {s₀ s : State} (opid : Nat)  (h : Keep s₀ s) : KeepO s₀ (execAbortRecord opid s) := by
  unfold execAbortRecord
  repeat' first
    | with_reducible assumption
    | with_reducible apply keep_recordAbort
    | with_reducible refine KeepO.next ?_

theorem keep_execFreeze {s₀ s : State} (m : SyncMsg)  (h : Keep s₀ s) : KeepO s₀ (execFreeze m s) := by
  unfold execFreeze
  repeat' first
    | with_reducible assumption
    | with_reducible apply keep_syncIn
    | intro _
    | (simp only [Keep.mk_iff]; with_reducible refine Keep.fold ?_)

theorem keep_execThaw {s₀ s : State} (m : SyncMsg)  (h : Keep s₀ s) : KeepO s₀ (execThaw m s) := by
  unfold execThaw
  repeat' first
    | with_reducible assumption
    | with_reducible apply keep_syncIn
    | intro _
    | (simp only [Keep.mk_iff]; with_reducible refine Keep.fold ?_)

theorem keep_execStepReq {s₀ s : State} (m : SyncMsg)  (h : Keep s₀ s) : KeepO s₀ (execStepReq m s) := by
  unfold execStepReq
  repeat' first
    | with_reducible assumption
    | with_reducible apply keep_headStep
    | with_reducible apply keep_syncIn
    | intro _
    | split

theorem keep_takeReexec {s₀ s : State} (m : SyncMsg)  (h : Keep s₀ s) : Keep s₀ (State.takeReexec s m) := by
  unfold State.takeReexec
  repeat' first
    | with_reducible assumption
    | with_reducible apply keep_redoStep
    | with_reducible apply keep_rewind
    | split

theorem keep_execReexec {s₀ s : State} (m : SyncMsg)  (h : Keep s₀ s) : KeepO s₀ (execReexec m s) := by
  unfold execReexec
  repeat' first
    | with_reducible assumption
    | with_reducible apply keep_takeReexec
    | with_reducible apply keep_syncIn
    | intro _

theorem keep_execCommandRestart {s₀ s : State} (m : SyncMsg)  (h : Keep s₀ s) : KeepO s₀ (execCommandRestart m s) := by
  unfold execCommandRestart
  repeat' first
    | with_reducible assumption
    | with_reducible apply keep_takeReexec
    | with_reducible apply keep_syncIn
    | intro _

theorem keep_noteLeft {s₀ s : State} (dev : Nat) (st : Nat)  (h : Keep s₀ s) : Keep s₀ (State.noteLeft s dev st) := by
  unfold State.noteLeft
  repeat' first
    | with_reducible assumption
    | (simp only [Keep.mk_iff]; with_reducible refine Keep.fold ?_)

theorem keep_abortWith {s₀ s : State} (dev : Nat) (cause : Nat)  (h : Keep s₀ s) : Keep s₀ (State.abortWith s dev cause) := by
  unfold State.abortWith
  repeat' first
    | with_reducible assumption
    | with_reducible apply keep_sendAbort
    | with_reducible apply keep_stopOp
    | with_reducible refine Keep.foldl _ (fun _ _ _ => ?_) ?_
    | split

theorem keep_disband {s₀ s : State}  (h : Keep s₀ s) : Keep s₀ (State.disband s) := by
  unfold State.disband
  repeat' first
    | with_reducible assumption
    | with_reducible apply keep_rput
    | with_reducible apply keep_modSvc
    | with_reducible apply keep_dropEgress
    | with_reducible apply keep_finalReply
    | with_reducible apply keep_failCtx
    | with_reducible refine Keep.foldl _ (fun _ _ _ => ?_) ?_
    | (simp only [Keep.mk_iff]; with_reducible refine Keep.fold ?_)

theorem keep_deepNotice {s₀ s : State}  (h : Keep s₀ s) : Keep s₀ (State.deepNotice s) := by
  unfold State.deepNotice
  repeat' first
    | with_reducible assumption
    | with_reducible apply keep_disband
    | with_reducible apply keep_toSt
    | split

theorem keep_memberGone {s₀ s : State} (dev : Nat) (st : Nat)  (h : Keep s₀ s) : Keep s₀ (State.memberGone s dev st) := by
  unfold State.memberGone
  repeat' first
    | with_reducible assumption
    | with_reducible apply keep_stateNotice
    | with_reducible apply keep_headGone
    | with_reducible apply keep_failCtx
    | with_reducible apply keep_abortWith
    | with_reducible apply keep_breakGbar
    | with_reducible apply keep_noteLeft
    | with_reducible apply keep_rput
    | with_reducible refine Keep.foldl _ (fun _ _ _ => ?_) ?_
    | dsimp only
    | split

theorem keep_execMemberLeft {s₀ s : State} (m : SyncMsg)  (h : Keep s₀ s) : KeepO s₀ (execMemberLeft m s) := by
  unfold execMemberLeft
  repeat' first
    | with_reducible assumption
    | with_reducible apply keep_memberGone
    | with_reducible apply keep_deepNotice
    | with_reducible apply keep_syncIn
    | intro _
    | split

theorem keep_cutOff {s₀ s : State} (dev : Nat)  (h : Keep s₀ s) : Keep s₀ (State.cutOff s dev) := by
  unfold State.cutOff
  repeat' first
    | with_reducible assumption
    | with_reducible apply keep_headGone
    | with_reducible apply keep_abortWith
    | with_reducible apply keep_failWaiters
    | with_reducible apply keep_unfetch
    | with_reducible apply keep_endMule
    | with_reducible apply keep_ackSegment
    | with_reducible refine Keep.foldl _ (fun _ _ _ => ?_) ?_
    | dsimp only
    | split

theorem keep_emptied {s₀ s : State} (k : Nat)  (h : Keep s₀ s) : Keep s₀ (State.emptied s k) := by
  unfold State.emptied
  repeat' first
    | with_reducible assumption
    | with_reducible apply keep_setEthDim
    | with_reducible apply keep_modPort
    | dsimp only
    | split

theorem keep_edgeGone {s₀ s : State} (k : Nat)  (h : Keep s₀ s) : Keep s₀ (State.edgeGone s k) := by
  unfold State.edgeGone
  repeat' first
    | with_reducible assumption
    | with_reducible apply keep_cutOff
    | with_reducible apply keep_sendFlit
    | with_reducible apply keep_raise
    | with_reducible apply keep_ror
    | with_reducible apply keep_linkRec
    | with_reducible apply keep_emptied
    | with_reducible refine Keep.foldl _ (fun _ _ _ => ?_) ?_
    | dsimp only
    | split

theorem keep_execEdgeDown {s₀ s : State} (dim : Fin 4)  (h : Keep s₀ s) : KeepO s₀ (execEdgeDown dim s) := by
  unfold execEdgeDown
  repeat' first
    | with_reducible assumption
    | with_reducible apply keep_edgeGone
    | with_reducible apply keep_settled
    | with_reducible refine KeepO.next ?_
    | split

theorem keep_resendEth {s₀ s : State} (i : Nat)  (h : Keep s₀ s) : Keep s₀ (State.resendEth s i) := by
  unfold State.resendEth
  repeat' first
    | with_reducible assumption
    | with_reducible apply keep_edgeGone
    | with_reducible apply keep_setEthDim
    | with_reducible apply keep_count48
    | with_reducible apply keep_emits
    | dsimp only
    | split

theorem keep_execDatagramRetransmit {s₀ s : State} (dim : Fin 2)  (h : Keep s₀ s) : KeepO s₀ (execDatagramRetransmit dim s) := by
  unfold execDatagramRetransmit
  repeat' first
    | with_reducible assumption
    | with_reducible apply keep_resendEth
    | with_reducible apply keep_settled

end Sys2Proof.Machine
end

