-- ==== Sys2Proof/Laws/KeepBoard.lean ====
section
/-! SUPPORT. `Keep` for Ethernet, power, errors, start-up and the board: one lemma for each operation. -/

namespace Sys2Proof.Machine

open Sys2Proof

set_option linter.unusedTactic false
set_option linter.unreachableTactic false
set_option linter.unusedVariables false
set_option linter.unusedSimpArgs false

/-! ### Eth -/

theorem keep_frameIn {s₀ s : State} (f : State → State) (hf : ∀ s, Keep s₀ s → Keep s₀ (f s)) (h : Keep s₀ s) : Keep s₀ (State.frameIn s f) := by
  unfold State.frameIn
  repeat' first
    | with_reducible assumption
    | with_reducible apply hf
    | with_reducible apply keep_count48
    | with_reducible apply keep_wakeOn
    | split

theorem keep_execIcmpEcho {s₀ s : State} (v6 : Bool) (to_ : Nat) (from_ : Nat) (data : List Byte)  (h : Keep s₀ s) : KeepO s₀ (execIcmpEcho v6 to_
    from_ data s) := by
  unfold execIcmpEcho
  repeat' first
    | with_reducible assumption
    | with_reducible apply keep_count48
    | with_reducible apply keep_emit
    | with_reducible apply keep_frameIn
    | with_reducible refine KeepO.next ?_
    | intro _
    | split

theorem keep_execArpRequest {s₀ s : State} (v6 : Bool) (for_ : Nat) (from_ : Nat)  (h : Keep s₀ s) : KeepO s₀ (execArpRequest v6 for_ from_ s) := by
  unfold execArpRequest
  repeat' first
    | with_reducible assumption
    | with_reducible apply keep_count48
    | with_reducible apply keep_emit
    | with_reducible apply keep_frameIn
    | with_reducible refine KeepO.next ?_
    | intro _
    | split

theorem keep_execUnsupportedFrame {s₀ s : State}  (h : Keep s₀ s) : KeepO s₀ (execUnsupportedFrame s) := by
  unfold execUnsupportedFrame
  repeat' first
    | with_reducible assumption
    | with_reducible apply keep_count48
    | with_reducible apply keep_frameIn
    | with_reducible refine KeepO.next ?_
    | intro _

theorem keep_portGo {s₀ s : State}  (h : Keep s₀ s) : Keep s₀ (State.portGo s) := by
  unfold State.portGo
  repeat' first
    | with_reducible assumption
    | with_reducible apply keep_drainEth
    | with_reducible apply keep_connGo
    | with_reducible refine Keep.foldl _ (fun _ _ _ => ?_) ?_

theorem keep_pfcIn {s₀ s : State} (prio : Nat) (pause : Bool)  (h : Keep s₀ s) : Keep s₀ (State.pfcIn s prio pause) := by
  unfold State.pfcIn
  repeat' first
    | with_reducible assumption
    | with_reducible apply keep_modSvc
    | with_reducible apply keep_portGo
    | with_reducible apply keep_count48
    | dsimp only
    | split

theorem keep_execPfcPause {s₀ s : State} (prio : Fin 8) (pause : Bool)  (h : Keep s₀ s) : KeepO s₀ (execPfcPause prio pause s) := by
  unfold execPfcPause
  repeat' first
    | with_reducible assumption
    | with_reducible apply keep_pfcIn
    | with_reducible apply keep_frameIn
    | with_reducible refine KeepO.next ?_
    | intro _

theorem keep_connPrompts {s₀ s : State} (i : Nat)  (h : Keep s₀ s) : Keep s₀ (State.connPrompts s i) := by
  unfold State.connPrompts
  repeat' first
    | with_reducible assumption
    | with_reducible apply keep_chunkGo
    | with_reducible refine Keep.foldl _ (fun _ _ _ => ?_) ?_
    | split

theorem keep_connFails {s₀ s : State} (i : Nat) (cause : Nat)  (h : Keep s₀ s) : Keep s₀ (State.connFails s i cause) := by
  unfold State.connFails
  repeat' first
    | with_reducible assumption
    | with_reducible apply keep_failPrompt
    | with_reducible apply keep_modConn
    | with_reducible apply keep_ror
    | with_reducible refine Keep.foldl _ (fun _ _ _ => ?_) ?_

theorem keep_repIn {s₀ s : State} (i : Nat) (priv : List Byte)  (h : Keep s₀ s) : Keep s₀ (State.repIn s i priv) := by
  unfold State.repIn
  repeat' first
    | with_reducible assumption
    | with_reducible apply keep_modConn
    | with_reducible apply keep_connPrompts
    | with_reducible apply keep_emit
    | with_reducible apply keep_connFails
    | split

theorem keep_execRep {s₀ s : State} (conn : Fin 64) (priv : List Byte)  (h : Keep s₀ s) : KeepO s₀ (execRep conn priv s) := by
  unfold execRep
  repeat' first
    | with_reducible assumption
    | with_reducible apply keep_repIn
    | with_reducible apply keep_frameIn
    | with_reducible apply keep_settled
    | intro _

theorem keep_execRej {s₀ s : State} (conn : Fin 64)  (h : Keep s₀ s) : KeepO s₀ (execRej conn s) := by
  unfold execRej
  repeat' first
    | with_reducible assumption
    | with_reducible apply keep_connFails
    | with_reducible apply keep_frameIn
    | with_reducible apply keep_settled
    | intro _
    | split

theorem keep_reqAgain {s₀ s : State} (i : Nat)  (h : Keep s₀ s) : Keep s₀ (State.reqAgain s i) := by
  unfold State.reqAgain
  repeat' first
    | with_reducible assumption
    | with_reducible apply keep_connFails
    | with_reducible apply keep_setConn
    | with_reducible apply keep_emit
    | dsimp only
    | split

theorem keep_execReqRetry {s₀ s : State} (conn : Fin 64)  (h : Keep s₀ s) : KeepO s₀ (execReqRetry conn s) := by
  unfold execReqRetry
  repeat' first
    | with_reducible assumption
    | with_reducible apply keep_reqAgain
    | with_reducible apply keep_settled

theorem keep_ackUpTo {s₀ s : State} (i : Nat) (next : Nat)  (h : Keep s₀ s) : Keep s₀ (State.ackUpTo s i next) := by
  unfold State.ackUpTo
  repeat' first
    | with_reducible assumption
    | with_reducible apply keep_modEgress
    | with_reducible apply keep_count48
    | with_reducible apply keep_setConn
    | with_reducible refine Keep.foldl _ (fun _ _ _ => ?_) ?_
    | dsimp only
    | split

theorem keep_resendConn {s₀ s : State} (i : Nat)  (h : Keep s₀ s) : Keep s₀ (State.resendConn s i) := by
  unfold State.resendConn
  repeat' first
    | with_reducible assumption
    | with_reducible apply keep_modConn
    | with_reducible apply keep_count48
    | with_reducible apply keep_emits
    | dsimp only
    | split

theorem keep_execRoceAck {s₀ s : State} (conn : Fin 64) (psn : Nat)  (h : Keep s₀ s) : KeepO s₀ (execRoceAck conn psn s) := by
  unfold execRoceAck
  repeat' first
    | with_reducible assumption
    | with_reducible apply keep_ackUpTo
    | with_reducible apply keep_connGo
    | with_reducible apply keep_connPrompts
    | with_reducible apply keep_frameIn
    | with_reducible apply keep_settled
    | intro _

theorem keep_retryConn {s₀ s : State} (i : Nat)  (h : Keep s₀ s) : Keep s₀ (State.retryConn s i) := by
  unfold State.retryConn
  repeat' first
    | with_reducible assumption
    | with_reducible apply keep_setConn
    | with_reducible apply keep_resendConn
    | with_reducible apply keep_connFails
    | dsimp only
    | split

theorem keep_nakIn {s₀ s : State} (i : Nat) (psn : Nat) (kind : NakKind)  (h : Keep s₀ s) : Keep s₀ (State.nakIn s i psn kind) := by
  unfold State.nakIn
  repeat' first
    | with_reducible assumption
    | with_reducible apply keep_drawFree
    | with_reducible apply keep_connFails
    | with_reducible apply keep_modConn
    | with_reducible apply keep_retryConn
    | with_reducible apply keep_count48
    | with_reducible apply keep_ackUpTo
    | dsimp only
    | split

theorem keep_execRoceNak {s₀ s : State} (conn : Fin 64) (psn : Nat) (kind : NakKind)  (h : Keep s₀ s) : KeepO s₀ (execRoceNak conn psn kind s) := by
  unfold execRoceNak
  repeat' first
    | with_reducible assumption
    | with_reducible apply keep_nakIn
    | with_reducible apply keep_connPrompts
    | with_reducible apply keep_frameIn
    | with_reducible apply keep_settled
    | intro _

theorem keep_execRoceAckTimeout {s₀ s : State} (conn : Fin 64)  (h : Keep s₀ s) : KeepO s₀ (execRoceAckTimeout conn s) := by
  unfold execRoceAckTimeout
  repeat' first
    | with_reducible assumption
    | with_reducible apply keep_retryConn
    | with_reducible apply keep_settled

theorem keep_execRnrWait {s₀ s : State} (conn : Fin 64)  (h : Keep s₀ s) : KeepO s₀ (execRnrWait conn s) := by
  unfold execRnrWait
  repeat' first
    | with_reducible assumption
    | with_reducible apply keep_resendConn
    | with_reducible apply keep_connGo
    | with_reducible apply keep_settled
    | with_reducible refine KeepO.next ?_
    | split

theorem keep_cnpIn {s₀ s : State} (i : Nat)  (h : Keep s₀ s) : Keep s₀ (State.cnpIn s i) := by
  unfold State.cnpIn
  repeat' first
    | with_reducible assumption
    | with_reducible apply keep_setConn
    | with_reducible apply keep_count48
    | dsimp only
    | split

theorem keep_execCnp {s₀ s : State} (conn : Fin 64)  (h : Keep s₀ s) : KeepO s₀ (execCnp conn s) := by
  unfold execCnp
  repeat' first
    | with_reducible assumption
    | with_reducible apply keep_cnpIn
    | with_reducible apply keep_frameIn
    | with_reducible refine KeepO.next ?_
    | intro _
    | split

theorem keep_execRateIncrease {s₀ s : State} (conn : Fin 64)  (h : Keep s₀ s) : KeepO s₀ (execRateIncrease conn s) := by
  unfold execRateIncrease
  repeat' first
    | with_reducible assumption
    | with_reducible apply keep_setConn
    | with_reducible refine KeepO.next ?_
    | dsimp only
    | split

theorem keep_ethDown {s₀ s : State}  (h : Keep s₀ s) : Keep s₀ (State.ethDown s) := by
  unfold State.ethDown
  repeat' first
    | with_reducible assumption
    | with_reducible apply keep_failPrompt
    | with_reducible apply keep_portGo
    | with_reducible apply keep_drawFree
    | with_reducible apply keep_raise
    | with_reducible apply keep_rput
    | with_reducible apply keep_ror
    | with_reducible apply keep_modSvc
    | with_reducible refine Keep.foldl _ (fun _ _ _ => ?_) ?_
    | dsimp only
    | split

theorem keep_execEthPortDown {s₀ s : State}  (h : Keep s₀ s) : KeepO s₀ (execEthPortDown s) := by
  unfold execEthPortDown
  repeat' first
    | with_reducible assumption
    | with_reducible apply keep_ethDown
    | with_reducible apply keep_settled

theorem keep_execEthPortUp {s₀ s : State} (full : Bool)  (h : Keep s₀ s) : KeepO s₀ (execEthPortUp full s) := by
  unfold execEthPortUp
  repeat' first
    | with_reducible assumption
    | with_reducible apply keep_portGo
    | with_reducible apply keep_settled
    | with_reducible apply keep_rput
    | with_reducible apply keep_modSvc
    | with_reducible refine KeepO.next ?_
    | (simp only [Keep.mk_iff]; with_reducible refine Keep.fold ?_)
    | dsimp only
    | split

/-! ### Power -/

theorem keep_leaveRequest {s₀ s : State} (c : Nat)  (h : Keep s₀ s) : Keep s₀ (State.leaveRequest s c) := by
  unfold State.leaveRequest
  repeat' first
    | with_reducible assumption
    | with_reducible apply keep_modCore
    | with_reducible apply keep_register
    | with_reducible apply keep_noteReasons
    | with_reducible refine Keep.foldl _ (fun _ _ _ => ?_) ?_
    | (simp only [Keep.mk_iff]; with_reducible refine Keep.fold ?_)
    | dsimp only
    | split

theorem keep_execLeaveRequest {s₀ s : State} (core : Fin 48)  (h : Keep s₀ s) : KeepO s₀ (execLeaveRequest core s) := by
  unfold execLeaveRequest
  repeat' first
    | with_reducible assumption
    | with_reducible apply keep_leaveRequest
    | with_reducible refine KeepO.next ?_

theorem keep_giveLeave {s₀ s : State} (q : LeaveReq)  (h : Keep s₀ s) : Keep s₀ (State.giveLeave s q) := by
  unfold State.giveLeave
  repeat' first
    | with_reducible assumption
    | with_reducible apply keep_lendIfWaiting
    | with_reducible apply keep_fire
    | with_reducible apply keep_modCore
    | with_reducible refine Keep.foldl _ (fun _ _ _ => ?_) ?_
    | (simp only [Keep.mk_iff]; with_reducible refine Keep.fold ?_)
    | dsimp only
    | split

theorem keep_leaveGrant {s₀ s : State}  (h : Keep s₀ s) : Keep s₀ (State.leaveGrant s) := by
  unfold State.leaveGrant
  repeat' first
    | with_reducible assumption
    | with_reducible apply keep_giveLeave
    | with_reducible apply keep_noteReasons
    | split

theorem keep_execLeaveGrant {s₀ s : State}  (h : Keep s₀ s) : KeepO s₀ (execLeaveGrant s) := by
  unfold execLeaveGrant
  repeat' first
    | with_reducible assumption
    | with_reducible apply keep_leaveGrant
    | with_reducible refine KeepO.next ?_

theorem keep_demoteTo {s₀ s : State} (c : Nat) (code : Nat)  (h : Keep s₀ s) : Keep s₀ (State.demoteTo s c code) := by
  unfold State.demoteTo
  repeat' first
    | with_reducible assumption
    | with_reducible apply keep_modCore

theorem keep_demote {s₀ a2 : State} (a1 : Nat)  (h : Keep s₀ a2) : Keep s₀ (State.demote a1 a2) := by
  induction a1 generalizing a2 with
  | zero =>
    unfold State.demote
    repeat' first
      | with_reducible assumption
      | with_reducible apply ih
      | with_reducible apply keep_demoteTo
      | split
  | succ n ih =>
    unfold State.demote
    repeat' first
      | with_reducible assumption
      | with_reducible apply ih
      | with_reducible apply keep_demoteTo
      | split

theorem keep_restore {s₀ a2 : State} (a1 : Nat)  (h : Keep s₀ a2) : Keep s₀ (State.restore a1 a2) := by
  induction a1 generalizing a2 with
  | zero =>
    unfold State.restore
    repeat' first
      | with_reducible assumption
      | with_reducible apply ih
      | with_reducible apply keep_modCore
      | dsimp only
      | split
  | succ n ih =>
    unfold State.restore
    repeat' first
      | with_reducible assumption
      | with_reducible apply ih
      | with_reducible apply keep_modCore
      | dsimp only
      | split

theorem keep_allToA0 {s₀ s : State}  (h : Keep s₀ s) : Keep s₀ (State.allToA0 s) := by
  unfold State.allToA0
  repeat' first
    | with_reducible assumption
    | with_reducible apply keep_demoteTo
    | with_reducible refine Keep.foldl _ (fun _ _ _ => ?_) ?_
    | split

theorem keep_addEnergy {s₀ s : State} (w : Window)  (h : Keep s₀ s) : Keep s₀ (State.addEnergy s w) := by
  unfold State.addEnergy
  repeat' first
    | with_reducible assumption
    | with_reducible apply keep_count64
    | with_reducible refine Keep.foldl _ (fun _ _ _ => ?_) ?_

theorem keep_burstEnd {s₀ s : State} (w : Window)  (h : Keep s₀ s) : Keep s₀ (State.burstEnd s w) := by
  unfold State.burstEnd
  repeat' first
    | with_reducible assumption
    | with_reducible apply keep_rput
    | (simp only [Keep.mk_iff]; with_reducible refine Keep.fold ?_)

theorem keep_compareEnd {s₀ s : State} (w : Window)  (h : Keep s₀ s) : Keep s₀ (State.compareEnd s w) := by
  unfold State.compareEnd
  repeat' first
    | with_reducible assumption
    | with_reducible apply keep_raise
    | with_reducible apply keep_rput
    | dsimp only
    | split

theorem keep_thermalTerm {s₀ s : State} (mean : Nat)  (h : Keep s₀ s) : Keep s₀ (State.thermalTerm s mean) := by
  unfold State.thermalTerm
  repeat' first
    | with_reducible assumption
    | (simp only [Keep.mk_iff]; with_reducible refine Keep.fold ?_)

theorem keep_railTerm {s₀ s : State} (w : Window)  (h : Keep s₀ s) : Keep s₀ (State.railTerm s w) := by
  unfold State.railTerm
  repeat' first
    | with_reducible assumption
    | with_reducible apply keep_raise
    | with_reducible refine Keep.foldl _ (fun _ _ _ => ?_) ?_
    | (simp only [Keep.mk_iff]; with_reducible refine Keep.fold ?_)
    | dsimp only
    | split

theorem keep_takeShare {s₀ s : State}  (h : Keep s₀ s) : Keep s₀ (State.takeShare s) := by
  unfold State.takeShare
  repeat' first
    | with_reducible assumption
    | with_reducible apply keep_rput
    | (simp only [Keep.mk_iff]; with_reducible refine Keep.fold ?_)

theorem keep_takeLimit {s₀ s : State}  (h : Keep s₀ s) : Keep s₀ (State.takeLimit s) := by
  unfold State.takeLimit
  repeat' first
    | with_reducible assumption
    | with_reducible apply keep_rput
    | (simp only [Keep.mk_iff]; with_reducible refine Keep.fold ?_)

theorem keep_setRail {s₀ s : State} (p : Nat)  (h : Keep s₀ s) : Keep s₀ (State.setRail s p) := by
  unfold State.setRail
  repeat' first
    | with_reducible assumption
    | with_reducible apply keep_rput
    | with_reducible apply keep_emit

theorem keep_setClock {s₀ s : State} (p : Nat)  (h : Keep s₀ s) : Keep s₀ (State.setClock s p) := by
  unfold State.setClock
  repeat' first
    | with_reducible assumption
    | with_reducible apply keep_rput

theorem keep_movePoint {s₀ s : State}  (h : Keep s₀ s) : Keep s₀ (State.movePoint s) := by
  unfold State.movePoint
  repeat' first
    | with_reducible assumption
    | with_reducible apply keep_setClock
    | with_reducible apply keep_setRail
    | (simp only [Keep.mk_iff]; with_reducible refine Keep.fold ?_)
    | dsimp only
    | split

theorem keep_windowEnd {s₀ s : State} (w : Window)  (h : Keep s₀ s) : Keep s₀ (State.windowEnd s w) := by
  unfold State.windowEnd
  repeat' first
    | with_reducible assumption
    | with_reducible apply keep_addEnergy
    | with_reducible apply keep_burstEnd
    | with_reducible apply keep_compareEnd
    | (simp only [Keep.mk_iff]; with_reducible refine Keep.fold ?_)

theorem keep_windowStart {s₀ s : State} (w : Window)  (h : Keep s₀ s) : Keep s₀ (State.windowStart s w) := by
  unfold State.windowStart
  repeat' first
    | with_reducible assumption
    | with_reducible apply keep_takeRw
    | with_reducible apply keep_thermalTerm
    | with_reducible apply keep_railTerm
    | with_reducible apply keep_takeShare
    | with_reducible apply keep_takeLimit
    | with_reducible apply keep_movePoint

theorem keep_window {s₀ s : State} (w : Window)  (h : Keep s₀ s) : Keep s₀ (State.window s w) := by
  unfold State.window
  repeat' first
    | with_reducible assumption
    | with_reducible apply keep_noteReasons
    | with_reducible apply keep_demote
    | with_reducible apply keep_restore
    | with_reducible apply keep_windowStart
    | with_reducible apply keep_windowEnd
    | split

theorem keep_execEvaluationWindow {s₀ s : State} (w : Window)  (h : Keep s₀ s) : KeepO s₀ (execEvaluationWindow w s) := by
  unfold execEvaluationWindow
  repeat' first
    | with_reducible assumption
    | with_reducible apply keep_window
    | with_reducible refine KeepO.next ?_
    | split

theorem keep_execRailSettled {s₀ s : State}  (h : Keep s₀ s) : KeepO s₀ (execRailSettled s) := by
  unfold execRailSettled
  repeat' first
    | with_reducible assumption
    | with_reducible apply keep_setClock
    | with_reducible refine KeepO.next ?_
    | (simp only [Keep.mk_iff]; with_reducible refine Keep.fold ?_)
    | dsimp only
    | split

theorem keep_shiftGo {s₀ s : State}  (h : Keep s₀ s) : Keep s₀ (State.shiftGo s) := by
  unfold State.shiftGo
  repeat' first
    | with_reducible assumption
    | with_reducible apply keep_broadcast
    | (simp only [Keep.mk_iff]; with_reducible refine Keep.fold ?_)
    | dsimp only
    | split

theorem keep_takeReport {s₀ s : State} (dev : Nat) (slack : Nat) (own : Nat)  (h : Keep s₀ s) : Keep s₀ (State.takeReport s dev slack own) := by
  unfold State.takeReport
  repeat' first
    | with_reducible assumption
    | with_reducible apply keep_shiftGo
    | (simp only [Keep.mk_iff]; with_reducible refine Keep.fold ?_)

theorem keep_shiftPeriod {s₀ s : State}  (h : Keep s₀ s) : Keep s₀ (State.shiftPeriod s) := by
  unfold State.shiftPeriod
  repeat' first
    | with_reducible assumption
    | with_reducible apply keep_toHead
    | with_reducible apply keep_takeReport
    | (simp only [Keep.mk_iff]; with_reducible refine Keep.fold ?_)
    | dsimp only
    | split

theorem keep_execShiftPeriod {s₀ s : State}  (h : Keep s₀ s) : KeepO s₀ (execShiftPeriod s) := by
  unfold execShiftPeriod
  repeat' first
    | with_reducible assumption
    | with_reducible apply keep_shiftPeriod
    | with_reducible refine KeepO.next ?_

theorem keep_execShiftReport {s₀ s : State} (m : SyncMsg)  (h : Keep s₀ s) : KeepO s₀ (execShiftReport m s) := by
  unfold execShiftReport
  repeat' first
    | with_reducible assumption
    | with_reducible apply keep_takeReport
    | with_reducible apply keep_syncIn
    | intro _
    | split

theorem keep_execShiftSet {s₀ s : State} (m : SyncMsg)  (h : Keep s₀ s) : KeepO s₀ (execShiftSet m s) := by
  unfold execShiftSet
  repeat' first
    | with_reducible assumption
    | with_reducible apply keep_syncIn
    | intro _
    | (simp only [Keep.mk_iff]; with_reducible refine Keep.fold ?_)
    | dsimp only
    | split

theorem keep_trip {s₀ s : State}  (h : Keep s₀ s) : Keep s₀ (State.trip s) := by
  unfold State.trip
  repeat' first
    | with_reducible assumption
    | with_reducible apply keep_stopWork
    | with_reducible apply keep_rput
    | with_reducible apply keep_toSt
    | (simp only [Keep.mk_iff]; with_reducible refine Keep.fold ?_)

theorem keep_sampleTj {s₀ s : State} (tj : List Nat)  (h : Keep s₀ s) : Keep s₀ (State.sampleTj s tj) := by
  unfold State.sampleTj
  repeat' first
    | with_reducible assumption
    | with_reducible apply keep_restore
    | with_reducible apply keep_allToA0
    | with_reducible apply keep_noteReasons
    | with_reducible apply keep_raise
    | with_reducible apply keep_trip
    | with_reducible apply keep_rput
    | with_reducible refine Keep.foldl _ (fun _ _ _ => ?_) ?_
    | (simp only [Keep.mk_iff]; with_reducible refine Keep.fold ?_)
    | dsimp only
    | split

theorem keep_execTjSample {s₀ s : State} (tj : List Nat)  (h : Keep s₀ s) : KeepO s₀ (execTjSample tj s) := by
  unfold execTjSample
  repeat' first
    | with_reducible assumption
    | with_reducible apply keep_sampleTj
    | with_reducible refine KeepO.next ?_
    | split

theorem keep_execDroop {s₀ s : State} (core : Fin 48)  (h : Keep s₀ s) : KeepO s₀ (execDroop core s) := by
  unfold execDroop
  repeat' first
    | with_reducible assumption
    | with_reducible apply keep_modCore
    | with_reducible apply keep_noteReasons
    | with_reducible refine KeepO.next ?_
    | split

theorem keep_execDroopRecovery {s₀ s : State} (core : Fin 48) (stretched : Nat)  (h : Keep s₀ s) : KeepO s₀ (execDroopRecovery core stretched s) := by
  unfold execDroopRecovery
  repeat' first
    | with_reducible assumption
    | with_reducible apply keep_modCore
    | with_reducible apply keep_count48
    | with_reducible refine KeepO.next ?_
    | split

theorem keep_marginTrim {s₀ s : State} (margins : List Int)  (h : Keep s₀ s) : Keep s₀ (State.marginTrim s margins) := by
  unfold State.marginTrim
  repeat' first
    | with_reducible assumption
    | with_reducible apply keep_setRail
    | with_reducible apply keep_fenceUnit
    | with_reducible apply keep_rput
    | with_reducible refine Keep.foldl _ (fun _ _ _ => ?_) ?_
    | dsimp only
    | split

theorem keep_execMarginTrim {s₀ s : State} (margins : List Int)  (h : Keep s₀ s) : KeepO s₀ (execMarginTrim margins s) := by
  unfold execMarginTrim
  repeat' first
    | with_reducible assumption
    | with_reducible apply keep_marginTrim
    | with_reducible apply keep_settled
    | with_reducible refine KeepO.next ?_
    | split

theorem keep_execRecalibration {s₀ s : State} (uncore : Nat) (measured : Nat) (estimated : Nat)  (h : Keep s₀ s) : KeepO s₀ (execRecalibration
    uncore measured estimated s) := by
  unfold execRecalibration
  repeat' first
    | with_reducible assumption
    | with_reducible apply keep_rput
    | with_reducible apply keep_pwrCal
    | with_reducible refine KeepO.next ?_
    | split

theorem keep_execIdleEntry {s₀ s : State}  (h : Keep s₀ s) : KeepO s₀ (execIdleEntry s) := by
  unfold execIdleEntry
  repeat' first
    | with_reducible assumption
    | with_reducible apply keep_rput
    | with_reducible refine KeepO.next ?_
    | (simp only [Keep.mk_iff]; with_reducible refine Keep.fold ?_)
    | dsimp only
    | split

theorem keep_execDozeDelay {s₀ s : State}  (h : Keep s₀ s) : KeepO s₀ (execDozeDelay s) := by
  unfold execDozeDelay
  repeat' first
    | with_reducible assumption
    | with_reducible apply keep_broadcast
    | with_reducible apply keep_dozeHere
    | with_reducible refine KeepO.next ?_
    | dsimp only
    | split

theorem keep_execDoze {s₀ s : State} (m : SyncMsg)  (h : Keep s₀ s) : KeepO s₀ (execDoze m s) := by
  unfold execDoze
  repeat' first
    | with_reducible assumption
    | with_reducible apply keep_dozeHere
    | with_reducible apply keep_syncIn
    | intro _
    | split

theorem keep_execWake {s₀ s : State} (m : SyncMsg)  (h : Keep s₀ s) : KeepO s₀ (execWake m s) := by
  unfold execWake
  repeat' first
    | with_reducible assumption
    | with_reducible apply keep_wakeHere
    | with_reducible apply keep_syncIn

/-! ### Errors -/

theorem keep_errorNotice {s₀ s : State} (r : ErrRec)  (h : Keep s₀ s) : Keep s₀ (State.errorNotice s r) := by
  unfold State.errorNotice
  repeat' first
    | with_reducible assumption
    | with_reducible apply keep_notices
    | (simp only [Keep.mk_iff]; with_reducible refine Keep.fold ?_)
    | dsimp only
    | split

theorem keep_storeRec {s₀ s : State} (isl : Nat) (r : ErrRec)  (h : Keep s₀ s) : Keep s₀ (State.storeRec s isl r) := by
  unfold State.storeRec
  repeat' first
    | with_reducible assumption
    | with_reducible apply keep_count48
    | with_reducible apply keep_errorNotice
    | with_reducible apply keep_setErrQueue
    | with_reducible apply keep_lostRec
    | with_reducible apply keep_takeRws
    | (simp only [Keep.mk_iff]; with_reducible refine Keep.fold ?_)
    | dsimp only
    | split

theorem keep_mergeAccusation {s₀ s : State} (r : ErrRec) (a1 : Nat × UnitId)  (h : Keep s₀ s) : Keep s₀ (State.mergeAccusation s r a1) := by
  unfold State.mergeAccusation
  repeat' first
    | with_reducible assumption
    | with_reducible apply keep_storeRec
    | with_reducible apply keep_count48
    | (simp only [Keep.mk_iff]; with_reducible refine Keep.fold ?_)
    | dsimp only
    | split

theorem keep_execAccuse {s₀ s : State} (m : SyncMsg)  (h : Keep s₀ s) : KeepO s₀ (execAccuse m s) := by
  unfold execAccuse
  repeat' first
    | with_reducible assumption
    | with_reducible apply keep_mergeAccusation
    | with_reducible apply keep_syncIn
    | intro _
    | dsimp only
    | split

theorem keep_withdrawFrame {s₀ s : State} (f : Nat)  (h : Keep s₀ s) : Keep s₀ (State.withdrawFrame s f) := by
  unfold State.withdrawFrame
  repeat' first
    | with_reducible assumption
    | with_reducible apply keep_imageFailed
    | with_reducible apply keep_serviceRec
    | with_reducible refine Keep.foldl _ (fun _ _ _ => ?_) ?_
    | (simp only [Keep.mk_iff]; with_reducible refine Keep.fold ?_)

theorem keep_fenceFrame {s₀ s : State} (f : Nat) (trigger : Nat)  (h : Keep s₀ s) : Keep s₀ (State.fenceFrame s f trigger) := by
  unfold State.fenceFrame
  repeat' first
    | with_reducible assumption
    | with_reducible apply keep_withdrawFrame
    | with_reducible apply keep_serviceRec
    | with_reducible apply keep_rset
    | with_reducible apply keep_poisonRange
    | dsimp only
    | split

theorem keep_channelFailed {s₀ s : State} (n : Nat)  (h : Keep s₀ s) : Keep s₀ (State.channelFailed s n) := by
  unfold State.channelFailed
  repeat' first
    | with_reducible assumption
    | with_reducible apply keep_rput
    | with_reducible apply keep_leaveGroup

theorem keep_fenceGo {s₀ s : State}  (h : Keep s₀ s) : Keep s₀ (State.fenceGo s) := by
  unfold State.fenceGo
  repeat' first
    | with_reducible assumption
    | with_reducible apply keep_channelFailed
    | with_reducible apply keep_fenceFrame
    | with_reducible apply keep_modCore
    | with_reducible apply keep_fenceUnit
    | with_reducible refine Keep.foldl _ (fun _ _ _ => ?_) ?_
    | (simp only [Keep.mk_iff]; with_reducible refine Keep.fold ?_)
    | split

theorem keep_drainErr {s₀ s : State} (isl : Nat)  (h : Keep s₀ s) : Keep s₀ (State.drainErr s isl) := by
  unfold State.drainErr
  repeat' first
    | with_reducible assumption
    | with_reducible apply keep_fenceGo
    | with_reducible apply keep_storeRec
    | with_reducible apply keep_toHead
    | with_reducible apply keep_count48
    | with_reducible apply keep_mergeAccusation
    | with_reducible apply keep_setErrQueue
    | dsimp only
    | split

theorem keep_execErrorDrain {s₀ s : State} (island : Fin 71)  (h : Keep s₀ s) : KeepO s₀ (execErrorDrain island s) := by
  unfold execErrorDrain
  repeat' first
    | with_reducible assumption
    | with_reducible apply keep_drainErr
    | with_reducible apply keep_settled

theorem keep_patrolFound {s₀ s : State} (a1 : Nat)  (h : Keep s₀ s) : Keep s₀ (State.patrolFound s a1) := by
  unfold State.patrolFound
  repeat' first
    | with_reducible assumption
    | with_reducible apply keep_imageFailed
    | with_reducible apply keep_askTwin
    | with_reducible apply keep_errorAgainst
    | with_reducible refine Keep.foldl _ (fun _ _ _ => ?_) ?_
    | dsimp only
    | split

theorem keep_patrol {s₀ s : State} (addr : Nat) (words : Nat)  (h : Keep s₀ s) : Keep s₀ (State.patrol s addr words) := by
  unfold State.patrol
  repeat' first
    | with_reducible assumption
    | with_reducible apply keep_takeRw
    | with_reducible apply keep_patrolFound
    | with_reducible apply keep_noteWord
    | with_reducible refine Keep.foldl _ (fun _ _ _ => ?_) ?_
    | dsimp only
    | split

theorem keep_execPatrolScrub {s₀ s : State} (addr : Nat) (words : Nat)  (h : Keep s₀ s) : KeepO s₀ (execPatrolScrub addr words s) := by
  unfold execPatrolScrub
  repeat' first
    | with_reducible assumption
    | with_reducible apply keep_patrol
    | with_reducible apply keep_settled
    | with_reducible refine KeepO.next ?_
    | split

theorem keep_refreshRate {s₀ s : State} (package : Nat) (rate : Nat)  (h : Keep s₀ s) : Keep s₀ (State.refreshRate s package rate) := by
  unfold State.refreshRate
  repeat' first
    | with_reducible assumption
    | with_reducible apply keep_rput
    | with_reducible refine Keep.foldl _ (fun _ _ _ => ?_) ?_
    | (simp only [Keep.mk_iff]; with_reducible refine Keep.fold ?_)

theorem keep_execRefreshIntervalChange {s₀ s : State} (package : Fin 10) (rate : Fin 32)  (h : Keep s₀ s) : KeepO s₀ (execRefreshIntervalChange
    package rate s) := by
  unfold execRefreshIntervalChange
  repeat' first
    | with_reducible assumption
    | with_reducible apply keep_refreshRate
    | with_reducible refine KeepO.next ?_

theorem keep_selftestDone {s₀ s : State} (c : Nat) (ok : Bool)  (h : Keep s₀ s) : Keep s₀ (State.selftestDone s c ok) := by
  unfold State.selftestDone
  repeat' first
    | with_reducible assumption
    | with_reducible apply keep_returnToService
    | with_reducible apply keep_ror
    | with_reducible apply keep_fenceUnit
    | with_reducible apply keep_modCore
    | dsimp only
    | split

theorem keep_execSelftestComplete {s₀ s : State} (core : Fin 48) (ok : Bool)  (h : Keep s₀ s) : KeepO s₀ (execSelftestComplete core ok s) := by
  unfold execSelftestComplete
  repeat' first
    | with_reducible assumption
    | with_reducible apply keep_selftestDone
    | with_reducible apply keep_settled

/-! ### Boot -/

theorem keep_resetDevice {s₀ s : State} (h : Keep s₀ s) : Keep s₀ s.resetDevice := by
  have h1 := keep_stopWork h
  unfold State.resetDevice
  dsimp only
  refine keep_rput _ _ _ _ _ ?_
  simp only [Keep.mk_iff]
  exact ⟨h1.pending, h1.out, h1.freeCtr, fun _ => rfl, fun _ => rfl, fun _ => rfl,
    fun c => swf_maskRegs _ (h1.regs c), fun c => swf_maskRegs _ (h1.force c), h1.fuses⟩

theorem keep_resetPower {s₀ s : State} (h : Keep s₀ s) : Keep s₀ s.resetPower := by
  have h1 : ∀ b, Keep s₀ { State.reset with pending := s.pending, out := s.out, freeCtr := s.freeCtr, sec := s.sec.afterReset, brd := b } :=
    fun _ => ⟨h.pending, h.out, h.freeCtr, fun _ => rfl, fun _ => rfl, fun _ => rfl, fun _ => rfl, fun _ => rfl, h.fuses⟩
  unfold State.resetPower
  dsimp only
  split
  · exact keep_toSt _ (h1 _)
  · exact h1 _

theorem keep_showRails {s₀ s : State}  (h : Keep s₀ s) : Keep s₀ (State.showRails s) := by
  unfold State.showRails
  repeat' first
    | with_reducible assumption
    | with_reducible apply keep_startSt
    | split

theorem keep_execPowerOnReset {s₀ s : State}  (h : Keep s₀ s) : KeepO s₀ (execPowerOnReset s) := by
  unfold execPowerOnReset
  repeat' first
    | with_reducible assumption
    | with_reducible apply keep_toSt
    | with_reducible apply keep_showRails
    | with_reducible apply keep_resetPower
    | with_reducible refine KeepO.next ?_
    | (simp only [Keep.mk_iff]; with_reducible refine Keep.fold ?_)

theorem keep_resetFall {s₀ s : State}  (h : Keep s₀ s) : Keep s₀ (State.resetFall s) := by
  unfold State.resetFall
  repeat' first
    | with_reducible assumption
    | with_reducible apply keep_showRails
    | with_reducible apply keep_resetDevice
    | (simp only [Keep.mk_iff]; with_reducible refine Keep.fold ?_)
    | dsimp only
    | split

theorem keep_execDeviceReset {s₀ s : State}  (h : Keep s₀ s) : KeepO s₀ (execDeviceReset s) := by
  unfold execDeviceReset
  repeat' first
    | with_reducible assumption
    | with_reducible apply keep_resetFall
    | with_reducible refine KeepO.next ?_

theorem keep_brownout {s₀ s : State} (rail : Nat)  (h : Keep s₀ s) : Keep s₀ (State.brownout s rail) := by
  unfold State.brownout
  repeat' first
    | with_reducible assumption
    | with_reducible apply keep_toSt
    | with_reducible apply keep_showRails
    | with_reducible apply keep_resetPower
    | (simp only [Keep.mk_iff]; with_reducible refine Keep.fold ?_)
    | dsimp only
    | split

theorem keep_execBrownoutReset {s₀ s : State} (rail : Fin 8)  (h : Keep s₀ s) : KeepO s₀ (execBrownoutReset rail s) := by
  unfold execBrownoutReset
  repeat' first
    | with_reducible assumption
    | with_reducible apply keep_brownout
    | with_reducible refine KeepO.next ?_

theorem keep_execPwrgoodFall {s₀ s : State}  (h : Keep s₀ s) : KeepO s₀ (execPwrgoodFall s) := by
  unfold execPwrgoodFall
  repeat' first
    | with_reducible assumption
    | with_reducible apply keep_resetPower
    | with_reducible refine KeepO.next ?_
    | (simp only [Keep.mk_iff]; with_reducible refine Keep.fold ?_)

theorem keep_writeRecord {s₀ s : State} (b : List Byte)  (h : Keep s₀ s) : Keep s₀ (State.writeRecord s b) := by
  unfold State.writeRecord
  repeat' first
    | with_reducible assumption
    | with_reducible apply keep_rput
    | with_reducible apply keep_drawFree
    | with_reducible apply keep_takeRws
    | with_reducible apply keep_rset
    | with_reducible refine Keep.foldl _ (fun _ _ _ => ?_) ?_
    | dsimp only
    | split

theorem keep_bootRec {s₀ s : State} (detail : Nat)  (h : Keep s₀ s) : Keep s₀ (State.bootRec s detail) := by
  unfold State.bootRec
  repeat' first
    | with_reducible assumption
    | with_reducible apply keep_raise

theorem keep_halt {s₀ s : State} (st : Nat) (detail : Nat)  (h : Keep s₀ s) : Keep s₀ (State.halt s st detail) := by
  unfold State.halt
  repeat' first
    | with_reducible assumption
    | with_reducible apply keep_toSt
    | with_reducible apply keep_startSt

theorem keep_burnSvn {s₀ s : State} (h : Keep s₀ s) : Keep s₀ s.burnSvn := by
  unfold State.burnSvn
  split
  · rename_i c
    simp only [Bool.and_eq_true, decide_eq_true_eq] at c
    simp only [Keep.mk_iff]
    exact Keep.updFuses ⟨rfl, rfl, ⟨rfl, rfl⟩, fun _ => Owner.grows_refl _, le_of_lt c.2, fun h => ⟨le_refl _, h⟩⟩ h
  · exact h

theorem keep_bootRecord {s₀ s : State} (pins : Pins) (f : Flash) (h : Keep s₀ s) : Keep s₀ (s.bootRecord pins f) := by
  have h1 : ∀ b d g m, Keep s₀ { s with sec := { s.sec with board := b, boardDigest := d, boardSigner := g, fuses := s.sec.fuses.revoke m g } } := by
    intro b d g m
    simp only [Keep.mk_iff]
    exact Keep.updFuses (Fuses.grows_revoke _ _ _) h
  unfold State.bootRecord
  dsimp only
  generalize hw : State.writeRecord _ f.board = s2
  have h2 : Keep s₀ s2 := hw ▸ keep_writeRecord _ (h1 _ _ _ _)
  clear hw
  repeat' first
    | with_reducible assumption
    | with_reducible apply keep_leaveOut
    | with_reducible apply keep_drawFree
    | with_reducible apply keep_bootRec
    | split

theorem keep_bootFrom {s₀ s : State} (pins : Pins) (f : Flash) (x : FwSlot) (slotB : Bool)  (h : Keep s₀ s) : Keep s₀ (State.bootFrom s pins f x
    slotB) := by
  unfold State.bootFrom
  repeat' first
    | with_reducible assumption
    | with_reducible apply keep_burnSvn
    | with_reducible apply keep_toSt
    | with_reducible apply keep_bootRecord
    | with_reducible apply keep_raise
    | (simp only [Keep.mk_iff]; with_reducible refine Keep.fold ?_)
    | dsimp only
    | split

theorem keep_boot {s₀ s : State} (pins : Pins) (f : Flash)  (h : Keep s₀ s) : Keep s₀ (State.boot s pins f) := by
  unfold State.boot
  repeat' first
    | with_reducible assumption
    | with_reducible apply keep_bootRec
    | with_reducible apply keep_bootFrom
    | with_reducible apply keep_halt
    | with_reducible apply keep_toSt
    | with_reducible apply keep_startSt
    | dsimp only
    | split

theorem keep_leaveReset {s₀ s : State} (pins : Pins) (f : Flash)  (h : Keep s₀ s) : Keep s₀ (State.leaveReset s pins f) := by
  unfold State.leaveReset
  repeat' first
    | with_reducible assumption
    | with_reducible apply keep_boot
    | with_reducible apply keep_rset
    | (simp only [Keep.mk_iff]; with_reducible refine Keep.fold ?_)
    | dsimp only
    | split

theorem keep_execResetNRise {s₀ s : State} (pins : Pins) (flash : Flash)  (h : Keep s₀ s) : KeepO s₀ (execResetNRise pins flash s) := by
  unfold execResetNRise
  repeat' first
    | with_reducible assumption
    | with_reducible apply keep_leaveReset
    | with_reducible refine KeepO.next ?_
    | (simp only [Keep.mk_iff]; with_reducible refine Keep.fold ?_)
    | dsimp only
    | split

theorem keep_railBack {s₀ s : State} (rail : Nat) (pins : Pins) (f : Flash)  (h : Keep s₀ s) : Keep s₀ (State.railBack s rail pins f) := by
  unfold State.railBack
  repeat' first
    | with_reducible assumption
    | with_reducible apply keep_leaveReset
    | with_reducible apply keep_startSt
    | with_reducible apply keep_showRails
    | (simp only [Keep.mk_iff]; with_reducible refine Keep.fold ?_)
    | dsimp only
    | split

theorem keep_execRailInRange {s₀ s : State} (rail : Fin 8) (pins : Pins) (flash : Flash)  (h : Keep s₀ s) : KeepO s₀ (execRailInRange rail pins
    flash s) := by
  unfold execRailInRange
  repeat' first
    | with_reducible assumption
    | with_reducible apply keep_railBack
    | with_reducible refine KeepO.next ?_

/-! ### Startup -/

theorem keep_treeMade {s₀ s : State} (dead : Nat) (h : Keep s₀ s) : Keep s₀ (s.treeMade dead) := by
  have hu : s.sec.fuses.Grows { s.sec.fuses with topUsed := min 1024 (s.sec.fuses.topUsed + dead + 1) } :=
    ⟨rfl, rfl, ⟨rfl, rfl⟩, fun _ => Owner.grows_refl _, le_refl _, fun h => ⟨by dsimp only; omega, by dsimp only; omega⟩⟩
  unfold State.treeMade
  dsimp only
  repeat' split
  all_goals first
    | exact h
    | (refine keep_attestGo (keep_burnSvn (keep_swapTree ?_))
       simp only [Keep.mk_iff]
       exact Keep.updFuses hu h)

theorem keep_execLowerTreeGenerated {s₀ s : State} (deadBits : Nat)  (h : Keep s₀ s) : KeepO s₀ (execLowerTreeGenerated deadBits s) := by
  unfold execLowerTreeGenerated
  repeat' first
    | with_reducible assumption
    | with_reducible apply keep_treeMade
    | with_reducible refine KeepO.next ?_

theorem keep_execRegenPeriodEnd {s₀ s : State}  (h : Keep s₀ s) : KeepO s₀ (execRegenPeriodEnd s) := by
  unfold execRegenPeriodEnd
  repeat' first
    | with_reducible assumption
    | with_reducible apply keep_startRegen
    | with_reducible refine KeepO.next ?_
    | (simp only [Keep.mk_iff]; with_reducible refine Keep.fold ?_)

theorem keep_execLinkTrained {s₀ s : State} (port : Fin 8) (lanes : Fin 64)  (h : Keep s₀ s) : KeepO s₀ (execLinkTrained port lanes s) := by
  unfold execLinkTrained
  repeat' first
    | with_reducible assumption
    | with_reducible apply keep_trained
    | with_reducible refine KeepO.next ?_

theorem keep_stepDone {s₀ s : State} (n : Nat)  (h : Keep s₀ s) : Keep s₀ (State.stepDone s n) := by
  unfold State.stepDone
  repeat' first
    | with_reducible assumption
    | (simp only [Keep.mk_iff]; with_reducible refine Keep.fold ?_)
    | dsimp only
    | split

theorem keep_memTrained {s₀ s : State} (failed : List Nat)  (h : Keep s₀ s) : Keep s₀ (State.memTrained s failed) := by
  unfold State.memTrained
  repeat' first
    | with_reducible assumption
    | with_reducible apply keep_stepDone
    | with_reducible apply keep_ror
    | with_reducible apply keep_leaveOut
    | with_reducible apply keep_serviceRec
    | with_reducible apply keep_rput
    | with_reducible refine Keep.foldl _ (fun _ _ _ => ?_) ?_
    | (simp only [Keep.mk_iff]; with_reducible refine Keep.fold ?_)
    | dsimp only
    | split

theorem keep_execMemoryTrained {s₀ s : State} (failed : List (Fin 80))  (h : Keep s₀ s) : KeepO s₀ (execMemoryTrained failed s) := by
  unfold execMemoryTrained
  repeat' first
    | with_reducible assumption
    | with_reducible apply keep_memTrained
    | with_reducible refine KeepO.next ?_

theorem keep_fenceGander {s₀ s : State} (n : Nat)  (h : Keep s₀ s) : Keep s₀ (State.fenceGander s n) := by
  unfold State.fenceGander
  repeat' first
    | with_reducible assumption
    | with_reducible apply keep_serviceRec
    | (simp only [Keep.mk_iff]; with_reducible refine Keep.fold ?_)
    | dsimp only
    | split

theorem keep_answerCall {s₀ s : State}  (h : Keep s₀ s) : Keep s₀ (State.answerCall s) := by
  unfold State.answerCall
  repeat' first
    | with_reducible assumption
    | with_reducible apply keep_sendSync
    | (simp only [Keep.mk_iff]; with_reducible refine Keep.fold ?_)
    | dsimp only
    | split

theorem keep_startUpDone {s₀ s : State} (coresFailed : List Nat) (gandersFailed : List Nat)  (h : Keep s₀ s) : Keep s₀ (State.startUpDone s
    coresFailed gandersFailed) := by
  unfold State.startUpDone
  repeat' first
    | with_reducible assumption
    | with_reducible apply keep_toSt
    | with_reducible apply keep_answerCall
    | with_reducible apply keep_stepDone
    | with_reducible apply keep_fenceUnit
    | with_reducible apply keep_leaveGroup
    | with_reducible apply keep_leaveOut
    | with_reducible apply keep_fenceGander
    | with_reducible refine Keep.foldl _ (fun _ _ _ => ?_) ?_
    | (simp only [Keep.mk_iff]; with_reducible refine Keep.fold ?_)
    | dsimp only
    | split

theorem keep_execStartUpComplete {s₀ s : State} (coresFailed : List (Fin 48)) (gandersFailed : List (Fin 4))  (h : Keep s₀ s) : KeepO s₀
    (execStartUpComplete coresFailed gandersFailed s) := by
  unfold execStartUpComplete
  repeat' first
    | with_reducible assumption
    | with_reducible apply keep_startUpDone
    | with_reducible refine KeepO.next ?_

theorem keep_takeCall {s₀ s : State} (head : Nat)  (h : Keep s₀ s) : Keep s₀ (State.takeCall s head) := by
  unfold State.takeCall
  repeat' first
    | with_reducible assumption
    | with_reducible apply keep_startSt
    | with_reducible apply keep_answerCall
    | (simp only [Keep.mk_iff]; with_reducible refine Keep.fold ?_)
    | dsimp only
    | split

theorem keep_execCall {s₀ s : State} (m : SyncMsg)  (h : Keep s₀ s) : KeepO s₀ (execCall m s) := by
  unfold execCall
  repeat' first
    | with_reducible assumption
    | with_reducible apply keep_takeCall
    | with_reducible apply keep_syncIn
    | intro _

theorem keep_execCallPeriod {s₀ s : State}  (h : Keep s₀ s) : KeepO s₀ (execCallPeriod s) := by
  unfold execCallPeriod
  repeat' first
    | with_reducible assumption
    | with_reducible apply keep_castOver
    | with_reducible refine KeepO.next ?_
    | (simp only [Keep.mk_iff]; with_reducible refine Keep.fold ?_)
    | dsimp only
    | split

theorem keep_becomeMember {s₀ s : State} (size : Nat) (head : Nat) (mask : Nat) (ip : Nat)  (h : Keep s₀ s) : Keep s₀ (State.becomeMember s size
    head mask ip) := by
  unfold State.becomeMember
  repeat' first
    | with_reducible assumption
    | with_reducible apply keep_toSt
    | with_reducible apply keep_startSt
    | with_reducible apply keep_rput
    | with_reducible apply keep_rset
    | (simp only [Keep.mk_iff]; with_reducible refine Keep.fold ?_)

theorem keep_tryForm {s₀ s : State}  (h : Keep s₀ s) : Keep s₀ (State.tryForm s) := by
  unfold State.tryForm
  repeat' first
    | with_reducible assumption
    | with_reducible apply keep_startSt
    | with_reducible apply keep_castOver
    | with_reducible apply keep_becomeMember
    | dsimp only
    | split

theorem keep_takeJoin {s₀ s : State} (m : SyncMsg) (keyOk : Bool)  (h : Keep s₀ s) : Keep s₀ (State.takeJoin s m keyOk) := by
  unfold State.takeJoin
  repeat' first
    | with_reducible assumption
    | with_reducible apply keep_tryForm
    | with_reducible apply keep_raise
    | with_reducible apply keep_startSt
    | (simp only [Keep.mk_iff]; with_reducible refine Keep.fold ?_)
    | dsimp only
    | split

theorem keep_execJoin {s₀ s : State} (m : SyncMsg) (keyOk : Bool)  (h : Keep s₀ s) : KeepO s₀ (execJoin m keyOk s) := by
  unfold execJoin
  repeat' first
    | with_reducible assumption
    | with_reducible apply keep_takeJoin
    | with_reducible apply keep_syncIn
    | intro _

theorem keep_execFormTmo {s₀ s : State}  (h : Keep s₀ s) : KeepO s₀ (execFormTmo s) := by
  unfold execFormTmo
  repeat' first
    | with_reducible assumption
    | with_reducible apply keep_tryForm
    | with_reducible refine KeepO.next ?_
    | split

theorem keep_takeFormed {s₀ s : State} (m : SyncMsg)  (h : Keep s₀ s) : Keep s₀ (State.takeFormed s m) := by
  unfold State.takeFormed
  repeat' first
    | with_reducible assumption
    | with_reducible apply keep_drawFree
    | with_reducible apply keep_leaveOut
    | with_reducible apply keep_becomeMember
    | dsimp only
    | split

theorem keep_execFormed {s₀ s : State} (m : SyncMsg)  (h : Keep s₀ s) : KeepO s₀ (execFormed m s) := by
  unfold execFormed
  repeat' first
    | with_reducible assumption
    | with_reducible apply keep_takeFormed
    | with_reducible apply keep_syncIn
    | intro _

theorem keep_execMemberFormTmo {s₀ s : State}  (h : Keep s₀ s) : KeepO s₀ (execMemberFormTmo s) := by
  unfold execMemberFormTmo
  repeat' first
    | with_reducible assumption
    | with_reducible apply keep_startSt
    | with_reducible refine KeepO.next ?_
    | split

theorem keep_execDeep {s₀ s : State} (m : SyncMsg)  (h : Keep s₀ s) : KeepO s₀ (execDeep m s) := by
  unfold execDeep
  repeat' first
    | with_reducible assumption
    | with_reducible apply keep_deepNotice
    | with_reducible apply keep_syncIn

theorem keep_enterDeep {s₀ s : State} (h : Keep s₀ s) : Keep s₀ s.enterDeep := by
  have h1 : Keep s₀ (if !s.grp.formed then s else if s.isHead then s.broadcast 0x14 [] else s.broadcast 0x18 [BitVec.ofNat 32 s.devIndex, 0]) := by
    split
    · exact h
    · split <;> exact keep_broadcast _ _ h
  unfold State.enterDeep
  revert h1
  generalize (if !s.grp.formed then s else if s.isHead then s.broadcast 0x14 [] else s.broadcast 0x18 [BitVec.ofNat 32 s.devIndex, 0]) = s1
  intro h1
  have h2 := keep_disband h1
  dsimp only
  have h3 : Keep s₀ { s1.disband with links := LinkState.empty } := by simp only [Keep.mk_iff]; exact h2.fold
  have h5 := keep_rput (.pwr 0) 4 1 2 0 (keep_rput (.eth 0) 4 1 2 0 (Keep.foldl (List.range 8) (fun _ p h => keep_portTo p .disabled h) h3))
  refine keep_toSt _ ?_
  simp only [Keep.mk_iff]
  have hm := Keep.updMem _ Mem.wf_deepKeep h5
  exact ⟨h5.pending, h5.out, h5.freeCtr, hm.cells, hm.synd, hm.gran,
    fun c => swf_maskRegs _ (h5.regs c), fun c => swf_maskRegs _ (h5.force c), h5.fuses⟩

theorem keep_exitDeep {s₀ s : State}  (h : Keep s₀ s) : Keep s₀ (State.exitDeep s) := by
  unfold State.exitDeep
  repeat' first
    | with_reducible assumption
    | with_reducible apply keep_toSt
    | with_reducible apply keep_rput
    | with_reducible apply keep_enable
    | with_reducible refine Keep.foldl _ (fun _ _ _ => ?_) ?_
    | (simp only [Keep.mk_iff]; with_reducible refine Keep.fold ?_)
    | dsimp only
    | split

/-! ### Smbus -/

theorem keep_smbus {s₀ s : State} (f : State → State) (hf : ∀ s, Keep s₀ s → Keep s₀ (f s)) (h : Keep s₀ s) : KeepO s₀ (State.smbus s f) := by
  unfold State.smbus
  repeat' first
    | with_reducible assumption
    | with_reducible apply hf
    | with_reducible refine KeepO.next ?_
    | split

theorem keep_smbusRead {s₀ s : State} (n : Nat) (v : Nat)  (h : Keep s₀ s) : KeepO s₀ (State.smbusRead s n v) := by
  unfold State.smbusRead
  repeat' first
    | with_reducible assumption
    | with_reducible apply keep_emit
    | with_reducible apply keep_smbus
    | intro _

theorem keep_execStatus {s₀ s : State}  (h : Keep s₀ s) : KeepO s₀ (execStatus s) := by
  unfold execStatus
  repeat' first
    | with_reducible assumption
    | with_reducible apply keep_smbusRead

theorem keep_execDetail {s₀ s : State}  (h : Keep s₀ s) : KeepO s₀ (execDetail s) := by
  unfold execDetail
  repeat' first
    | with_reducible assumption
    | with_reducible apply keep_smbusRead

theorem keep_execState {s₀ s : State}  (h : Keep s₀ s) : KeepO s₀ (execState s) := by
  unfold execState
  repeat' first
    | with_reducible assumption
    | with_reducible apply keep_smbusRead

theorem keep_execIndex {s₀ s : State}  (h : Keep s₀ s) : KeepO s₀ (execIndex s) := by
  unfold execIndex
  repeat' first
    | with_reducible assumption
    | with_reducible apply keep_smbusRead

theorem keep_execTemp {s₀ s : State}  (h : Keep s₀ s) : KeepO s₀ (execTemp s) := by
  unfold execTemp
  repeat' first
    | with_reducible assumption
    | with_reducible apply keep_smbusRead

theorem keep_execPower {s₀ s : State}  (h : Keep s₀ s) : KeepO s₀ (execPower s) := by
  unfold execPower
  repeat' first
    | with_reducible assumption
    | with_reducible apply keep_smbusRead

theorem keep_execUid {s₀ s : State}  (h : Keep s₀ s) : KeepO s₀ (execUid s) := by
  unfold execUid
  repeat' first
    | with_reducible assumption
    | with_reducible apply keep_emit
    | with_reducible apply keep_smbus
    | intro _

theorem keep_execAlertResponse {s₀ s : State}  (h : Keep s₀ s) : KeepO s₀ (execAlertResponse s) := by
  unfold execAlertResponse
  repeat' first
    | with_reducible assumption
    | with_reducible apply keep_emit
    | with_reducible apply keep_smbus
    | intro _
    | (simp only [Keep.mk_iff]; with_reducible refine Keep.fold ?_)
    | dsimp only
    | split

theorem keep_smbusWrite {s₀ s : State} (data : Byte) (want : Byte) (pecOk : Bool) (f : State → State) (hf : ∀ s, Keep s₀ s → Keep s₀ (f s)) (h :
    Keep s₀ s) : KeepO s₀ (State.smbusWrite s data want pecOk f) := by
  unfold State.smbusWrite
  repeat' first
    | with_reducible assumption
    | with_reducible apply hf
    | with_reducible apply keep_emit
    | with_reducible apply keep_smbus
    | intro _
    | split

theorem keep_execDeepEnter {s₀ s : State} (data : Byte) (pecOk : Bool)  (h : Keep s₀ s) : KeepO s₀ (execDeepEnter data pecOk s) := by
  unfold execDeepEnter
  repeat' first
    | with_reducible assumption
    | with_reducible apply keep_enterDeep
    | with_reducible apply keep_smbusWrite
    | intro _
    | split

theorem keep_execDeepExit {s₀ s : State} (data : Byte) (pecOk : Bool)  (h : Keep s₀ s) : KeepO s₀ (execDeepExit data pecOk s) := by
  unfold execDeepExit
  repeat' first
    | with_reducible assumption
    | with_reducible apply keep_exitDeep
    | with_reducible apply keep_smbusWrite

theorem keep_execReset {s₀ s : State} (data : Byte) (pecOk : Bool) (pins : Pins) (flash : Flash)  (h : Keep s₀ s) : KeepO s₀ (execReset data pecOk
    pins flash s) := by
  unfold execReset
  repeat' first
    | with_reducible assumption
    | with_reducible apply keep_resetDevice
    | with_reducible apply keep_leaveReset
    | with_reducible apply keep_smbusWrite
    | intro _

/-! ### Tap -/

theorem keep_tapTo {s₀ s : State} (i : TapInstr) (d : PinDrive)  (h : Keep s₀ s) : Keep s₀ (State.tapTo s i d) := by
  unfold State.tapTo
  repeat' first
    | with_reducible assumption
    | (simp only [Keep.mk_iff]; with_reducible refine Keep.fold ?_)

theorem keep_captureFree {s₀ s : State} (n : Nat)  (h : Keep s₀ s) : Keep s₀ (State.captureFree s n) := by
  unfold State.captureFree
  repeat' first
    | with_reducible assumption
    | with_reducible apply keep_emit
    | with_reducible apply keep_drawFree

theorem keep_tapSays {s₀ s : State} (st : Nat)  (h : Keep s₀ s) : Keep s₀ (State.tapSays s st) := by
  unfold State.tapSays
  repeat' first
    | with_reducible assumption
    | (simp only [Keep.mk_iff]; with_reducible refine Keep.fold ?_)

theorem keep_execIdcode {s₀ s : State}  (h : Keep s₀ s) : KeepO s₀ (execIdcode s) := by
  unfold execIdcode
  repeat' first
    | with_reducible assumption
    | with_reducible apply keep_tapTo
    | with_reducible apply keep_emit
    | with_reducible refine KeepO.next ?_

theorem keep_execSamplePreload {s₀ s : State} (bits : List Bool)  (h : Keep s₀ s) : KeepO s₀ (execSamplePreload bits s) := by
  unfold execSamplePreload
  repeat' first
    | with_reducible assumption
    | with_reducible apply keep_tapTo
    | with_reducible apply keep_captureFree
    | with_reducible refine KeepO.next ?_
    | (simp only [Keep.mk_iff]; with_reducible refine Keep.fold ?_)

theorem keep_execExtest {s₀ s : State} (bits : List Bool)  (h : Keep s₀ s) : KeepO s₀ (execExtest bits s) := by
  unfold execExtest
  repeat' first
    | with_reducible assumption
    | with_reducible apply keep_tapTo
    | with_reducible apply keep_captureFree
    | with_reducible refine KeepO.next ?_
    | (simp only [Keep.mk_iff]; with_reducible refine Keep.fold ?_)
    | dsimp only
    | split

theorem keep_execClamp {s₀ s : State}  (h : Keep s₀ s) : KeepO s₀ (execClamp s) := by
  unfold execClamp
  repeat' first
    | with_reducible assumption
    | with_reducible apply keep_tapTo
    | with_reducible apply keep_emit
    | with_reducible refine KeepO.next ?_
    | split

theorem keep_execHighz {s₀ s : State}  (h : Keep s₀ s) : KeepO s₀ (execHighz s) := by
  unfold execHighz
  repeat' first
    | with_reducible assumption
    | with_reducible apply keep_tapTo
    | with_reducible apply keep_emit
    | with_reducible refine KeepO.next ?_
    | split

theorem keep_execRegAccess {s₀ s : State} (addr : Nat) (data : Word) (write : Bool)  (h : Keep s₀ s) : KeepO s₀ (execRegAccess addr data write s)
    := by
  unfold execRegAccess
  repeat' first
    | with_reducible assumption
    | with_reducible apply keep_regRead
    | with_reducible apply keep_regWrite
    | with_reducible apply keep_settled
    | with_reducible apply keep_tapSays
    | with_reducible apply keep_tapTo
    | with_reducible apply keep_emit
    | with_reducible apply keep_drawFree
    | with_reducible refine KeepO.next ?_
    | (simp only [Keep.mk_iff]; with_reducible refine Keep.fold ?_)
    | dsimp only
    | split

theorem keep_tapLevelTo {s₀ s : State} (level : Nat) (good : Bool)  (h : Keep s₀ s) : Keep s₀ (State.tapLevelTo s level good) := by
  unfold State.tapLevelTo
  repeat' first
    | with_reducible assumption
    | with_reducible apply keep_debugFailed
    | with_reducible apply keep_debugOpened
    | with_reducible apply keep_tapSays
    | (simp only [Keep.mk_iff]; with_reducible refine Keep.fold ?_)
    | dsimp only
    | split

theorem keep_execDbgPw {s₀ s : State} (len : Nat) (password : List Byte)  (h : Keep s₀ s) : KeepO s₀ (execDbgPw len password s) := by
  unfold execDbgPw
  repeat' first
    | with_reducible assumption
    | with_reducible apply keep_tapLevelTo
    | with_reducible apply keep_tapSays
    | with_reducible apply keep_tapTo
    | with_reducible refine KeepO.next ?_
    | dsimp only
    | split

theorem keep_execDbgChal {s₀ s : State}  (h : Keep s₀ s) : KeepO s₀ (execDbgChal s) := by
  unfold execDbgChal
  repeat' first
    | with_reducible assumption
    | with_reducible apply keep_emit
    | with_reducible apply keep_tapTo
    | with_reducible apply keep_challenge
    | with_reducible refine KeepO.next ?_

theorem keep_execDbgResp {s₀ s : State} (response : List Byte) (proofOk : Bool)  (h : Keep s₀ s) : KeepO s₀ (execDbgResp response proofOk s) := by
  unfold execDbgResp
  repeat' first
    | with_reducible assumption
    | with_reducible apply keep_tapLevelTo
    | with_reducible apply keep_modSvc
    | with_reducible apply keep_tapSays
    | with_reducible apply keep_tapTo
    | with_reducible refine KeepO.next ?_
    | dsimp only
    | split

theorem Fuses.grows_burn (f : Fuses) (slot ecdsa hss : Nat) (hs : ¬(slot = 0 ∨ 4 < slot))
    (hp : ¬((f.owners.toList[slot - 1]?).any (·.programmed)) = true) :
    f.Grows { f with owners := f.owners.mapIdx fun i o => if i + 1 = slot then { o with programmed := true, ecdsa := ecdsa, hss := hss } else o }
      := by
  refine ⟨rfl, rfl, ⟨rfl, rfl⟩, fun i => ?_, le_refl _, fun h => ⟨le_refl _, h⟩⟩
  simp only [Fin.getElem_fin, Vector.getElem_mapIdx]
  split
  · rename_i hi
    have hn : f.owners[i.1].programmed = false := by
      have e : slot - 1 = i.1 := by omega
      rw [e, Vector.getElem?_toList] at hp
      simpa using hp
    exact ⟨fun e => absurd (hn ▸ e) (by simp), fun e => e⟩
  · exact Owner.grows_refl _

theorem keep_execOtpOwner {s₀ s : State} (slot ecdsa hss : Nat) (h : Keep s₀ s) : KeepO s₀ (execOtpOwner slot ecdsa hss s) := by
  have h1 : Keep s₀ (s.tapTo .otpOwner .normal) := keep_tapTo _ _ h
  unfold execOtpOwner
  dsimp only
  split
  · exact keep_tapSays _ h1
  · split
    · exact keep_tapSays _ h1
    · rename_i hs hp
      refine KeepO.next ?_
      simp only [Keep.mk_iff]
      exact Keep.updFuses (Fuses.grows_burn s.sec.fuses slot _ _ hs (fun e => hp (Or.inr e))) (keep_tapSays _ h1)

theorem keep_execOtpPw {s₀ s : State} (digest : Nat) (h : Keep s₀ s) : KeepO s₀ (execOtpPw digest s) := by
  have h1 : Keep s₀ (s.tapTo .otpPw .normal) := keep_tapTo _ _ h
  unfold execOtpPw
  dsimp only
  split
  · exact keep_tapSays _ h1
  · refine KeepO.next ?_
    simp only [Keep.mk_iff]
    exact Keep.updFuses ⟨rfl, rfl, ⟨rfl, rfl⟩, fun _ => Owner.grows_refl _, le_refl _, fun h => ⟨le_refl _, h⟩⟩ (keep_tapSays _ h1)

theorem keep_execTapStatus {s₀ s : State}  (h : Keep s₀ s) : KeepO s₀ (execTapStatus s) := by
  unfold execTapStatus
  repeat' first
    | with_reducible assumption
    | with_reducible apply keep_tapTo
    | with_reducible apply keep_emit
    | with_reducible refine KeepO.next ?_

theorem keep_execBypass {s₀ s : State}  (h : Keep s₀ s) : KeepO s₀ (execBypass s) := by
  unfold execBypass
  repeat' first
    | with_reducible assumption
    | with_reducible apply keep_tapTo
    | with_reducible apply keep_emit
    | with_reducible refine KeepO.next ?_

/-! ### Clock -/

theorem keep_tickCores {s₀ s : State}  (h : Keep s₀ s) : Keep s₀ (State.tickCores s) := by
  unfold State.tickCores
  repeat' first
    | with_reducible assumption
    | with_reducible apply keep_count64
    | with_reducible refine Keep.foldl _ (fun _ _ _ => ?_) ?_
    | dsimp only
    | split

theorem keep_tickReasons {s₀ s : State}  (h : Keep s₀ s) : Keep s₀ (State.tickReasons s) := by
  unfold State.tickReasons
  repeat' first
    | with_reducible assumption
    | with_reducible apply keep_count64
    | with_reducible apply keep_noteReasons
    | with_reducible refine Keep.foldl _ (fun _ _ _ => ?_) ?_

end Sys2Proof.Machine
end

