-- ==== Sys2Proof/Laws/State.lean ====
section
/-! SUPPORT. What the small updates of the state leave: one lemma for each field and update, and what is read back of what was set. -/

namespace Sys2Proof.Machine

/-! ### `State.rset` -/

@[simp] theorem State.rset_pending (s : State) (p : Page) (off : Nat) (v : Word) : (s.rset p off v).pending = s.pending := rfl
@[simp] theorem State.rset_out (s : State) (p : Page) (off : Nat) (v : Word) : (s.rset p off v).out = s.out := rfl
@[simp] theorem State.rset_freeCtr (s : State) (p : Page) (off : Nat) (v : Word) : (s.rset p off v).freeCtr = s.freeCtr := rfl
@[simp] theorem State.rset_aonClk (s : State) (p : Page) (off : Nat) (v : Word) : (s.rset p off v).aonClk = s.aonClk := rfl
@[simp] theorem State.rset_devIndex (s : State) (p : Page) (off : Nat) (v : Word) : (s.rset p off v).devIndex = s.devIndex := rfl
@[simp] theorem State.rset_mem (s : State) (p : Page) (off : Nat) (v : Word) : (s.rset p off v).mem = s.mem := rfl
@[simp] theorem State.rset_force (s : State) (p : Page) (off : Nat) (v : Word) : (s.rset p off v).force = s.force := rfl
@[simp] theorem State.rset_latches (s : State) (p : Page) (off : Nat) (v : Word) : (s.rset p off v).latches = s.latches := rfl
@[simp] theorem State.rset_err (s : State) (p : Page) (off : Nat) (v : Word) : (s.rset p off v).err = s.err := rfl
@[simp] theorem State.rset_cores (s : State) (p : Page) (off : Nat) (v : Word) : (s.rset p off v).cores = s.cores := rfl
@[simp] theorem State.rset_gbars (s : State) (p : Page) (off : Nat) (v : Word) : (s.rset p off v).gbars = s.gbars := rfl
@[simp] theorem State.rset_dsps (s : State) (p : Page) (off : Nat) (v : Word) : (s.rset p off v).dsps = s.dsps := rfl
@[simp] theorem State.rset_ctxs (s : State) (p : Page) (off : Nat) (v : Word) : (s.rset p off v).ctxs = s.ctxs := rfl
@[simp] theorem State.rset_links (s : State) (p : Page) (off : Nat) (v : Word) : (s.rset p off v).links = s.links := rfl
@[simp] theorem State.rset_grp (s : State) (p : Page) (off : Nat) (v : Word) : (s.rset p off v).grp = s.grp := rfl
@[simp] theorem State.rset_svc (s : State) (p : Page) (off : Nat) (v : Word) : (s.rset p off v).svc = s.svc := rfl
@[simp] theorem State.rset_pwr (s : State) (p : Page) (off : Nat) (v : Word) : (s.rset p off v).pwr = s.pwr := rfl
@[simp] theorem State.rset_sec (s : State) (p : Page) (off : Nat) (v : Word) : (s.rset p off v).sec = s.sec := rfl
@[simp] theorem State.rset_brd (s : State) (p : Page) (off : Nat) (v : Word) : (s.rset p off v).brd = s.brd := rfl

/-! ### `State.rsetForce` -/

@[simp] theorem State.rsetForce_pending (s : State) (p : Page) (off : Nat) (v : Word) : (s.rsetForce p off v).pending = s.pending := rfl
@[simp] theorem State.rsetForce_out (s : State) (p : Page) (off : Nat) (v : Word) : (s.rsetForce p off v).out = s.out := rfl
@[simp] theorem State.rsetForce_freeCtr (s : State) (p : Page) (off : Nat) (v : Word) : (s.rsetForce p off v).freeCtr = s.freeCtr := rfl
@[simp] theorem State.rsetForce_aonClk (s : State) (p : Page) (off : Nat) (v : Word) : (s.rsetForce p off v).aonClk = s.aonClk := rfl
@[simp] theorem State.rsetForce_devIndex (s : State) (p : Page) (off : Nat) (v : Word) : (s.rsetForce p off v).devIndex = s.devIndex := rfl
@[simp] theorem State.rsetForce_mem (s : State) (p : Page) (off : Nat) (v : Word) : (s.rsetForce p off v).mem = s.mem := rfl
@[simp] theorem State.rsetForce_regs (s : State) (p : Page) (off : Nat) (v : Word) : (s.rsetForce p off v).regs = s.regs := rfl
@[simp] theorem State.rsetForce_latches (s : State) (p : Page) (off : Nat) (v : Word) : (s.rsetForce p off v).latches = s.latches := rfl
@[simp] theorem State.rsetForce_err (s : State) (p : Page) (off : Nat) (v : Word) : (s.rsetForce p off v).err = s.err := rfl
@[simp] theorem State.rsetForce_cores (s : State) (p : Page) (off : Nat) (v : Word) : (s.rsetForce p off v).cores = s.cores := rfl
@[simp] theorem State.rsetForce_gbars (s : State) (p : Page) (off : Nat) (v : Word) : (s.rsetForce p off v).gbars = s.gbars := rfl
@[simp] theorem State.rsetForce_dsps (s : State) (p : Page) (off : Nat) (v : Word) : (s.rsetForce p off v).dsps = s.dsps := rfl
@[simp] theorem State.rsetForce_ctxs (s : State) (p : Page) (off : Nat) (v : Word) : (s.rsetForce p off v).ctxs = s.ctxs := rfl
@[simp] theorem State.rsetForce_links (s : State) (p : Page) (off : Nat) (v : Word) : (s.rsetForce p off v).links = s.links := rfl
@[simp] theorem State.rsetForce_grp (s : State) (p : Page) (off : Nat) (v : Word) : (s.rsetForce p off v).grp = s.grp := rfl
@[simp] theorem State.rsetForce_svc (s : State) (p : Page) (off : Nat) (v : Word) : (s.rsetForce p off v).svc = s.svc := rfl
@[simp] theorem State.rsetForce_pwr (s : State) (p : Page) (off : Nat) (v : Word) : (s.rsetForce p off v).pwr = s.pwr := rfl
@[simp] theorem State.rsetForce_sec (s : State) (p : Page) (off : Nat) (v : Word) : (s.rsetForce p off v).sec = s.sec := rfl
@[simp] theorem State.rsetForce_brd (s : State) (p : Page) (off : Nat) (v : Word) : (s.rsetForce p off v).brd = s.brd := rfl

/-! ### `State.drawFree` -/

@[simp] theorem State.drawFree_pending (s : State) : (s.drawFree).pending = s.pending := rfl
@[simp] theorem State.drawFree_out (s : State) : (s.drawFree).out = s.out := rfl
@[simp] theorem State.drawFree_aonClk (s : State) : (s.drawFree).aonClk = s.aonClk := rfl
@[simp] theorem State.drawFree_devIndex (s : State) : (s.drawFree).devIndex = s.devIndex := rfl
@[simp] theorem State.drawFree_mem (s : State) : (s.drawFree).mem = s.mem := rfl
@[simp] theorem State.drawFree_regs (s : State) : (s.drawFree).regs = s.regs := rfl
@[simp] theorem State.drawFree_force (s : State) : (s.drawFree).force = s.force := rfl
@[simp] theorem State.drawFree_latches (s : State) : (s.drawFree).latches = s.latches := rfl
@[simp] theorem State.drawFree_err (s : State) : (s.drawFree).err = s.err := rfl
@[simp] theorem State.drawFree_cores (s : State) : (s.drawFree).cores = s.cores := rfl
@[simp] theorem State.drawFree_gbars (s : State) : (s.drawFree).gbars = s.gbars := rfl
@[simp] theorem State.drawFree_dsps (s : State) : (s.drawFree).dsps = s.dsps := rfl
@[simp] theorem State.drawFree_ctxs (s : State) : (s.drawFree).ctxs = s.ctxs := rfl
@[simp] theorem State.drawFree_links (s : State) : (s.drawFree).links = s.links := rfl
@[simp] theorem State.drawFree_grp (s : State) : (s.drawFree).grp = s.grp := rfl
@[simp] theorem State.drawFree_svc (s : State) : (s.drawFree).svc = s.svc := rfl
@[simp] theorem State.drawFree_pwr (s : State) : (s.drawFree).pwr = s.pwr := rfl
@[simp] theorem State.drawFree_sec (s : State) : (s.drawFree).sec = s.sec := rfl
@[simp] theorem State.drawFree_brd (s : State) : (s.drawFree).brd = s.brd := rfl

/-! ### `State.emit` -/

@[simp] theorem State.emit_pending (s : State) (o : Output) : (s.emit o).pending = s.pending := rfl
@[simp] theorem State.emit_freeCtr (s : State) (o : Output) : (s.emit o).freeCtr = s.freeCtr := rfl
@[simp] theorem State.emit_aonClk (s : State) (o : Output) : (s.emit o).aonClk = s.aonClk := rfl
@[simp] theorem State.emit_devIndex (s : State) (o : Output) : (s.emit o).devIndex = s.devIndex := rfl
@[simp] theorem State.emit_mem (s : State) (o : Output) : (s.emit o).mem = s.mem := rfl
@[simp] theorem State.emit_regs (s : State) (o : Output) : (s.emit o).regs = s.regs := rfl
@[simp] theorem State.emit_force (s : State) (o : Output) : (s.emit o).force = s.force := rfl
@[simp] theorem State.emit_latches (s : State) (o : Output) : (s.emit o).latches = s.latches := rfl
@[simp] theorem State.emit_err (s : State) (o : Output) : (s.emit o).err = s.err := rfl
@[simp] theorem State.emit_cores (s : State) (o : Output) : (s.emit o).cores = s.cores := rfl
@[simp] theorem State.emit_gbars (s : State) (o : Output) : (s.emit o).gbars = s.gbars := rfl
@[simp] theorem State.emit_dsps (s : State) (o : Output) : (s.emit o).dsps = s.dsps := rfl
@[simp] theorem State.emit_ctxs (s : State) (o : Output) : (s.emit o).ctxs = s.ctxs := rfl
@[simp] theorem State.emit_links (s : State) (o : Output) : (s.emit o).links = s.links := rfl
@[simp] theorem State.emit_grp (s : State) (o : Output) : (s.emit o).grp = s.grp := rfl
@[simp] theorem State.emit_svc (s : State) (o : Output) : (s.emit o).svc = s.svc := rfl
@[simp] theorem State.emit_pwr (s : State) (o : Output) : (s.emit o).pwr = s.pwr := rfl
@[simp] theorem State.emit_sec (s : State) (o : Output) : (s.emit o).sec = s.sec := rfl
@[simp] theorem State.emit_brd (s : State) (o : Output) : (s.emit o).brd = s.brd := rfl

/-! ### `State.emits` -/

@[simp] theorem State.emits_pending (s : State) (os : List Output) : (s.emits os).pending = s.pending := rfl
@[simp] theorem State.emits_freeCtr (s : State) (os : List Output) : (s.emits os).freeCtr = s.freeCtr := rfl
@[simp] theorem State.emits_aonClk (s : State) (os : List Output) : (s.emits os).aonClk = s.aonClk := rfl
@[simp] theorem State.emits_devIndex (s : State) (os : List Output) : (s.emits os).devIndex = s.devIndex := rfl
@[simp] theorem State.emits_mem (s : State) (os : List Output) : (s.emits os).mem = s.mem := rfl
@[simp] theorem State.emits_regs (s : State) (os : List Output) : (s.emits os).regs = s.regs := rfl
@[simp] theorem State.emits_force (s : State) (os : List Output) : (s.emits os).force = s.force := rfl
@[simp] theorem State.emits_latches (s : State) (os : List Output) : (s.emits os).latches = s.latches := rfl
@[simp] theorem State.emits_err (s : State) (os : List Output) : (s.emits os).err = s.err := rfl
@[simp] theorem State.emits_cores (s : State) (os : List Output) : (s.emits os).cores = s.cores := rfl
@[simp] theorem State.emits_gbars (s : State) (os : List Output) : (s.emits os).gbars = s.gbars := rfl
@[simp] theorem State.emits_dsps (s : State) (os : List Output) : (s.emits os).dsps = s.dsps := rfl
@[simp] theorem State.emits_ctxs (s : State) (os : List Output) : (s.emits os).ctxs = s.ctxs := rfl
@[simp] theorem State.emits_links (s : State) (os : List Output) : (s.emits os).links = s.links := rfl
@[simp] theorem State.emits_grp (s : State) (os : List Output) : (s.emits os).grp = s.grp := rfl
@[simp] theorem State.emits_svc (s : State) (os : List Output) : (s.emits os).svc = s.svc := rfl
@[simp] theorem State.emits_pwr (s : State) (os : List Output) : (s.emits os).pwr = s.pwr := rfl
@[simp] theorem State.emits_sec (s : State) (os : List Output) : (s.emits os).sec = s.sec := rfl
@[simp] theorem State.emits_brd (s : State) (os : List Output) : (s.emits os).brd = s.brd := rfl

/-! ### `State.modSvc` -/

@[simp] theorem State.modSvc_pending (s : State) (f : Service → Service) : (s.modSvc f).pending = s.pending := rfl
@[simp] theorem State.modSvc_out (s : State) (f : Service → Service) : (s.modSvc f).out = s.out := rfl
@[simp] theorem State.modSvc_freeCtr (s : State) (f : Service → Service) : (s.modSvc f).freeCtr = s.freeCtr := rfl
@[simp] theorem State.modSvc_aonClk (s : State) (f : Service → Service) : (s.modSvc f).aonClk = s.aonClk := rfl
@[simp] theorem State.modSvc_devIndex (s : State) (f : Service → Service) : (s.modSvc f).devIndex = s.devIndex := rfl
@[simp] theorem State.modSvc_mem (s : State) (f : Service → Service) : (s.modSvc f).mem = s.mem := rfl
@[simp] theorem State.modSvc_regs (s : State) (f : Service → Service) : (s.modSvc f).regs = s.regs := rfl
@[simp] theorem State.modSvc_force (s : State) (f : Service → Service) : (s.modSvc f).force = s.force := rfl
@[simp] theorem State.modSvc_latches (s : State) (f : Service → Service) : (s.modSvc f).latches = s.latches := rfl
@[simp] theorem State.modSvc_err (s : State) (f : Service → Service) : (s.modSvc f).err = s.err := rfl
@[simp] theorem State.modSvc_cores (s : State) (f : Service → Service) : (s.modSvc f).cores = s.cores := rfl
@[simp] theorem State.modSvc_gbars (s : State) (f : Service → Service) : (s.modSvc f).gbars = s.gbars := rfl
@[simp] theorem State.modSvc_dsps (s : State) (f : Service → Service) : (s.modSvc f).dsps = s.dsps := rfl
@[simp] theorem State.modSvc_ctxs (s : State) (f : Service → Service) : (s.modSvc f).ctxs = s.ctxs := rfl
@[simp] theorem State.modSvc_links (s : State) (f : Service → Service) : (s.modSvc f).links = s.links := rfl
@[simp] theorem State.modSvc_grp (s : State) (f : Service → Service) : (s.modSvc f).grp = s.grp := rfl
@[simp] theorem State.modSvc_pwr (s : State) (f : Service → Service) : (s.modSvc f).pwr = s.pwr := rfl
@[simp] theorem State.modSvc_sec (s : State) (f : Service → Service) : (s.modSvc f).sec = s.sec := rfl
@[simp] theorem State.modSvc_brd (s : State) (f : Service → Service) : (s.modSvc f).brd = s.brd := rfl

/-! ### `State.modSession` -/

@[simp] theorem State.modSession_pending (s : State) (id : Nat) (f : Session → Session) : (s.modSession id f).pending = s.pending := rfl
@[simp] theorem State.modSession_out (s : State) (id : Nat) (f : Session → Session) : (s.modSession id f).out = s.out := rfl
@[simp] theorem State.modSession_freeCtr (s : State) (id : Nat) (f : Session → Session) : (s.modSession id f).freeCtr = s.freeCtr := rfl
@[simp] theorem State.modSession_aonClk (s : State) (id : Nat) (f : Session → Session) : (s.modSession id f).aonClk = s.aonClk := rfl
@[simp] theorem State.modSession_devIndex (s : State) (id : Nat) (f : Session → Session) : (s.modSession id f).devIndex = s.devIndex := rfl
@[simp] theorem State.modSession_mem (s : State) (id : Nat) (f : Session → Session) : (s.modSession id f).mem = s.mem := rfl
@[simp] theorem State.modSession_regs (s : State) (id : Nat) (f : Session → Session) : (s.modSession id f).regs = s.regs := rfl
@[simp] theorem State.modSession_force (s : State) (id : Nat) (f : Session → Session) : (s.modSession id f).force = s.force := rfl
@[simp] theorem State.modSession_latches (s : State) (id : Nat) (f : Session → Session) : (s.modSession id f).latches = s.latches := rfl
@[simp] theorem State.modSession_err (s : State) (id : Nat) (f : Session → Session) : (s.modSession id f).err = s.err := rfl
@[simp] theorem State.modSession_cores (s : State) (id : Nat) (f : Session → Session) : (s.modSession id f).cores = s.cores := rfl
@[simp] theorem State.modSession_gbars (s : State) (id : Nat) (f : Session → Session) : (s.modSession id f).gbars = s.gbars := rfl
@[simp] theorem State.modSession_dsps (s : State) (id : Nat) (f : Session → Session) : (s.modSession id f).dsps = s.dsps := rfl
@[simp] theorem State.modSession_ctxs (s : State) (id : Nat) (f : Session → Session) : (s.modSession id f).ctxs = s.ctxs := rfl
@[simp] theorem State.modSession_links (s : State) (id : Nat) (f : Session → Session) : (s.modSession id f).links = s.links := rfl
@[simp] theorem State.modSession_grp (s : State) (id : Nat) (f : Session → Session) : (s.modSession id f).grp = s.grp := rfl
@[simp] theorem State.modSession_pwr (s : State) (id : Nat) (f : Session → Session) : (s.modSession id f).pwr = s.pwr := rfl
@[simp] theorem State.modSession_sec (s : State) (id : Nat) (f : Session → Session) : (s.modSession id f).sec = s.sec := rfl
@[simp] theorem State.modSession_brd (s : State) (id : Nat) (f : Session → Session) : (s.modSession id f).brd = s.brd := rfl

/-! ### `State.modCmd` -/

@[simp] theorem State.modCmd_pending (s : State) (n : Nat) (f : CmdRec → CmdRec) : (s.modCmd n f).pending = s.pending := rfl
@[simp] theorem State.modCmd_out (s : State) (n : Nat) (f : CmdRec → CmdRec) : (s.modCmd n f).out = s.out := rfl
@[simp] theorem State.modCmd_freeCtr (s : State) (n : Nat) (f : CmdRec → CmdRec) : (s.modCmd n f).freeCtr = s.freeCtr := rfl
@[simp] theorem State.modCmd_aonClk (s : State) (n : Nat) (f : CmdRec → CmdRec) : (s.modCmd n f).aonClk = s.aonClk := rfl
@[simp] theorem State.modCmd_devIndex (s : State) (n : Nat) (f : CmdRec → CmdRec) : (s.modCmd n f).devIndex = s.devIndex := rfl
@[simp] theorem State.modCmd_mem (s : State) (n : Nat) (f : CmdRec → CmdRec) : (s.modCmd n f).mem = s.mem := rfl
@[simp] theorem State.modCmd_regs (s : State) (n : Nat) (f : CmdRec → CmdRec) : (s.modCmd n f).regs = s.regs := rfl
@[simp] theorem State.modCmd_force (s : State) (n : Nat) (f : CmdRec → CmdRec) : (s.modCmd n f).force = s.force := rfl
@[simp] theorem State.modCmd_latches (s : State) (n : Nat) (f : CmdRec → CmdRec) : (s.modCmd n f).latches = s.latches := rfl
@[simp] theorem State.modCmd_err (s : State) (n : Nat) (f : CmdRec → CmdRec) : (s.modCmd n f).err = s.err := rfl
@[simp] theorem State.modCmd_cores (s : State) (n : Nat) (f : CmdRec → CmdRec) : (s.modCmd n f).cores = s.cores := rfl
@[simp] theorem State.modCmd_gbars (s : State) (n : Nat) (f : CmdRec → CmdRec) : (s.modCmd n f).gbars = s.gbars := rfl
@[simp] theorem State.modCmd_dsps (s : State) (n : Nat) (f : CmdRec → CmdRec) : (s.modCmd n f).dsps = s.dsps := rfl
@[simp] theorem State.modCmd_ctxs (s : State) (n : Nat) (f : CmdRec → CmdRec) : (s.modCmd n f).ctxs = s.ctxs := rfl
@[simp] theorem State.modCmd_links (s : State) (n : Nat) (f : CmdRec → CmdRec) : (s.modCmd n f).links = s.links := rfl
@[simp] theorem State.modCmd_grp (s : State) (n : Nat) (f : CmdRec → CmdRec) : (s.modCmd n f).grp = s.grp := rfl
@[simp] theorem State.modCmd_pwr (s : State) (n : Nat) (f : CmdRec → CmdRec) : (s.modCmd n f).pwr = s.pwr := rfl
@[simp] theorem State.modCmd_sec (s : State) (n : Nat) (f : CmdRec → CmdRec) : (s.modCmd n f).sec = s.sec := rfl
@[simp] theorem State.modCmd_brd (s : State) (n : Nat) (f : CmdRec → CmdRec) : (s.modCmd n f).brd = s.brd := rfl

/-! ### `State.modImage` -/

@[simp] theorem State.modImage_pending (s : State) (id : Nat) (f : Image → Image) : (s.modImage id f).pending = s.pending := rfl
@[simp] theorem State.modImage_out (s : State) (id : Nat) (f : Image → Image) : (s.modImage id f).out = s.out := rfl
@[simp] theorem State.modImage_freeCtr (s : State) (id : Nat) (f : Image → Image) : (s.modImage id f).freeCtr = s.freeCtr := rfl
@[simp] theorem State.modImage_aonClk (s : State) (id : Nat) (f : Image → Image) : (s.modImage id f).aonClk = s.aonClk := rfl
@[simp] theorem State.modImage_devIndex (s : State) (id : Nat) (f : Image → Image) : (s.modImage id f).devIndex = s.devIndex := rfl
@[simp] theorem State.modImage_mem (s : State) (id : Nat) (f : Image → Image) : (s.modImage id f).mem = s.mem := rfl
@[simp] theorem State.modImage_regs (s : State) (id : Nat) (f : Image → Image) : (s.modImage id f).regs = s.regs := rfl
@[simp] theorem State.modImage_force (s : State) (id : Nat) (f : Image → Image) : (s.modImage id f).force = s.force := rfl
@[simp] theorem State.modImage_latches (s : State) (id : Nat) (f : Image → Image) : (s.modImage id f).latches = s.latches := rfl
@[simp] theorem State.modImage_err (s : State) (id : Nat) (f : Image → Image) : (s.modImage id f).err = s.err := rfl
@[simp] theorem State.modImage_cores (s : State) (id : Nat) (f : Image → Image) : (s.modImage id f).cores = s.cores := rfl
@[simp] theorem State.modImage_gbars (s : State) (id : Nat) (f : Image → Image) : (s.modImage id f).gbars = s.gbars := rfl
@[simp] theorem State.modImage_dsps (s : State) (id : Nat) (f : Image → Image) : (s.modImage id f).dsps = s.dsps := rfl
@[simp] theorem State.modImage_ctxs (s : State) (id : Nat) (f : Image → Image) : (s.modImage id f).ctxs = s.ctxs := rfl
@[simp] theorem State.modImage_links (s : State) (id : Nat) (f : Image → Image) : (s.modImage id f).links = s.links := rfl
@[simp] theorem State.modImage_grp (s : State) (id : Nat) (f : Image → Image) : (s.modImage id f).grp = s.grp := rfl
@[simp] theorem State.modImage_pwr (s : State) (id : Nat) (f : Image → Image) : (s.modImage id f).pwr = s.pwr := rfl
@[simp] theorem State.modImage_sec (s : State) (id : Nat) (f : Image → Image) : (s.modImage id f).sec = s.sec := rfl
@[simp] theorem State.modImage_brd (s : State) (id : Nat) (f : Image → Image) : (s.modImage id f).brd = s.brd := rfl

/-! ### `State.setCore` -/

@[simp] theorem State.setCore_pending (s : State) (c : Nat) (x : CoreState) : (s.setCore c x).pending = s.pending := by unfold State.setCore; split <;> rfl
@[simp] theorem State.setCore_out (s : State) (c : Nat) (x : CoreState) : (s.setCore c x).out = s.out := by unfold State.setCore; split <;> rfl
@[simp] theorem State.setCore_freeCtr (s : State) (c : Nat) (x : CoreState) : (s.setCore c x).freeCtr = s.freeCtr := by unfold State.setCore; split <;> rfl
@[simp] theorem State.setCore_aonClk (s : State) (c : Nat) (x : CoreState) : (s.setCore c x).aonClk = s.aonClk := by unfold State.setCore; split <;> rfl
@[simp] theorem State.setCore_devIndex (s : State) (c : Nat) (x : CoreState) : (s.setCore c x).devIndex = s.devIndex := by unfold State.setCore; split <;> rfl
@[simp] theorem State.setCore_mem (s : State) (c : Nat) (x : CoreState) : (s.setCore c x).mem = s.mem := by unfold State.setCore; split <;> rfl
@[simp] theorem State.setCore_regs (s : State) (c : Nat) (x : CoreState) : (s.setCore c x).regs = s.regs := by unfold State.setCore; split <;> rfl
@[simp] theorem State.setCore_force (s : State) (c : Nat) (x : CoreState) : (s.setCore c x).force = s.force := by unfold State.setCore; split <;> rfl
@[simp] theorem State.setCore_latches (s : State) (c : Nat) (x : CoreState) : (s.setCore c x).latches = s.latches := by unfold State.setCore; split <;> rfl
@[simp] theorem State.setCore_err (s : State) (c : Nat) (x : CoreState) : (s.setCore c x).err = s.err := by unfold State.setCore; split <;> rfl
@[simp] theorem State.setCore_gbars (s : State) (c : Nat) (x : CoreState) : (s.setCore c x).gbars = s.gbars := by unfold State.setCore; split <;> rfl
@[simp] theorem State.setCore_dsps (s : State) (c : Nat) (x : CoreState) : (s.setCore c x).dsps = s.dsps := by unfold State.setCore; split <;> rfl
@[simp] theorem State.setCore_ctxs (s : State) (c : Nat) (x : CoreState) : (s.setCore c x).ctxs = s.ctxs := by unfold State.setCore; split <;> rfl
@[simp] theorem State.setCore_links (s : State) (c : Nat) (x : CoreState) : (s.setCore c x).links = s.links := by unfold State.setCore; split <;> rfl
@[simp] theorem State.setCore_grp (s : State) (c : Nat) (x : CoreState) : (s.setCore c x).grp = s.grp := by unfold State.setCore; split <;> rfl
@[simp] theorem State.setCore_svc (s : State) (c : Nat) (x : CoreState) : (s.setCore c x).svc = s.svc := by unfold State.setCore; split <;> rfl
@[simp] theorem State.setCore_pwr (s : State) (c : Nat) (x : CoreState) : (s.setCore c x).pwr = s.pwr := by unfold State.setCore; split <;> rfl
@[simp] theorem State.setCore_sec (s : State) (c : Nat) (x : CoreState) : (s.setCore c x).sec = s.sec := by unfold State.setCore; split <;> rfl
@[simp] theorem State.setCore_brd (s : State) (c : Nat) (x : CoreState) : (s.setCore c x).brd = s.brd := by unfold State.setCore; split <;> rfl

/-! ### `State.setGbar` -/

@[simp] theorem State.setGbar_pending (s : State) (n : Nat) (x : GroupBar) : (s.setGbar n x).pending = s.pending := by unfold State.setGbar; split <;> rfl
@[simp] theorem State.setGbar_out (s : State) (n : Nat) (x : GroupBar) : (s.setGbar n x).out = s.out := by unfold State.setGbar; split <;> rfl
@[simp] theorem State.setGbar_freeCtr (s : State) (n : Nat) (x : GroupBar) : (s.setGbar n x).freeCtr = s.freeCtr := by unfold State.setGbar; split <;> rfl
@[simp] theorem State.setGbar_aonClk (s : State) (n : Nat) (x : GroupBar) : (s.setGbar n x).aonClk = s.aonClk := by unfold State.setGbar; split <;> rfl
@[simp] theorem State.setGbar_devIndex (s : State) (n : Nat) (x : GroupBar) : (s.setGbar n x).devIndex = s.devIndex := by unfold State.setGbar; split <;> rfl
@[simp] theorem State.setGbar_mem (s : State) (n : Nat) (x : GroupBar) : (s.setGbar n x).mem = s.mem := by unfold State.setGbar; split <;> rfl
@[simp] theorem State.setGbar_regs (s : State) (n : Nat) (x : GroupBar) : (s.setGbar n x).regs = s.regs := by unfold State.setGbar; split <;> rfl
@[simp] theorem State.setGbar_force (s : State) (n : Nat) (x : GroupBar) : (s.setGbar n x).force = s.force := by unfold State.setGbar; split <;> rfl
@[simp] theorem State.setGbar_latches (s : State) (n : Nat) (x : GroupBar) : (s.setGbar n x).latches = s.latches := by unfold State.setGbar; split <;> rfl
@[simp] theorem State.setGbar_err (s : State) (n : Nat) (x : GroupBar) : (s.setGbar n x).err = s.err := by unfold State.setGbar; split <;> rfl
@[simp] theorem State.setGbar_cores (s : State) (n : Nat) (x : GroupBar) : (s.setGbar n x).cores = s.cores := by unfold State.setGbar; split <;> rfl
@[simp] theorem State.setGbar_dsps (s : State) (n : Nat) (x : GroupBar) : (s.setGbar n x).dsps = s.dsps := by unfold State.setGbar; split <;> rfl
@[simp] theorem State.setGbar_ctxs (s : State) (n : Nat) (x : GroupBar) : (s.setGbar n x).ctxs = s.ctxs := by unfold State.setGbar; split <;> rfl
@[simp] theorem State.setGbar_links (s : State) (n : Nat) (x : GroupBar) : (s.setGbar n x).links = s.links := by unfold State.setGbar; split <;> rfl
@[simp] theorem State.setGbar_grp (s : State) (n : Nat) (x : GroupBar) : (s.setGbar n x).grp = s.grp := by unfold State.setGbar; split <;> rfl
@[simp] theorem State.setGbar_svc (s : State) (n : Nat) (x : GroupBar) : (s.setGbar n x).svc = s.svc := by unfold State.setGbar; split <;> rfl
@[simp] theorem State.setGbar_pwr (s : State) (n : Nat) (x : GroupBar) : (s.setGbar n x).pwr = s.pwr := by unfold State.setGbar; split <;> rfl
@[simp] theorem State.setGbar_sec (s : State) (n : Nat) (x : GroupBar) : (s.setGbar n x).sec = s.sec := by unfold State.setGbar; split <;> rfl
@[simp] theorem State.setGbar_brd (s : State) (n : Nat) (x : GroupBar) : (s.setGbar n x).brd = s.brd := by unfold State.setGbar; split <;> rfl

/-! ### `State.setDsp` -/

@[simp] theorem State.setDsp_pending (s : State) (n : Nat) (x : Dispense) : (s.setDsp n x).pending = s.pending := by unfold State.setDsp; split <;> rfl
@[simp] theorem State.setDsp_out (s : State) (n : Nat) (x : Dispense) : (s.setDsp n x).out = s.out := by unfold State.setDsp; split <;> rfl
@[simp] theorem State.setDsp_freeCtr (s : State) (n : Nat) (x : Dispense) : (s.setDsp n x).freeCtr = s.freeCtr := by unfold State.setDsp; split <;> rfl
@[simp] theorem State.setDsp_aonClk (s : State) (n : Nat) (x : Dispense) : (s.setDsp n x).aonClk = s.aonClk := by unfold State.setDsp; split <;> rfl
@[simp] theorem State.setDsp_devIndex (s : State) (n : Nat) (x : Dispense) : (s.setDsp n x).devIndex = s.devIndex := by unfold State.setDsp; split <;> rfl
@[simp] theorem State.setDsp_mem (s : State) (n : Nat) (x : Dispense) : (s.setDsp n x).mem = s.mem := by unfold State.setDsp; split <;> rfl
@[simp] theorem State.setDsp_regs (s : State) (n : Nat) (x : Dispense) : (s.setDsp n x).regs = s.regs := by unfold State.setDsp; split <;> rfl
@[simp] theorem State.setDsp_force (s : State) (n : Nat) (x : Dispense) : (s.setDsp n x).force = s.force := by unfold State.setDsp; split <;> rfl
@[simp] theorem State.setDsp_latches (s : State) (n : Nat) (x : Dispense) : (s.setDsp n x).latches = s.latches := by unfold State.setDsp; split <;> rfl
@[simp] theorem State.setDsp_err (s : State) (n : Nat) (x : Dispense) : (s.setDsp n x).err = s.err := by unfold State.setDsp; split <;> rfl
@[simp] theorem State.setDsp_cores (s : State) (n : Nat) (x : Dispense) : (s.setDsp n x).cores = s.cores := by unfold State.setDsp; split <;> rfl
@[simp] theorem State.setDsp_gbars (s : State) (n : Nat) (x : Dispense) : (s.setDsp n x).gbars = s.gbars := by unfold State.setDsp; split <;> rfl
@[simp] theorem State.setDsp_ctxs (s : State) (n : Nat) (x : Dispense) : (s.setDsp n x).ctxs = s.ctxs := by unfold State.setDsp; split <;> rfl
@[simp] theorem State.setDsp_links (s : State) (n : Nat) (x : Dispense) : (s.setDsp n x).links = s.links := by unfold State.setDsp; split <;> rfl
@[simp] theorem State.setDsp_grp (s : State) (n : Nat) (x : Dispense) : (s.setDsp n x).grp = s.grp := by unfold State.setDsp; split <;> rfl
@[simp] theorem State.setDsp_svc (s : State) (n : Nat) (x : Dispense) : (s.setDsp n x).svc = s.svc := by unfold State.setDsp; split <;> rfl
@[simp] theorem State.setDsp_pwr (s : State) (n : Nat) (x : Dispense) : (s.setDsp n x).pwr = s.pwr := by unfold State.setDsp; split <;> rfl
@[simp] theorem State.setDsp_sec (s : State) (n : Nat) (x : Dispense) : (s.setDsp n x).sec = s.sec := by unfold State.setDsp; split <;> rfl
@[simp] theorem State.setDsp_brd (s : State) (n : Nat) (x : Dispense) : (s.setDsp n x).brd = s.brd := by unfold State.setDsp; split <;> rfl

/-! ### `State.setCtx` -/

@[simp] theorem State.setCtx_pending (s : State) (k : Nat) (x : Option Ctx) : (s.setCtx k x).pending = s.pending := by unfold State.setCtx; split <;> rfl
@[simp] theorem State.setCtx_out (s : State) (k : Nat) (x : Option Ctx) : (s.setCtx k x).out = s.out := by unfold State.setCtx; split <;> rfl
@[simp] theorem State.setCtx_freeCtr (s : State) (k : Nat) (x : Option Ctx) : (s.setCtx k x).freeCtr = s.freeCtr := by unfold State.setCtx; split <;> rfl
@[simp] theorem State.setCtx_aonClk (s : State) (k : Nat) (x : Option Ctx) : (s.setCtx k x).aonClk = s.aonClk := by unfold State.setCtx; split <;> rfl
@[simp] theorem State.setCtx_devIndex (s : State) (k : Nat) (x : Option Ctx) : (s.setCtx k x).devIndex = s.devIndex := by unfold State.setCtx; split <;> rfl
@[simp] theorem State.setCtx_mem (s : State) (k : Nat) (x : Option Ctx) : (s.setCtx k x).mem = s.mem := by unfold State.setCtx; split <;> rfl
@[simp] theorem State.setCtx_regs (s : State) (k : Nat) (x : Option Ctx) : (s.setCtx k x).regs = s.regs := by unfold State.setCtx; split <;> rfl
@[simp] theorem State.setCtx_force (s : State) (k : Nat) (x : Option Ctx) : (s.setCtx k x).force = s.force := by unfold State.setCtx; split <;> rfl
@[simp] theorem State.setCtx_latches (s : State) (k : Nat) (x : Option Ctx) : (s.setCtx k x).latches = s.latches := by unfold State.setCtx; split <;> rfl
@[simp] theorem State.setCtx_err (s : State) (k : Nat) (x : Option Ctx) : (s.setCtx k x).err = s.err := by unfold State.setCtx; split <;> rfl
@[simp] theorem State.setCtx_cores (s : State) (k : Nat) (x : Option Ctx) : (s.setCtx k x).cores = s.cores := by unfold State.setCtx; split <;> rfl
@[simp] theorem State.setCtx_gbars (s : State) (k : Nat) (x : Option Ctx) : (s.setCtx k x).gbars = s.gbars := by unfold State.setCtx; split <;> rfl
@[simp] theorem State.setCtx_dsps (s : State) (k : Nat) (x : Option Ctx) : (s.setCtx k x).dsps = s.dsps := by unfold State.setCtx; split <;> rfl
@[simp] theorem State.setCtx_links (s : State) (k : Nat) (x : Option Ctx) : (s.setCtx k x).links = s.links := by unfold State.setCtx; split <;> rfl
@[simp] theorem State.setCtx_grp (s : State) (k : Nat) (x : Option Ctx) : (s.setCtx k x).grp = s.grp := by unfold State.setCtx; split <;> rfl
@[simp] theorem State.setCtx_svc (s : State) (k : Nat) (x : Option Ctx) : (s.setCtx k x).svc = s.svc := by unfold State.setCtx; split <;> rfl
@[simp] theorem State.setCtx_pwr (s : State) (k : Nat) (x : Option Ctx) : (s.setCtx k x).pwr = s.pwr := by unfold State.setCtx; split <;> rfl
@[simp] theorem State.setCtx_sec (s : State) (k : Nat) (x : Option Ctx) : (s.setCtx k x).sec = s.sec := by unfold State.setCtx; split <;> rfl
@[simp] theorem State.setCtx_brd (s : State) (k : Nat) (x : Option Ctx) : (s.setCtx k x).brd = s.brd := by unfold State.setCtx; split <;> rfl

/-! ### `State.setErrQueue` -/

@[simp] theorem State.setErrQueue_pending (s : State) (i : Nat) (q : ErrQueue) : (s.setErrQueue i q).pending = s.pending := by unfold State.setErrQueue; split <;> rfl
@[simp] theorem State.setErrQueue_out (s : State) (i : Nat) (q : ErrQueue) : (s.setErrQueue i q).out = s.out := by unfold State.setErrQueue; split <;> rfl
@[simp] theorem State.setErrQueue_freeCtr (s : State) (i : Nat) (q : ErrQueue) : (s.setErrQueue i q).freeCtr = s.freeCtr := by unfold State.setErrQueue; split <;> rfl
@[simp] theorem State.setErrQueue_aonClk (s : State) (i : Nat) (q : ErrQueue) : (s.setErrQueue i q).aonClk = s.aonClk := by unfold State.setErrQueue; split <;> rfl
@[simp] theorem State.setErrQueue_devIndex (s : State) (i : Nat) (q : ErrQueue) : (s.setErrQueue i q).devIndex = s.devIndex := by unfold State.setErrQueue; split <;> rfl
@[simp] theorem State.setErrQueue_mem (s : State) (i : Nat) (q : ErrQueue) : (s.setErrQueue i q).mem = s.mem := by unfold State.setErrQueue; split <;> rfl
@[simp] theorem State.setErrQueue_regs (s : State) (i : Nat) (q : ErrQueue) : (s.setErrQueue i q).regs = s.regs := by unfold State.setErrQueue; split <;> rfl
@[simp] theorem State.setErrQueue_force (s : State) (i : Nat) (q : ErrQueue) : (s.setErrQueue i q).force = s.force := by unfold State.setErrQueue; split <;> rfl
@[simp] theorem State.setErrQueue_latches (s : State) (i : Nat) (q : ErrQueue) : (s.setErrQueue i q).latches = s.latches := by unfold State.setErrQueue; split <;> rfl
@[simp] theorem State.setErrQueue_cores (s : State) (i : Nat) (q : ErrQueue) : (s.setErrQueue i q).cores = s.cores := by unfold State.setErrQueue; split <;> rfl
@[simp] theorem State.setErrQueue_gbars (s : State) (i : Nat) (q : ErrQueue) : (s.setErrQueue i q).gbars = s.gbars := by unfold State.setErrQueue; split <;> rfl
@[simp] theorem State.setErrQueue_dsps (s : State) (i : Nat) (q : ErrQueue) : (s.setErrQueue i q).dsps = s.dsps := by unfold State.setErrQueue; split <;> rfl
@[simp] theorem State.setErrQueue_ctxs (s : State) (i : Nat) (q : ErrQueue) : (s.setErrQueue i q).ctxs = s.ctxs := by unfold State.setErrQueue; split <;> rfl
@[simp] theorem State.setErrQueue_links (s : State) (i : Nat) (q : ErrQueue) : (s.setErrQueue i q).links = s.links := by unfold State.setErrQueue; split <;> rfl
@[simp] theorem State.setErrQueue_grp (s : State) (i : Nat) (q : ErrQueue) : (s.setErrQueue i q).grp = s.grp := by unfold State.setErrQueue; split <;> rfl
@[simp] theorem State.setErrQueue_svc (s : State) (i : Nat) (q : ErrQueue) : (s.setErrQueue i q).svc = s.svc := by unfold State.setErrQueue; split <;> rfl
@[simp] theorem State.setErrQueue_pwr (s : State) (i : Nat) (q : ErrQueue) : (s.setErrQueue i q).pwr = s.pwr := by unfold State.setErrQueue; split <;> rfl
@[simp] theorem State.setErrQueue_sec (s : State) (i : Nat) (q : ErrQueue) : (s.setErrQueue i q).sec = s.sec := by unfold State.setErrQueue; split <;> rfl
@[simp] theorem State.setErrQueue_brd (s : State) (i : Nat) (q : ErrQueue) : (s.setErrQueue i q).brd = s.brd := by unfold State.setErrQueue; split <;> rfl

/-! ### `State.setPort` -/

@[simp] theorem State.setPort_pending (s : State) (p : Nat) (x : Port) : (s.setPort p x).pending = s.pending := by unfold State.setPort; split <;> rfl
@[simp] theorem State.setPort_out (s : State) (p : Nat) (x : Port) : (s.setPort p x).out = s.out := by unfold State.setPort; split <;> rfl
@[simp] theorem State.setPort_freeCtr (s : State) (p : Nat) (x : Port) : (s.setPort p x).freeCtr = s.freeCtr := by unfold State.setPort; split <;> rfl
@[simp] theorem State.setPort_aonClk (s : State) (p : Nat) (x : Port) : (s.setPort p x).aonClk = s.aonClk := by unfold State.setPort; split <;> rfl
@[simp] theorem State.setPort_devIndex (s : State) (p : Nat) (x : Port) : (s.setPort p x).devIndex = s.devIndex := by unfold State.setPort; split <;> rfl
@[simp] theorem State.setPort_mem (s : State) (p : Nat) (x : Port) : (s.setPort p x).mem = s.mem := by unfold State.setPort; split <;> rfl
@[simp] theorem State.setPort_regs (s : State) (p : Nat) (x : Port) : (s.setPort p x).regs = s.regs := by unfold State.setPort; split <;> rfl
@[simp] theorem State.setPort_force (s : State) (p : Nat) (x : Port) : (s.setPort p x).force = s.force := by unfold State.setPort; split <;> rfl
@[simp] theorem State.setPort_latches (s : State) (p : Nat) (x : Port) : (s.setPort p x).latches = s.latches := by unfold State.setPort; split <;> rfl
@[simp] theorem State.setPort_err (s : State) (p : Nat) (x : Port) : (s.setPort p x).err = s.err := by unfold State.setPort; split <;> rfl
@[simp] theorem State.setPort_cores (s : State) (p : Nat) (x : Port) : (s.setPort p x).cores = s.cores := by unfold State.setPort; split <;> rfl
@[simp] theorem State.setPort_gbars (s : State) (p : Nat) (x : Port) : (s.setPort p x).gbars = s.gbars := by unfold State.setPort; split <;> rfl
@[simp] theorem State.setPort_dsps (s : State) (p : Nat) (x : Port) : (s.setPort p x).dsps = s.dsps := by unfold State.setPort; split <;> rfl
@[simp] theorem State.setPort_ctxs (s : State) (p : Nat) (x : Port) : (s.setPort p x).ctxs = s.ctxs := by unfold State.setPort; split <;> rfl
@[simp] theorem State.setPort_grp (s : State) (p : Nat) (x : Port) : (s.setPort p x).grp = s.grp := by unfold State.setPort; split <;> rfl
@[simp] theorem State.setPort_svc (s : State) (p : Nat) (x : Port) : (s.setPort p x).svc = s.svc := by unfold State.setPort; split <;> rfl
@[simp] theorem State.setPort_pwr (s : State) (p : Nat) (x : Port) : (s.setPort p x).pwr = s.pwr := by unfold State.setPort; split <;> rfl
@[simp] theorem State.setPort_sec (s : State) (p : Nat) (x : Port) : (s.setPort p x).sec = s.sec := by unfold State.setPort; split <;> rfl
@[simp] theorem State.setPort_brd (s : State) (p : Nat) (x : Port) : (s.setPort p x).brd = s.brd := by unfold State.setPort; split <;> rfl

/-! ### `State.setEthDim` -/

@[simp] theorem State.setEthDim_pending (s : State) (i : Nat) (x : EthDim) : (s.setEthDim i x).pending = s.pending := by unfold State.setEthDim; split <;> rfl
@[simp] theorem State.setEthDim_out (s : State) (i : Nat) (x : EthDim) : (s.setEthDim i x).out = s.out := by unfold State.setEthDim; split <;> rfl
@[simp] theorem State.setEthDim_freeCtr (s : State) (i : Nat) (x : EthDim) : (s.setEthDim i x).freeCtr = s.freeCtr := by unfold State.setEthDim; split <;> rfl
@[simp] theorem State.setEthDim_aonClk (s : State) (i : Nat) (x : EthDim) : (s.setEthDim i x).aonClk = s.aonClk := by unfold State.setEthDim; split <;> rfl
@[simp] theorem State.setEthDim_devIndex (s : State) (i : Nat) (x : EthDim) : (s.setEthDim i x).devIndex = s.devIndex := by unfold State.setEthDim; split <;> rfl
@[simp] theorem State.setEthDim_mem (s : State) (i : Nat) (x : EthDim) : (s.setEthDim i x).mem = s.mem := by unfold State.setEthDim; split <;> rfl
@[simp] theorem State.setEthDim_regs (s : State) (i : Nat) (x : EthDim) : (s.setEthDim i x).regs = s.regs := by unfold State.setEthDim; split <;> rfl
@[simp] theorem State.setEthDim_force (s : State) (i : Nat) (x : EthDim) : (s.setEthDim i x).force = s.force := by unfold State.setEthDim; split <;> rfl
@[simp] theorem State.setEthDim_latches (s : State) (i : Nat) (x : EthDim) : (s.setEthDim i x).latches = s.latches := by unfold State.setEthDim; split <;> rfl
@[simp] theorem State.setEthDim_err (s : State) (i : Nat) (x : EthDim) : (s.setEthDim i x).err = s.err := by unfold State.setEthDim; split <;> rfl
@[simp] theorem State.setEthDim_cores (s : State) (i : Nat) (x : EthDim) : (s.setEthDim i x).cores = s.cores := by unfold State.setEthDim; split <;> rfl
@[simp] theorem State.setEthDim_gbars (s : State) (i : Nat) (x : EthDim) : (s.setEthDim i x).gbars = s.gbars := by unfold State.setEthDim; split <;> rfl
@[simp] theorem State.setEthDim_dsps (s : State) (i : Nat) (x : EthDim) : (s.setEthDim i x).dsps = s.dsps := by unfold State.setEthDim; split <;> rfl
@[simp] theorem State.setEthDim_ctxs (s : State) (i : Nat) (x : EthDim) : (s.setEthDim i x).ctxs = s.ctxs := by unfold State.setEthDim; split <;> rfl
@[simp] theorem State.setEthDim_grp (s : State) (i : Nat) (x : EthDim) : (s.setEthDim i x).grp = s.grp := by unfold State.setEthDim; split <;> rfl
@[simp] theorem State.setEthDim_svc (s : State) (i : Nat) (x : EthDim) : (s.setEthDim i x).svc = s.svc := by unfold State.setEthDim; split <;> rfl
@[simp] theorem State.setEthDim_pwr (s : State) (i : Nat) (x : EthDim) : (s.setEthDim i x).pwr = s.pwr := by unfold State.setEthDim; split <;> rfl
@[simp] theorem State.setEthDim_sec (s : State) (i : Nat) (x : EthDim) : (s.setEthDim i x).sec = s.sec := by unfold State.setEthDim; split <;> rfl
@[simp] theorem State.setEthDim_brd (s : State) (i : Nat) (x : EthDim) : (s.setEthDim i x).brd = s.brd := by unfold State.setEthDim; split <;> rfl

@[simp] theorem State.drawFree_freeCtr (s : State) : s.drawFree.freeCtr = s.freeCtr + 1 := rfl
@[simp] theorem State.emit_out (s : State) (o : Output) : (s.emit o).out = s.out ++ [o] := rfl
@[simp] theorem State.emits_out (s : State) (os : List Output) : (s.emits os).out = s.out ++ os := rfl
@[simp] theorem State.modSvc_svc (s : State) (f : Service → Service) : (s.modSvc f).svc = f s.svc := rfl

/-! ### What was set is read back -/

theorem State.core_setCore (s : State) (c j : Nat) (x : CoreState) (h : c < 48) (hj : j < 48) :
    (s.setCore c x).core j = if j = c then x else s.core j := by
  have e : min j 47 = j := by omega
  unfold State.setCore State.core
  rw [dif_pos h]
  simp only [e, Vector.getElem_set, eq_comm]

theorem State.gbar_setGbar (s : State) (n j : Nat) (x : GroupBar) (h : n < 64) (hj : j < 64) :
    (s.setGbar n x).gbar j = if j = n then x else s.gbar j := by
  have e : min j 63 = j := by omega
  unfold State.setGbar State.gbar
  rw [dif_pos h]
  simp only [e, Vector.getElem_set, eq_comm]

theorem State.dsp_setDsp (s : State) (n j : Nat) (x : Dispense) (h : n < 64) (hj : j < 64) :
    (s.setDsp n x).dsp j = if j = n then x else s.dsp j := by
  have e : min j 63 = j := by omega
  unfold State.setDsp State.dsp
  rw [dif_pos h]
  simp only [e, Vector.getElem_set, eq_comm]

theorem State.ctx_setCtx (s : State) (k j : Nat) (x : Option Ctx) (h : k < 4) (hj : j < 4) :
    (s.setCtx k x).ctx j = if j = k then x else s.ctx j := by
  have e : min j 3 = j := by omega
  unfold State.setCtx State.ctx
  rw [dif_pos h]
  simp only [e, Vector.getElem_set, eq_comm]

theorem State.errQueue_setErrQueue (s : State) (i j : Nat) (x : ErrQueue) (h : i < 71) (hj : j < 71) :
    (s.setErrQueue i x).errQueue j = if j = i then x else s.errQueue j := by
  have e : min j 70 = j := by omega
  unfold State.setErrQueue State.errQueue
  rw [dif_pos h]
  simp only [e, Vector.getElem_set, eq_comm]

theorem State.port_setPort (s : State) (p j : Nat) (x : Port) (h : p < 8) (hj : j < 8) :
    (s.setPort p x).port j = if j = p then x else s.port j := by
  have e : min j 7 = j := by omega
  unfold State.setPort State.port
  rw [dif_pos h]
  simp only [e, Vector.getElem_set, eq_comm]

theorem State.ethDim_setEthDim (s : State) (i j : Nat) (x : EthDim) (h : i < 2) (hj : j < 2) :
    (s.setEthDim i x).ethDim j = if j = i then x else s.ethDim j := by
  have e : min j 1 = j := by omega
  unfold State.setEthDim State.ethDim
  rw [dif_pos h]
  simp only [e, Vector.getElem_set, eq_comm]

/-- A register reads back what was stored, whatever the other registers hold. -/
theorem State.rget_rset (s : State) (p : Page) (off : Nat) (v : Word) (h : swf 0#32 s.regs = true) : (s.rset p off v).rget p off = v := by
  unfold State.rget State.rset
  dsimp only
  rw [sget_sset _ _ h, if_pos rfl, BitVec.xor_assoc, BitVec.xor_self, BitVec.xor_zero]

/-- Another register keeps its value. -/
theorem State.rget_rset_ne (s : State) (p q : Page) (off o : Nat) (v : Word) (h : swf 0#32 s.regs = true) (n : q.base + o ≠ p.base + off) :
    (s.rset p off v).rget q o = s.rget q o := by
  unfold State.rget State.rset
  dsimp only
  rw [sget_sset _ _ h, if_neg n]

end Sys2Proof.Machine
end

