-- ==== Sys2Proof/Tests/Slice0.lean ====
section
/-! SUPPORT. Tests: well-formedness refuses operands that do not fit; for each statement with hypotheses a witness that meets them, at the edges
of its clauses; and single steps on small states. `x.any p` says that `x` is some value of which `p` holds. -/

namespace Sys2Proof.Tests

open Sys2Proof Sys2Proof.Machine

set_option maxRecDepth 20000
set_option Elab.async false

/-! ### Small states -/

theorem exists_of_any {α : Type} {P : α → Prop} [DecidablePred P] {x : Option α} (h : (x.any fun a => decide (P a)) = true) :
    ∃ a, x = some a ∧ P a := by
  cases x with
  | none => simp at h
  | some a => exact ⟨a, rfl, by simpa using h⟩

/-- A program on shape 0 without loops whose operations are all of thread 0. -/
def prog (b : List OpBody) : Prog :=
  { bytes := 0, nThreads := 16, shape := 0, flags := 0, maxRows := 64, maxLen := 64, groupRows := 64, maxSegs := 1, fold := 1, barriers := 32, tags := 8
    tensors := [⟨1, 0x10, 0, 0, 0x1000, 0, 0, 64, 64, 64, 64⟩], loops := [], ops := b.map fun x => ⟨0, 0, x⟩ }

/-- A run of it over one row, with one live tile. -/
def run (b : List OpBody) : ProgRun :=
  { index := 0, prog := prog b, binds := [], segs := [⟨1, 0, 1⟩], counts := [], live := [.zero], gathers := [], scatters := [], again := []
    committed := [], stopDispense := false, chains := [], blBase := 0, groupDims := [], arrived := [0], inBlock := false }

/-- A context that runs it. -/
def ctx (b : List OpBody) : Machine.Ctx :=
  { id := 16, gseq := 1, cls := 0, image := 7, schedule := 0, runPos := 0, run := some (run b), binds := [], segs := [⟨1, 0, 1⟩], draining := false
    frozen := false, forced := false, satReported := false, rangeReported := false, kvBase := 0, reexec := 0, recovery := none, ended := false
    cancel := false, recTiles := [], heldErrs := [], rws := [], wrote := [] }

/-- A core that runs it in slot 0, with leave and tile 0 on unit 0. -/
def core0 : CoreState :=
  CoreState.setUnit { CoreState.empty with run := some (0, 0), owner := 16, charge := 4 } 0 ⟨some ⟨0, 0, [], 0, [], [], []⟩, none, false, 0⟩

/-- The device whose core 0 has come to the first of the operations. -/
def tile (b : List OpBody) (f : CoreState → CoreState := fun x => x) : State := (State.reset.setCtx 0 (some (ctx b))).setCore 0 (f core0)

/-- The next operation of thread 0 on unit 0 of core 0 is `o`, in a context of which `f` holds. -/
theorem at_of {s : State} {o : OpBody} {f : OpCtx → Bool}
    (h : ((s.nextOp 0 0 0).any fun x => decide (x.rcd.body = o ∧ f x = true)) = true) : ∃ x, s.atOp 0 0 0 x o ∧ f x = true := by
  obtain ⟨x, e, b, k⟩ := exists_of_any h
  exact ⟨x, ⟨e, b⟩, k⟩

/-! ### Registers, memory and reset -/
theorem witness_steps : State.reset.pending = [] ∧ State.reset.brd.booted = false ∧ State.reset.canonical ∧
    (∃ t, step State.reset = .next t) ∧ ∃ t, step { State.reset with pending := [.idcode, .status] } = .next t :=
  ⟨rfl, rfl, by decide +kernel, ⟨_, rfl⟩, ⟨_, rfl⟩⟩

theorem witness_RegistersReadBack : Page.exists (.core 47) ∧ Page.exists (.lnk 7) ∧ Page.exists .sec ∧ 0xFFFF < 0x10000 ∧ State.reset.regsWf ∧
    Page.base (.core 0) + 0xFFFC ≠ Page.base (.tsq 0) + 0 := by
  refine ⟨?_, ?_, trivial, by decide, by decide +kernel, by decide⟩
  · show 47 < 48; decide
  · show 7 < 8; decide

/-- A device on which the boundary-scan port has a level, of lifecycle `life`. -/
def tapped (level life : Nat) : State :=
  { State.reset with sec := { State.reset.sec with tapLevel := level, fuses := { Fuses.blank with lifecycle := life } } }

theorem witness_RegisterAccessRights :
    (tapped 0 1).tapRights = 0 ∧ (tapped 1 1).tapRights = 1 ∧ (tapped 2 1).tapRights = 2 ∧ (tapped 0 2).sec.fuses.lifecycle = 2 ∧
    Page.ofAddr 0xC000000000 = some (.aon, 0) ∧ Page.ofAddr (regBase + 0x0383FFFC) = some (.gnd 3, 0xFFFC) ∧
    (tapped 0 1).mayRead .tap .err = false ∧ (tapped 1 1).mayWrite .tap .aon = false ∧ (tapped 0 1).mayRead (.thread 0 0) (.core 1) = false ∧
    (tapped 0 1).mayWrite (.thread 0 0) (.core 0) = false := by decide +kernel

theorem witness_RegisterWidthAndAlignment :
    Page.ofAddr (Page.base (.tsq 0) + 8) = some (.tsq 0, 8) ∧ Page.ofAddr (Page.base (.tsq 0) + 0xA) = some (.tsq 0, 0xA) ∧ 0xA % 4 ≠ 0 ∧
    State.reset.mayWrite (.gander 0) (.tsq 0) = true ∧ State.reset.mayWrite (.thread 0 0) (.tsq 0) = true ∧
    State.reset.mayRead (.thread 0 0) (.tsq 0) = true ∧ ([1, 2] : List Byte).length ≠ 4 ∧ ∀ n, Page.tsq 0 ≠ .gnd n := by
  refine ⟨by decide +kernel, by decide +kernel, by decide, rfl, rfl, rfl, by decide, fun n h => by cases h⟩

theorem witness_RegisterWriteByAccessCode :
    (let p := Page.tsq 0
     Page.ofAddr (p.base + 8) = some (p, 8) ∧ ((p.row 8).any fun r => decide (r.rw ||| r.rws ||| r.rwl ||| r.w1c ||| r.wo ≠ 0)) = true ∧
      State.reset.mayWrite (.gander 3) p = true ∧ (State.reset.actionWrite (.gander 3) p 8 2).isNone = true ∧
      vetWrite p 8 (State.reset.rget p 8) 2 = (2, false)) ∧
    (let p := Page.lnk 0
     let s := State.reset.modPort 0 fun x => { x with st := .active }
     ((p.row 8).any fun r => decide (r.rw ||| r.rws ||| r.rwl ||| r.w1c ||| r.wo ≠ 0)) = true ∧ s.regBusy p = true ∧
      (s.actionWrite (.gander 3) p 8 0).isNone = true ∧ vetWrite p 8 (s.rget p 8) 0 = (0, false)) ∧
    Page.ofAddr (Page.base (.tsq 0) + 0xFFFC) = some (.tsq 0, 0xFFFC) ∧ (Page.row (.tsq 0) 0xFFFC).isNone = true := by decide +kernel

theorem witness_MemoryAndCheckCode : (Mem.empty).wf ∧ (0x4000000000 % 4 = 0) ∧ (0x4000000004 ≠ 0x4000000000) ∧
    sget false Mem.empty.gran (0x1FFFFFDFFC / 32) = false := by decide +kernel

theorem witness_LpddrInterleave : (0x1FFFFFDFFF < sramBase ∧ 0x1FFFFFDFFF / 256 < 536870880) ∧
    (0x1FFFFFE000 < sramBase ∧ 536870880 ≤ 0x1FFFFFE000 / 256) ∧ 79 < 80 ∧ regionOf 0 = .lpddr ∧ regionOf (80 * 256) = .lpddr ∧
    channelOf 0 = channelOf (80 * 256) ∧ regionOf 0x1FFFFFDFFF = .lpddr := by decide +kernel

/-! ### Barriers, dispensing, timeouts and debug -/

/-- A core barrier that stands at a generation, with counts. -/
def bar (st : ObjState) (credit : Bool) (gen arrived consumed : Nat) : CoreBar := ⟨st, gen, credit, 2, 3, arrived, consumed, false, []⟩

/-- The device at operation `o`, with barrier 0 as given. -/
def atBar (o : OpBody) (b : CoreBar) : State := tile [o] fun x => x.setBar 0 b

theorem witness_WaitsComplete :
    let w := OpBody.wait 0 false false 1 2 0
    let wa := OpBody.wait 0 true false 1 2 0
    let d := fun (s : State) => decide (((((s.core 0).bar 0).gen + 65536 - 1) % 65536) < 32768)
    let dist := fun (s : State) => (((s.core 0).bar 0).gen + 65536 - 1) % 65536
    ((∃ o, (atBar w (bar .broken false 1 0 0)).atOp 0 0 0 o w ∧ (((atBar w (bar .broken false 1 0 0)).core 0).bar 0).st = .broken) ∧
    (∃ o, (atBar w (bar .open false 32768 0 0)).atOp 0 0 0 o w ∧ dist (atBar w (bar .open false 32768 0 0)) = 32767) ∧
    (∃ o, (atBar wa (bar .open false 1 0 0)).atOp 0 0 0 o wa ∧ d (atBar wa (bar .open false 1 0 0)) = true) ∧
    (∃ o, (atBar w (bar .open false 32769 0 0)).atOp 0 0 0 o w ∧ dist (atBar w (bar .open false 32769 0 0)) = 32768) ∧
    (∃ o, (atBar w (bar .open false 32770 0 0)).atOp 0 0 0 o w ∧ dist (atBar w (bar .open false 32770 0 0)) = 32769)) := by
  intro w wa d dist
  refine ⟨?_, ?_, ?_, ?_, ?_⟩ <;> exact (at_of (f := fun _ => true) (by decide +kernel)).imp fun _ h => ⟨h.1, by decide +kernel⟩

theorem witness_WaitsComplete_credit :
    let w := OpBody.wait 0 true true 1 2 3
    ∀ b ∈ [bar .broken true 0 0 0, bar .open true 0 1 0, bar .open true 0 2 1, bar .open true 0 1 1], ∃ o, (atBar w b).atOp 0 0 0 o w := by
  intro w b hb
  simp only [List.mem_cons, List.not_mem_nil, or_false] at hb
  rcases hb with rfl | rfl | rfl | rfl <;> exact (at_of (f := fun _ => true) (by decide +kernel)).imp fun _ h => h.1

theorem witness_SignalArrives :
    ∀ b ∈ [bar .broken true 0 0 0, bar .open false 0 0 0, bar .open false 0 1 0, bar .open true 0 2 0, bar .open true 0 3 0],
      ∃ o, (atBar (.signal 0) b).atOp 0 0 0 o (.signal 0) := by
  intro b hb
  simp only [List.mem_cons, List.not_mem_nil, or_false] at hb
  rcases hb with rfl | rfl | rfl | rfl | rfl <;> exact (at_of (f := fun _ => true) (by decide +kernel)).imp fun _ h => h.1

theorem witness_CreditBarrierKeepsBounds : (bar .open true 0 0 0).creditOk ∧ (bar .open true 0 3 0).creditOk ∧
    (bar .open true 0 3 1).creditOk ∧ (bar .open true 0 3 1).consumed < (bar .open true 0 3 1).arrived ∧
    (bar .open true 0 3 1).arrived < (bar .open true 0 3 1).consumed + (bar .open true 0 3 1).cmax := by
  refine ⟨?_, ?_, ?_, by decide, by decide⟩ <;> exact ⟨by decide, by decide⟩

/-- Core 0 with thread 3 waiting at barrier 0 for a generation. -/
def waiting (want : Nat) : State :=
  tile [] fun x => (x.setBar 0 { bar .open false 0 1 0 with waiters := [3] }).setThread 3 ⟨some ⟨0, 0, want, false, false, 0, 5, 0⟩, 0, []⟩

theorem witness_PhaseReleaseWakes :
    (∀ n ∈ [1, 32770, 32769, 2], 3 ∈ (((waiting n).core 0).bar 0).waiters ∧ (((waiting n).core 0).thread 3).watch.isSome = true) ∧
    genDist 1 1 < 32768 ∧ genDist 1 32770 = 32767 ∧ genDist 1 32769 = 32768 ∧ 32768 ≤ genDist 1 2 := by decide +kernel

/-- Core 0 runs a program, and its unit 0 has no tile. -/
def asking (pre : Option Nat) : State := tile [] fun x => x.setUnit 0 ⟨none, pre, false, 0⟩

theorem witness_DispenseInOrder :
    (∀ s ∈ [asking none, asking (some 0)], s.coreSlot 0 = some 0 ∧ ((s.coreCtx 0).any fun x => x.run.any fun r =>
        !x.frozen && !x.draining && !x.cancel && decide (0 < r.prog.sh.units) && !r.stopDispense) = true ∧ (s.core 0).fenced = false ∧
      s.grp.quiesced = false ∧ s.stepHeld 0 = false ∧ (s.dsp 0).st ≠ .frozen ∧ ((s.core 0).unit 0).cur = none) ∧
    ((asking none).core 0).unit 0 = ⟨none, none, false, 0⟩ ∧ (((asking (some 0)).core 0).unit 0).prefetched = some 0 ∧
    (let d : Dispense := ⟨.open, 4, 3, [], [], 0, 0⟩
     (d.st = .open ∧ d.next < d.count) ∧ (4 : Nat) ≤ ({ d with next := 4 } : Dispense).next ∧
      (∀ i ∈ ({ d with reclaim := [2, 1] } : Dispense).reclaim, i < d.count) ∧ ({ d with reclaim := [2, 1] } : Dispense).answer.isSome = true ∧
      Dispense.empty.st ≠ .open) := by decide +kernel

/-- Core 0 with thread 2 holding a watch of a kind with ticks left and ticks held. -/
def watching (kind left held : Nat) : State :=
  tile [] fun x => x.setThread 2 ⟨some ⟨kind, 0, 1, false, false, 0, left, held⟩, 0, []⟩

theorem witness_TimeoutsAndLending :
    (((watching 0 1 0).core 0).thread 2).watch.isSome = true ∧ ((watching 0 0 0).expired.any fun e => e.1 == 0 && e.2.1 == 2) = true ∧
    (watching 5 0 0).expired = [] ∧
    (let s := (watching 0 9 100).rsetForce (.hen 0) 8 0x01010000
     bitOf (s.rforce (.hen 0) 8).toNat 24 = true ∧ (s.core 0).lent = false ∧ 0 < (s.core 0).charge ∧ s.coreIssuing 0 = false ∧
       (s.core 0).threads.toList.filterMap (·.watch) ≠ [] ∧ (∀ w ∈ (s.core 0).threads.toList.filterMap (·.watch), s.ffield (.hen 0) 8 16 8 ≤ w.held)) ∧
    ¬0 < (State.reset.core 0).charge := by decide +kernel

theorem witness_ActionsOfRegisters :
    (State.reset.mayWrite (.gander 0) (.core 47) = true ∧ (State.reset.core 47).run = none ∧ (State.reset.core 47).fenced = false) ∧
    (((tile []).core 0).run ≠ none) ∧ State.reset.mayWrite (.thread 0 0) (.cbuf 0) = true ∧ State.reset.mayWrite (.gander 1) (.pwr 0) = true ∧
    (State.reset.port 7).up = false ∧ ((State.reset.modPort 7 fun x => { x with st := .active }).port 7).up = true ∧
    ((State.reset.modPort 7 fun x => { x with st := .disabled }).port 7).st = .disabled ∧ (State.reset.port 7).st ≠ .disabled ∧
    (let s : State := { State.reset.modCore 5 (fun x => { x with selfTest := true }) with brd := { Board.empty with selftestAll := true } }
     (s.core 5).selfTest = true ∧ s.brd.selftestAll = true ∧ ∀ d < 48, d ≠ 5 → (s.core d).selfTest = false) ∧
    (let s := atBar (.signal 0) (bar .open false 0 0 0)
     s.mayWrite (.gander 2) (.hen 0) = true ∧ ((s.core 0).bar 0).st ≠ .free ∧ ((s.core 0).bar 31).st = .free) ∧
    State.reset.mayWrite (.thread 0 0) (.hen 0) = true ∧
    (let s := State.reset.setGbar 63 { GroupBar.empty with st := .open }
     s.mayWrite (.gander 0) (.heng 0) = true ∧ (s.gbar 63).st ≠ .free) := by decide +kernel

/-! ### Passes, conversions and chains -/

/-- A pass of operation `op` on unit 0 from slot 0, with operands and weights in tensor 0. -/
def passOp (op : Nat) (bitmap : Bool) : OpBody := .pass 0 op false 0x10 0x10 bitmap false 1 0 0 0 0 0x3F 0 0 0 0 0

/-- The device whose core 0 stands at operation `pos` of a program with a K loop of two iterations. -/
def tileK (b : List OpBody) (pos : Nat) : State :=
  let p := { prog b with loops := [⟨3, 0, 0, 0, 128, 64⟩], ops := b.map fun x => ⟨0, 1, x⟩ }
  (State.reset.setCtx 0 (some { ctx b with run := some { run b with prog := p } })).setCore 0
    (core0.setUnit 0 ⟨some ⟨0, 0, [(0, pos)], 0, [], [], []⟩, none, false, 0⟩)

/-- What a pass ready to issue meets. -/
theorem ready_of {s : State} {op : Nat} {q : PassRec} {f : OpCtx → Bool}
    (h : ((s.nextOp 0 0 0).any fun o => decide (o.rcd.pass? = some q ∧ q.op = op ∧ s.mayIssue 0 = true ∧
      (∀ f ∈ (s.core 0).flights, f.lambs &&& lambMask o.run.prog (unitAt o.run.prog q.unit 0) = 0) ∧
      ¬(o.injects q = true ∧ (s.core 0).chainHolds 0 = true) ∧ s.convFeeds o 0 0 q.aT = false ∧ s.convFeeds o 0 0 q.wT = false) && f o) = true) :
    ∃ o, s.passReady op 0 0 0 o q ∧ f o = true := by
  cases e : s.nextOp 0 0 0 with
  | none => rw [e] at h; simp at h
  | some o =>
    rw [e, Option.any_some, Bool.and_eq_true, decide_eq_true_eq] at h
    exact ⟨o, ⟨e, h.1⟩, h.2⟩

/-- The fields of `passOp`. -/
def passRec (op : Nat) (bitmap : Bool) : PassRec := ⟨0, op, false, 0x10, 0x10, bitmap, false, 1, 0, 0, 0, 0x3F, 0, 0, 0, 0, 0⟩

theorem witness_PassesIssue : ∀ e ∈ passCommands, ∃ o, (tile [passOp e.1 false]).passReady e.1 0 0 0 o (passRec e.1 false) ∧
    o.pieceHere (o.piece 0 (passRec e.1 false)) = true ∧ ¬(tile [passOp e.1 false]).passSkipped 0 o (passRec e.1 false) := by
  intro e he
  simp only [passCommands, List.mem_cons, List.not_mem_nil, or_false] at he
  rcases he with rfl | rfl | rfl | rfl | rfl | rfl | rfl <;>
    exact (ready_of (f := fun o => o.pieceHere (o.piece 0 _) && !o.injects (passRec 0 false)) (by decide +kernel)).imp fun o h =>
      ⟨h.1, (Bool.and_eq_true_iff.mp h.2).1, fun k => by
        have := (Bool.and_eq_true_iff.mp h.2).2
        have := k.2.1
        simp_all [OpCtx.injects, passRec]⟩

theorem witness_PassesSkipWaitAndComplete :
    (∃ o, (tileK [passOp 0 true] 1).passReady 0 0 0 0 o (passRec 0 true) ∧ o.pieceHere (o.piece 0 (passRec 0 true)) = true ∧
      (tileK [passOp 0 true] 1).passSkipped 0 o (passRec 0 true)) ∧
    (∃ o, (tile [passOp 6 false, .gmm 0 1 false 0 0 64 4096 0]).passReady 6 0 0 0 o (passRec 6 false) ∧
      ((o.piece 0 (passRec 6 false)).any fun pc => !o.pieceHere (some pc)) = true) ∧
    (let s := tile [passOp 0 false] fun x => { x with lent := true }
     ((s.nextOp 0 0 0).any fun o => o.rcd.pass? == some (passRec 0 false)) = true ∧ s.mayIssue 0 = false) ∧
    (∀ f ∈ ((tile []).core 0).flights, f.unit ≠ 7) ∧
    (((tile [] fun x => { x with flights := [⟨7, 7, 128, 0, [], 1⟩] }).core 0).flights.find? (·.unit == 7)).isSome = true := by
  refine ⟨?_, ?_, by decide +kernel, by decide +kernel, by decide +kernel⟩
  · exact (ready_of (s := tileK [passOp 0 true] 1) (op := 0) (q := passRec 0 true) (f := fun o => o.pieceHere (o.piece 0 (passRec 0 true)) && (bitOf ((tileK [passOp 0 true] 1).rforce (.lamb 0) 0xC).toNat 0 &&
      (o.injects (passRec 0 true) && ((tileK [passOp 0 true] 1).allZero o (passRec 0 true) 0 && decide (o.run.prog.tap 0 = none)))))
      (by decide +kernel)).imp fun o h => by
        simp only [Bool.and_eq_true, decide_eq_true_eq] at h
        exact ⟨h.1, h.2.1, h.2.2⟩
  · exact ready_of (f := fun o => (o.piece 0 (passRec 6 false)).any fun pc => !o.pieceHere (some pc)) (by decide +kernel)

/-- A conversion word to FP32 without scale, bias or clip. -/
def convWord : ConvWord := ⟨0x33, 0, 0, 0, false, false, 0, 0, 0, 0, 0⟩

theorem witness_ConversionsAndCollectiveRecords :
    (let s := tile [.conv 0 0 0 convWord]
     ((s.nextOp 0 0 0).any fun o => o.rcd.conv?.isSome) = true ∧ (s.core 0).convs = [] ∧ (s.core 0).chainHolds 0 = false) ∧
    (((tile [] fun x => { x with convs := [⟨7, 0, 0, 0, [], .zero, some St.addrUnmapped⟩] }).core 0).convs.find? (·.unit == 7)).isSome = true ∧
    (∃ o, (tile [.gmm 0 1 false 0 0 64 4096 0]).atOp 0 0 0 o (.gmm 0 1 false 0 0 64 4096 0)) ∧
    (∃ o, (tile [.mrs 0 1 0 64 convWord]).atOp 0 0 0 o (.mrs 0 1 0 64 convWord)) := by
  refine ⟨by decide +kernel, by decide +kernel, ?_, ?_⟩ <;> exact (at_of (f := fun _ => true) (by decide +kernel)).imp fun _ h => h.1

/-- A chain program with instructions `is`. -/
def chainProg (is : List ChainInstr) (split : Nat) : ChainProg := ⟨0, split, 0, [0x33, 0x33, 0x33, 0x33, 0x33], [0x3F800000], is⟩

/-- A chain operation of thread 0 for the tile on unit 0. -/
def chainOp (is : List ChainInstr) (split : Nat) : ChainOp := ⟨0, 0, 0, 0, 0, .zero, chainProg is split, none⟩

/-- The CHAIN record. -/
def chainRcd : OpBody := .chain 0 false false 0 0 0 0x3F 0x3F 0x3F 0 false 0 convWord

/-- Core 0 with the vector engine at the first of the instructions, in row 0 of one row. -/
def chained (is : List ChainInstr) (split sweep chunk chunks pos : Nat) : State :=
  let r : ChainRun := ⟨chainOp is split, [(0, ⟨0, true, pos, 1, 0⟩)], chunks, 0, chunk, sweep, 0, [(0, [1, 2, 3])], [], false, [], [], 0⟩
  tile [chainRcd] fun x => { x with vec := { x.vec with run := some r } }

theorem witness_ChainsIssueAndComplete :
    (let s := tile [chainRcd]
     ((s.nextOp 0 0 0).any fun o => o.rcd.chain?.isSome) = true ∧ s.mayIssue 0 = true ∧ (s.core 0).vec.run = none) ∧
    (let r : ChainRun := ⟨{ chainOp [] 0 with thread := 1 }, [], 1, 0, 0, 0, 0, [], [], false, [], [], 0⟩
     let s := tile [chainRcd] fun x => { x with vec := { x.vec with run := some r } }
     ((s.nextOp 0 0 0).any fun o => o.rcd.chain?.isSome) = true ∧ s.mayIssue 0 = true ∧
       ((s.core 0).vec.run.any fun r => decide (r.rows.length ≤ r.row)) = true) ∧
    (((chained [] 0 0 0 1 0).core 0).vec.run.any fun r => decide (r.row < r.rows.length)) = true := by decide +kernel

/-- The engine stands at an instruction of code `opc` whose environment meets `f`. -/
def standsAt (s : State) (opc : Nat) (f : ChainEnv → Bool) : Bool := (s.chainEnv 0 opc).any fun e => !e.slotBusy s && f e

theorem chainAt_of {s : State} {opc : Nat} {f : ChainEnv → Bool} (h : standsAt s opc f = true) : ∃ e, s.chainAt 0 opc e ∧ f e = true := by
  unfold standsAt at h
  cases k : s.chainEnv 0 opc with
  | none => rw [k] at h; simp at h
  | some e =>
    rw [k, Option.any_some, Bool.and_eq_true, Bool.not_eq_true'] at h
    exact ⟨e, ⟨k, h.1⟩, h.2⟩

/-- An instruction of a code, with a destination, mode, port and immediate. -/
def instr (opc dst mode port imm : Nat) : ChainInstr := ⟨opc, dst, 0, 16, 0, 0x33, mode, port, imm⟩

theorem witness_LanewiseAndReductions :
    (∀ e ∈ unaryCommands, ∀ d ∈ [15, 16], standsAt (chained [instr e.1 d 0 0 0] 0 0 0 1 0) e.1 (fun x => x.ins.dst == d) = true) ∧
    (∀ e ∈ binaryCommands, ∀ d ∈ [15, 16], standsAt (chained [instr e.1 d 0 0 0] 0 0 0 1 0) e.1 (fun x => x.ins.dst == d) = true) ∧
    (∀ e ∈ ternaryCommands, ∀ d ∈ [15, 16], standsAt (chained [instr e.1 d 0 0 0] 0 0 0 1 0) e.1 (fun x => x.ins.dst == d) = true) ∧
    (∀ e ∈ reduceCommands, standsAt (chained [instr e.1 16 0 0 0] 0 0 0 1 0) e.1 (fun _ => true) = true) ∧
    standsAt (chained [instr 0x38 17 0 0 0] 0 0 0 1 0) 0x38 (fun _ => true) = true ∧
    (negInf32 = 0xFF800000 ∨ (val32 negInf32).eqv (val32 one32) = true) ∧ fExp (fSub one32 (fMax one32 posInf32)) ≠ one32 := by decide +kernel

theorem witness_ChainLoadsAndStores :
    (∀ opc ∈ [0x01, 0x02, 0x04, 0x05, 0x06], ∀ port ∈ [0, 6], standsAt (chained [instr opc 1 0 port 0] 0 0 0 1 0) opc (fun _ => true) = true) ∧
    standsAt (chained [instr 0x03 1 0 0 0] 0 0 0 1 63) 0x03 (fun x => decide (x.w.pos < x.tensor.rows)) = true ∧
    standsAt (chained [instr 0x03 1 0 0 0] 0 0 0 1 64) 0x03 (fun x => decide (x.tensor.rows ≤ x.w.pos)) = true := by decide +kernel

theorem witness_PermTopKAndSelection :
    (∀ e ∈ [(0x1C, 0), (0x1C, 1), (0x40, 0), (0x40, 1), (0x40, 2), (0x40, 3), (0x7F, 0)],
      ((chained [instr e.1 1 e.2 0 8] 0 0 0 1 0).chainEnv 0 e.1).any (fun x => x.ins.mode == e.2) = true) ∧
    standsAt (chained [instr 0x41 1 0 0 2] 0 0 0 1 0) 0x41 (fun _ => true) = true ∧
    standsAt (chained [instr 0x70 1 0 0 1] 0 0 0 1 0) 0x70 (fun _ => true) = true := by decide +kernel

theorem witness_ChainOrder :
    let i := instr 0x16 1 0 0 0
    (∀ s ∈ [chained [i, i] 0 0 0 1 0, chained [i, i] 1 0 0 2 0, chained [i, i] 1 0 1 2 0, chained [i, i] 1 1 1 2 0], (s.core 0).vec.run.isSome = true) ∧
    (((chained [i, i] 1 0 0 2 0).core 0).vec.run.any fun r => r.sweep == 0 && r.pc + 1 == 1 && decide (r.chunk + 1 < r.chunks)) = true ∧
    (((chained [i, i] 1 0 1 2 0).core 0).vec.run.any fun r => r.sweep == 0 && decide (r.chunks ≤ r.chunk + 1)) = true ∧
    (((chained [i, i] 1 1 1 2 0).core 0).vec.run.any fun r => r.sweep != 0 && decide (r.chunks ≤ r.chunk + 1)) = true := by decide +kernel

/-! ### Streams, Mule transfers, threads and pages -/

/-- A STREAM record from tensor 0 to itself. -/
def streamOp (persist : Bool) : OpBody := .stream persist 0 0 0x3F 0 31 0 1 0 0 0

/-- A stream context of the first operation. -/
def streamCtx (persist running : Bool) (segs : List Segment) (halted : Option Nat) : StreamCtx :=
  { thread := 0, unit := 0, slot := 0, prog := 0, op := 0, persist := persist, running := running, doneBar := 31, tagCnt := 1, srcTier := 1, dstTier := 1
    srcBase := 0, dstBase := 0, idxBase := none, mapBase := none, srcRows := 0, dstRows := 0, entries := [], entry := 0, block := 0, off := 0, position := 0
    idx := none, segs := segs, halted := halted, haltAge := 0, failed := none }

/-- Core 0 at a STREAM record with stream contexts. -/
def streaming (persist : Bool) (l : List (Nat × StreamCtx)) : State := tile [streamOp persist] fun x => { x with streams := l }

theorem witness_StreamsStart :
    let all := (List.range 64).map fun k => (k, streamCtx false true [] none)
    (∀ s ∈ [streaming false [], streaming false all, streaming true [(63, streamCtx true false [] none)], streaming true [(63, streamCtx true true [] none)]],
      ((s.nextOp 0 0 0).any fun o => o.rcd.stream?.isSome) = true) ∧
    ((streaming false []).core 0).freeStream = some 0 ∧ ((streaming false (all.take 63)).core 0).freeStream = some 63 ∧
    ((streaming false all).core 0).freeStream = none ∧
    (let s := streaming true [(63, streamCtx true true [] none)]
     ((s.nextOp 0 0 0).any fun o => ((s.core 0).kept o).any fun e => e.1 == 63 && e.2.running) = true) := by decide +kernel

/-- A segment of 16 words between two devices with `got` words here. -/
def segment (src dst got : Nat) : Segment := ⟨255, src, 0, dst, 0x1000, 16, [], got, 0⟩

theorem witness_SegmentsCompleteOrTimeOut :
    (∀ g ∈ [segment 0 0 16, segment 1 0 15, segment 1 0 16, segment 0 1 16],
      (((streaming false [(63, streamCtx false true [g] none)]).core 0).stream 63).any
        (fun st => (st.segs.find? (·.tag == 255)).any fun h => decide (h = g)) = true) ∧
    ((segment 1 0 15).got < (segment 1 0 15).n ∧ (segment 1 0 16).n ≤ (segment 1 0 16).got) ∧ St.addrUnmapped ≠ St.ok ∧
    (((streaming false [(0, streamCtx false true [] (some 3))]).core 0).stream 0).any (fun st => st.halted == some 3) = true := by decide +kernel

/-- A Mule record: a COPY of 256 bytes, PUT32 or ADD32, within tensor 0. -/
def muleOp (op : Nat) : OpBody := .mule op 0 0 31 0 256 0 0

/-- The same with tensor 0 of another tier and offset. -/
def muleAt (op tier offset : Nat) (l : List (Nat × MuleSlot)) : State :=
  let r := run [muleOp op]
  let t : Tensor := ⟨tier, 0x33, 0, 0, offset, 0, 0, 64, 64, 64, 64⟩
  let s := State.reset.setCtx 0 (some { ctx [] with run := some { r with prog := { r.prog with tensors := [t] } } })
  ({ s with grp := { s.grp with members := 3, size := 2 } } : State).setCore 0 { core0 with mules := l }

/-- A Mule transfer of 4 bytes to a device. -/
def muleSlot (dst : Nat) (sent : Bool) (failed : Option Nat) : MuleSlot := ⟨0, 0, 1, 31, 0, dst, 0x1000, [⟨1, false⟩], 0, sent, failed⟩

theorem witness_MuleTransfers :
    let full := (List.range 16).map fun i => (i, muleSlot 0 true none)
    (∀ op ∈ [0, 1, 2], ∀ s ∈ [muleAt op 1 0x1000 [], muleAt op 1 0x1000 full, muleAt op 4 (2 ^ 48 + 0x1000) []],
      ((s.nextOp 0 0 0).any fun o => o.rcd.mule?.any fun q => q.op == op) = true) ∧
    (∀ i < 16, (((muleAt 1 1 0x1000 full).core 0).mule i).isSome = true) ∧
    ((List.range 16).find? fun i => (((muleAt 1 1 0x1000 (full.take 15)).core 0).mule i).isNone) = some 15 ∧
    ((muleAt 1 1 0x1000 []).place 0 16 1 true 0x1000 4).1 = .here 0x1000 ∧
    ((muleAt 1 1 0x1FFFFFE000 []).place 0 16 1 true 0x1FFFFFE000 4).1 = .fails St.addrUnmapped ∧
    ((muleAt 1 4 (2 ^ 48 + 0x1000) []).place 0 16 4 true (2 ^ 48 + 0x1000) 4).1 = .peer 1 0x1000 ∧
    (∀ m ∈ [muleSlot 0 false none, muleSlot 0 true none, muleSlot 1 true none, muleSlot 0 true (some St.addrUnmapped)],
      (((muleAt 1 1 0x1000 [(15, m)]).core 0).mule 15) = some m) := by decide +kernel

theorem witness_WordUpdatesAreLocal : State.reset.canonical ∧ regionOf 0x802F3FFFFC = .opBuf 47 ∧ 0x802F3FFFFC % 4 = 0 ∧ 0x8000000000 ≠ 0x802F3FFFFC := by
  decide +kernel

theorem witness_ThreadLoadsAndStores :
    (State.reset.threadRefusal false 0x1FFFFFE000).isSome = true ∧ (State.reset.threadRefusal true (2 ^ 48)).isSome = true ∧
    State.reset.threadRefusal false regBase = none ∧ regionOf (regBase % 2 ^ 48) = .reg ∧
    State.reset.threadRefusal true 0x1FFFFFDFFC = none ∧ regionOf (0x1FFFFFDFFC % 2 ^ 48) ≠ .reg ∧
    (0 < wordsOver 0x3C 4 ∧ wordsOver 0x3C 4 ≤ 16 - 0x3C / 4 * 4 % 64 / 4) ∧ (0x8000000000 < 2 ^ 48 ∧ cacheable 0x8000000000 = false) ∧
    cacheable 0x40FFDFFFFC = true ∧
    (let s := State.reset.setCore 0 { core0 with cache := [⟨0x40, List.replicate 16 (5, 0)⟩] }
     bitOf (s.rforce (.cbuf 0) 8).toNat 0 = true ∧ ((s.core 0).line (0x7C / 64 * 64)).isSome = true ∧
       ((State.reset.core 0).line 0).isNone = true) ∧
    ((muleAt 1 4 0 []).modPort 0 (fun x => { x with st := .active })).threadRefusal true (2 ^ 48 + 0x1000) = none := by decide +kernel

/-- An image at address 0 with one declared KV region, the frame at 0x4000000000, and a prefill descriptor. -/
def image : Image := ⟨7, 1, 0, 65536, .active, [], 0, 0⟩

/-- The bytes of its manifest, directory and descriptor that are not zero, with the entry of page 0 in the paged KV space. -/
def imageMem (target : Nat) (pte : Byte) : Mem :=
  { Mem.empty with cells := [(262, 1), (280, 2), (283, 0x40), (293, 0x20), (16497, 0x80), (16504, 64)] ++
      (if target = 0 then [] else [(0x8010, BitVec.ofNat 8 target)]) ++ (if pte = 0 then [] else [(kvTableBase, pte)]) }

/-- A device whose core 0 has a stream halted on page 0, with its entry as given. -/
def halted (pte : Byte) (images : List Image) (fetches : List PageFetch) : State :=
  { streaming false [(0, streamCtx false true [] (some 0))] with mem := imageMem 0 pte, svc := { Service.empty with images := images, fetches := fetches } }

/-- A fetch of page 0. -/
def fetch (host ready : Bool) : PageFetch := ⟨0, 0, host, 0, 0, 0, 0x4000000000, [], ready, [(0, 0)]⟩

theorem witness_PageFaultsAndPages :
    (∀ s ∈ [halted 4 [image] [fetch true false], halted 4 [] [], halted 4 [image] [], halted 3 [image] [], halted 2 [image] []],
      ((s.core 0).stream 0).any (fun st => st.halted == some 0) = true) ∧
    ((halted 4 [image] [fetch true false]).fetch 0).isSome = true ∧ (halted 4 [image] []).fetch 0 = none ∧
    pteSt ((halted 2 [image] []).pte 0).1 = 2 ∧ pteSt ((halted 3 [image] []).pte 0).1 = 3 ∧ pteSt ((halted 4 [image] []).pte 0).1 = 4 ∧
    (halted 4 [image] []).takeFrame image 0 = some 0x4000000000 ∧ (((halted 4 [image] []).ctx 0).any fun x => x.image == 7) = true ∧
    ((halted 4 [] []).image 7).isNone = true ∧
    (∀ f ∈ [fetch true false, fetch false false, fetch true true], (halted 5 [image] [f]).fetch 0 = some f) ∧
    (((halted 5 [image] [fetch true false]).putWords (fetch true false).frame ([⟨1, false⟩].take 524288)).fetch 0) = some (fetch true false) ∧
    (State.reset.mayWrite (.gander 2) (.str 0) = true ∧ (((halted 4 [] []).core 0).stream 63).bind (·.halted) = none) := by decide +kernel

/-! ### Power and errors -/

/-- A device whose firmware has booted, alone in its group and its head, with the Ethernet port up. -/
def up : State :=
  { State.reset.rput (.eth 0) 4 1 2 1 with
    brd := { Board.empty with booted := true, resetN := true, steps := [5, 6, 7, 8, 9, 10, 11, 12] }
    grp := { GroupState.empty with formed := true, size := 1, head := 0, members := 1 } }

/-- Device 1 of a group of four with head 0, its ports up. -/
def member : State :=
  { up with devIndex := 1, grp := { up.grp with size := 4, members := 15 }
            links := { up.links with ports := up.links.ports.map fun x => { x with st := .active } } }

/-- What the sensors give at a window end. -/
def window (mean : Nat) : Window := ⟨mean, mean, List.replicate 8 0, [], List.replicate 7 0, List.replicate 48 0⟩

/-- The device with every core charged for a class. -/
def charged (n : Nat) (s : State) : State := { s with cores := Vector.replicate 48 { CoreState.empty with charge := n } }

/-- Core 0 holds leave for its context, and core 1 is to be given its program. -/
def leaving : State :=
  (tile [.signal 0] fun x => { x with lent := true }).setCtx 0 (some { ctx [.signal 0] with run := some { run [.signal 0] with inBlock := true } })

theorem witness_LeaveIsGrantedInOrder :
    ((leaving.leaveCtx).any fun e => e.1 == 0 && e.2.2.inBlock && !e.2.2.arrived.contains 1) = true ∧
    ((leaving.core 1).fenced = false ∧ (leaving.core 1).selfTest = false ∧ (leaving.core 1).run = none ∧ ∀ q ∈ leaving.pwr.queue, q.core ≠ 1) ∧
    ((leaving.core 0).fenced = false ∧ (leaving.core 0).selfTest = false ∧ (leaving.core 0).run = some (0, 0) ∧ (leaving.core 0).lent = true ∧
      leaving.coreIssuing 0 = true) ∧ State.reset.pwr.queue = [] ∧
    (let q : LeaveReq := ⟨1, 1, 0, false, 0⟩
     headReq [⟨2, 4, 1, false, 1⟩, q, ⟨3, 4, 0, false, 0⟩] = some q ∧ up.admits 1 1 = true ∧ up.brd.thermtrip = false ∧
      (charged 4 (up.rput (.pwr 0) 0x20 0 11 1339)).admits 1 4 = false) := by decide +kernel

theorem witness_EvaluationWindows :
    up.brd.booted = true ∧
    (let s := (charged 4 (up.rput (.pwr 0) 0x30 0 10 400)).windowEnd (window 100)
     (s.windowStart (window 100)).limit * wattUnit < (s.windowStart (window 100)).pb) ∧
    (let s := (up.rput (.pwr 0) 0x20 0 11 500).windowEnd (window 100)
     (s.windowStart (window 100)).pb ≤ (s.windowStart (window 100)).limit * wattUnit ∧ s.limit < (s.windowStart (window 100)).limit ∧
      (s.windowStart (window 100)).pwr.hot = false) ∧
    (let s := up.windowEnd (window 100)
     (s.windowStart (window 100)).pb ≤ (s.windowStart (window 100)).limit * wattUnit ∧ (s.windowStart (window 100)).limit ≤ s.limit) ∧
    up.regsWf ∧ (1374 + 25 < 1400 ∧ 1400 ≤ 1375 + 25) := by decide +kernel

theorem witness_RailsMarginsAndTemperatures :
    (({ up with pwr := { up.pwr with target := some 7 } } : State).pwr.target = some 7) ∧ up.brd.booted = true ∧
    (∀ e ∈ [(399, true), (399, false), (400, true), (419, false), (420, true), (420, false), (459, false), (460, false)],
      (List.replicate 67 e.1).foldl max 0 = e.1 ∧ ({ up with pwr := { up.pwr with hot := e.2 } } : State).pwr.hot = e.2) ∧
    (up.core 47).fenced = false ∧ ((up.modCore 47 fun x => { x with stretching := true }).core 47).stretching = true ∧ 256 ≤ 256 ∧
    (let s : State := { (up.ror (.pwr 0) 4 0x10).rput (.pwr 0) 4 1 2 1 with aonClk := 1000000 }
     s.mismatched = true ∧ s.rfield (.pwr 0) 4 1 2 = 1 ∧ s.pwr.idleAt + 1000000 ≤ s.aonClk) ∧
    (up.dozing = false ∧ up.liveCores = 0 :: (List.range 47).map (· + 1)) ∧
    (∀ e ∈ [(-1, 5), (-1, 0), (2, 99), (2, 100), (1, 0), (0, 0)], (List.replicate 48 e.1).getD 47 0 = e.1 ∧
      ((up.rput (.pwr 0) 0x2C 0 8 e.2).rput (.pwr 0) 0x2C 8 6 0).rfield (.pwr 0) 0x2C 0 8 = e.2) := by decide +kernel

/-- A SYNC message for this device over port 0. -/
def msg (dst src : Nat) (ws : List Word) : SyncMsg := ⟨0, ⟨0, 0, 0, 0, 0⟩, dst, src, none, ws⟩

theorem witness_IdleDozeAndShift :
    (let s : State := { up with aonClk := 10000 }
     s.rfield (.pwr 0) 4 1 2 = 0 ∧ (∀ k < 4, s.ctx k = none) ∧ s.pwr.idleFrom + 10000 ≤ s.aonClk) ∧
    (let s : State := { up.rsetForce (.pwr 0) 8 8 with aonClk := 1000000 }
     s.isHead = true ∧ s.grp.formed = true ∧ bitOf (s.rforce (.pwr 0) 8).toNat 3 = true ∧ s.dozeFree = true ∧ s.dozing = false ∧
       s.pwr.idleFrom + max (field (s.rforce (.pwr 0) 8).toNat 8 8) 1 * 1000000 ≤ s.aonClk) ∧
    (up.grp.headLost = false ∧ up.isHead = true) ∧ (member.grp.formed = true ∧ member.isHead = false ∧ member.grp.headLost = false) ∧
    regionOf 0x8000000000 = .opBuf 0 ∧ regionOf 0x8000400000 = .accum 0 ∧
    (let s : State := { member with devIndex := 0 }
     (s.syncActs (msg 0 1 [1, 0, 1400]) 0x10).any (fun t => t.isHead && t.grp.formed) = true) ∧
    (∀ sub ∈ [0x11, 0x12, 0x13], (member.syncActs (msg 1 0 [1, 2, 3, 4]) sub).any (·.follows) = true) := by decide +kernel

/-- An error record of a class and status of this device. -/
def record (cls status detail : Nat) : ErrRec := State.reset.newRec cls status (unitCore 0 0x10) 0 detail

/-- An error log of 1,024 slots. -/
def fullLog (acked : Bool) (cls : Nat) : List LogSlot := List.replicate 1023 ⟨record 8 0 0, false⟩ ++ [⟨record cls 0 0, acked⟩]

theorem witness_ErrorsAreDrained :
    (State.reset.errQueue 70).entries = [] ∧
    (∀ s ∈ [up, member], ∀ r ∈ [record St.clsConfig St.addrUnmapped 0, record St.clsLink St.linkUnreachable (2 + 256 * 3)],
      ((s.setErrQueue 70 ⟨[r], false⟩).errQueue 70).entries = [r]) ∧
    (member.accused (record St.clsConfig St.addrUnmapped 0)).isNone = true ∧
    (member.accused (record St.clsLink St.linkUnreachable (2 + 256 * 3))).isSome = true ∧ member.isHead = false ∧ up.isHead = true ∧
    (up.grp.formed = true ∧ up.grp.headLost = false ∧ up.grp.left = false) ∧ ¬State.reset.grp.formed = true ∧
    (logRoom (fullLog true 8) 8).isSome = true ∧ (fullLog true 8).length = 1024 ∧ (fullLog false St.clsCe).any (fun e => e.recd.cls == St.clsCe) = true ∧
    (∀ e ∈ fullLog false 8, e.acked = false ∧ e.recd.cls ≠ St.clsCe) ∧ up.dozing = false ∧
    (scrubPage 0x4100000000).isNone = true ∧ scrubPage 0x1FFFFFDFFC = some (.mem 7) ∧ bitOf ((up.takeRw (.mem 7)).rforce (.mem 7) 8).toNat 0 = true ∧
    up.mem.kind 0x1FFFFFDFFC ≠ .bad := by decide +kernel

/-! ### SYNC messages and the group -/

/-- A context that runs a program with a GMM whose gather of M group 0 has been launched here and waits for its second piece. -/
def gathering (launched : Bool) : Machine.Ctx :=
  { ctx [] with run := some { run [.gmm 0 2 false 0 0 64 4096 0, .mrs 0 2 0 64 convWord] with
      gathers := [⟨0, 1, 1, [], launched⟩], groupDims := [(0, 1)] } }

/-- Device `d` of the group of four with that context. -/
def gathers (d : Nat) : State := { member.setCtx 0 (some (gathering true)) with devIndex := d }

/-- The first word of a SYNC message brings it to device `dst` over a dimension. -/
def msgOver (via : Fin 10) (seq dst : Nat) (b : Option (Fin 6)) : SyncMsg := ⟨via, ⟨seq, 0, 0, 0, 0⟩, dst, 0, b, [1, 2]⟩

theorem witness_SyncMessagesArrive :
    (up.port 7).up = false ∧ (member.port 7).up = true ∧ (1 ≠ ((member.takeTrailer 7 ⟨1, 0, 0, 0, 0⟩).port 7).rxNext) ∧ State.reset.ethUp = false ∧
    (∀ v ∈ [(0 : Fin 10), 7, 8, 9], (member.syncTaken (msgOver v 0 3 none)).any (fun t => 3 != t.devIndex) = true) ∧
    (member.syncTaken (msgOver 0 0 1 none)).any (fun t => t.grp.formed && t.grp.head == 0 && t.devIndex == 1) = true := by decide +kernel

theorem witness_CommandsAreSequencedUnderAHead :
    (∀ sub ∈ [1, 0xD, 0xF], (member.syncActs (msg 1 0 [1, 2, 3]) sub).any (fun t => t.follows && t.grp.lastGseq == 0) = true) ∧
    (∀ sub ∈ [0xC, 0xE], (({ member with devIndex := 0 } : State).syncActs (msg 0 1 [1, 2, 3]) sub).any (·.isHead) = true) ∧
    (∀ g ∈ [(1, 1), (2, 2), (2 ^ 31 - 1, 2 ^ 31 - 1), (2 ^ 31, 2 ^ 31), (0, 0)], (g.1 + 2 ^ 32 - member.grp.lastGseq) % 2 ^ 32 = g.2) ∧
    member.svc.held = [] ∧ up.isHead = true ∧
    (({ member with aonClk := 1600000 } : State).headSilent .silent = true ∧ ({ member with aonClk := 1599999 } : State).headSilent .silent = false) ∧
    member.grp.headLost = false ∧ (State.reset.syncActs (msg 0 0 []) 1).isNone = true := by decide +kernel

/-- A group barrier that has all its local arrivals, over dimensions `dims` with messages. -/
def gbarrier (dims : Nat) (ms : List (Nat × Nat)) : GroupBar := ⟨.open, 0, dims, 2, 2, 0, ms, 0, false, 0, []⟩

theorem witness_GroupBarriersRelease :
    let s := fun (b : GroupBar) => member.setGbar 63 b
    (∀ b ∈ [gbarrier 63 ((List.range 6).map fun k => (0, k)), gbarrier 0 [], gbarrier 32 [(0, 4)]],
      (s b).gbar 63 = b ∧ b.st = .open ∧ b.own = false ∧ b.sent = 0 ∧ b.done = 0 ∧ b.localParts ≤ b.arrived ∧ b.dims < 64) ∧
    (∀ k < 6, (gbarrier 63 ((List.range 6).map fun k => (0, k))).dims.testBit k = true →
      ((gbarrier 63 []).key, k) ∈ (gbarrier 63 ((List.range 6).map fun k => (0, k))).msgs) ∧
    ((gbarrier 32 [(0, 4)]).dims.testBit 5 = true ∧ ((gbarrier 32 []).key, 5) ∉ (gbarrier 32 [(0, 4)]).msgs) := by decide +kernel

/-- A reduction slot of router 0 for a tag. -/
def redSlot (tag len : Nat) (ws : List (Nat × PWord)) (own : Option (List PWord)) : RedSlot := ⟨0, 0, 0, tag, len, ws, own⟩

theorem witness_FabricMessagesAct :
    (∀ sub ∈ [3, 4, 5, 6, 7, 8], ((gathers 1).syncActs (msg 1 0 [1, 0, 4]) sub).any (·.grp.formed) = true) ∧
    ((gathers 1).tagStopped 4 = false ∧ (gathers 1).slotOf (tagPort 4) 4 = none ∧ (gathers 1).freeSlot (tagPort 4) (field 4 0 2) = some 0) ∧
    (let full := (List.range 8).map fun i => (i, redSlot (8 + i) 4 [] none)
     ({ gathers 1 with links := { (gathers 1).links with slots := full } } : State).freeSlot (tagPort 4) (field 4 0 2) = none ∧
      ({ gathers 1 with links := { (gathers 1).links with slots := full.take 7 } } : State).freeSlot (tagPort 4) (field 4 0 2) = some 7) ∧
    ([(⟨1, 0, 0, []⟩ : SendWait)].find? (fun w => w.tag == (msg 1 0 [1, 0]).at_ 0 && w.dst == (msg 1 0 [1, 0]).src)).isSome = true ∧
    ((gathers 1).opSlot ((msg 1 0 [1, 0, 4]).at64 0) = some 0 ∧ (gathers 1).opSlot ((msg 1 0 [2, 0, 4]).at64 0) = none ∧ 1 ∉ (gathers 1).links.aborted) ∧
    ((msg 1 0 [1, 0, 4]).at64 0, (msg 1 0 []).src) ∉ (gathers 1).links.frozenOps := by decide +kernel

/-- The words of an accusation of device 3, which dimension 2 no longer reaches. -/
def accusation : List Word :=
  [0, BitVec.ofNat 32 (256 * St.clsLink), BitVec.ofNat 32 (65536 * St.linkUnreachable), 0, 0, 0, 0, 0, 0, 0, 0, 0, 0, 0, 0x302, 0]

theorem witness_ReexecutionAndAborts :
    (∀ sub ∈ [9, 0xB], ((gathers 0).syncActs (msg 0 1 [1, 0, 4]) sub).any (fun t => t.isHead && t.slotFor 1 == some 0) = true) ∧
    ([1, 5].all fun w => ((gathers 1).syncActs (msg 1 0 [1, w, 4]) 0xA).any fun t => t.follows && t.slotFor 1 == some 0) = true ∧
    (bitOf (1 : Word).toNat 2 = false ∧ bitOf (5 : Word).toNat 2 = true) ∧
    (({ gathers 0 with devIndex := 1 } : State).accused (recOfWords accusation)).isSome = true ∧
    (let s : State := { gathers 0 with links := { (gathers 0).links with timers := [(1, 0)] } }
     s.opSlot 1 = some 0 ∧ (1, 0) ∈ s.links.timers ∧ s.opLive 1 = some false ∧ 1 ∉ s.links.aborted ∧ s.missingStep 0 1 = some 0) ∧
    (1, 0) ∉ (gathers 0).links.timers ∧
    (let s : State := { gathers 0 with links := { (gathers 0).links with aborts := [⟨1, 2, some 3, 0⟩, ⟨1, 1, none, 0⟩], abortDue := [(1, 0)] } }
     (1, 0) ∈ s.links.abortDue ∧ ((s.links.aborts.filter (·.opid == 1)).map (·.accuser)).min? = some 1) ∧
    (1, 0) ∉ (gathers 0).links.abortDue := by decide +kernel

/-- A device before formation, its start-up complete, whose board record gives a group of 16; as head or not. -/
def unformed (d : Nat) (head : Bool) : State :=
  { (up.rset .aon 8 (if head then 0x40 else 0)) with
      devIndex := d, grp := GroupState.empty, sec := { up.sec with board := List.replicate 400 0 ++ [16, 0, 0] }
      links := { up.links with ports := up.links.ports.map fun x => { x with st := .active } } }

theorem witness_GroupsForm :
    (unformed 0 true).mayCall = true ∧
    ((unformed 1 false).syncActs (msg 1 0 [0x1000]) 0x15).any (fun t => !t.grp.formed && !t.grp.headLost && !t.leftOut && !t.isHead && !t.grp.called &&
      t.rfield .aon 4 16 16 != St.headLost) = true ∧
    (let m := msg 0 5 ([5, 1] ++ List.replicate 12 0 ++ [16, BitVec.ofNat 32 ((unformed 0 true).rfield (.eth 0) 8 0 14)])
     ((unformed 0 true).syncActs m 0x16).any (fun t => t.mayCall && (t.joinRefused m true).isNone) = true) ∧
    (let s : State := { unformed 1 false with grp := { GroupState.empty with called := true, joinSent := true, head := 0 } }
     (s.syncActs (msg 1 0 [16, 0xFFFF, 0]) 0x17).any (fun t => t.mayJoin && t.grp.joinSent && t.grp.head == 0 &&
       ((msg 1 0 [16, 0xFFFF, 0]).at64 1).testBit t.devIndex) = true) ∧
    (∀ sub ∈ [0x14, 0x18], (member.syncActs (msg 1 0 [2, 1]) sub).isSome = true) ∧
    (({ unformed 0 true with grp := { GroupState.empty with calling := true } } : State).formDue = true ∧ (unformed 0 true).formDue = false) ∧
    ((unformed 1 false).mayJoin = true ∧ (unformed 1 false).isHead = false ∧ (unformed 1 false).grp.called = false ∧
      (unformed 1 false).brd.calledAt + beAt (unformed 1 false).sec.board 402 2 * 1000000 ≤ (unformed 1 false).aonClk) ∧
    (let s : State := { unformed 0 true with grp := { GroupState.empty with calling := true, joins := (List.range 16).map fun d => ⟨d, true, none⟩ } }
     s.mayCall = true ∧ s.grp.calling = true ∧ s.formSize = some 16) := by decide +kernel

/-! ### Flits, ports and datagrams -/

/-- A flit of a channel from device 0 to device 1 with its words. -/
def flit (ty vc dst addr tid aux : Nat) (last : Bool) (ws : List PWord) : Flit := ⟨ty, vc, last, dst, 0, addr, tid, aux, ws⟩

/-- A trailer with a sequence number. -/
def trail (n : Nat) : Trailer := ⟨n, 4095, 0, 0, 0⟩

/-- A flit whose first codeword is wrong in five bytes: the terms of (x − 1)(x − 2)(x − 4)(x − 8), so that its first four syndromes are zero. -/
def badRaw : List Byte := List.replicate 345 0 ++ [1, 0, 0, 15, 0, 0, 54, 0, 0, 120, 0, 0, 64, 0, 0]

/-- The group's device 1 with the replay buffer of port 0 as given. -/
def replaying (l : List Sent) : State := member.modPort 0 fun x => { x with replay := l }

theorem witness_FlitsArriveInSequence :
    (up.port 0).up = false ∧ ((member.port 0).up = true ∧ 1 ≠ ((member.takeTrailer 0 (trail 1)).port 0).rxNext) ∧
    (member.linkTaken 0 (trail 0) 1).any (fun t => t.devIndex == 1) = true ∧
    (∀ ty ∈ [1, 2, 3, 4, 5, 6, 8], (flit ty 0 1 0 0 0 true []).paired = false) ∧
    (∀ e ∈ [(1, 1), (2, 2), (3, 3), (4, 1), (5, 3), (6, 1), (8, 1)], (flit e.1 e.2 0 0 0 0 true []).paired = true) ∧
    ((flit 9 0 1 0 0 0 true []).paired = false ∧ (9 : Nat) ≠ 0 ∧ 9 ≠ 0xF) ∧
    (flitCorrect badRaw).isNone = true ∧
    ((member.port 0).nakOpen = false ∧ ((member.modPort 0 fun x => { x with nakOpen := true }).port 0).nakOpen = true) ∧
    (member.port 0).replay = [] ∧
    (∀ n ∈ [6, 7], ((replaying [⟨0, n, flit 1 2 0 0 0 0 true []⟩]).port 0).replay = [⟨0, n, flit 1 2 0 0 0 0 true []⟩] ∧
      ((replaying [⟨0, n, flit 1 2 0 0 0 0 true []⟩]).port 0).up = true) := by decide +kernel

/-- The group's device 1 with a stream whose segment of tag 255 comes from device 0, and a Mule transfer in slot 15. -/
def receiving : State :=
  member.setCore 0 { core0 with streams := [(0, streamCtx false true [segment 0 1 0] none)], mules := [(15, muleSlot 1 false none)] }

theorem witness_PeerAccessesAndReplies :
    (receiving.linkTaken 0 (trail 0) 1).any (fun t => t.devIndex == 1 && t.refusalRange true 0x8000000000 256 == none &&
      t.refusalRange false 0x8000400000 2048 == none && t.refusalRange true 0x8000400000 4 == some St.addrNotPermitted &&
      t.refusalRange false regBase 4 == some St.addrNotPermitted && !t.tagStopped 0 &&
      ((t.core 0).tagged 255).isSome && ((t.core 0).mule 15).isSome) = true ∧
    (let s : State := (gathers 1)
     ({ s with links := { s.links with aborted := [1] } } : State).tagStopped 0 = true) ∧
    (0x3400 / 256 = 52 ∧ 0x3000 / 256 = 48 ∧ 0x33FF / 256 = 51 ∧ 0x2FFF / 256 = 47 ∧ 255 / 256 = 0 ∧ 15 % 256 = 15) := by decide +kernel

/-- Device 1 with a reduction slot for tag 4, M group 0 of context 0. -/
def reducing (own : Option (List PWord)) (len : Nat) : State :=
  let s := member.setCtx 0 (some { gathering true with run := (gathering true).run.map fun r => { r with scatters := [⟨0, 1, [], [], false⟩] } })
  { s with links := { s.links with slots := [(0, redSlot 4 len [] own)] } }

theorem witness_CollectiveFlits :
    ((reducing none 1).linkTaken 0 (trail 0) 1).any (fun t => t.devIndex == 1 && !t.tagStopped 4 && tagPort 4 == 0 &&
      (t.links.slots.find? fun e => e.1 == 0 && e.2.tag == 4).isSome && (t.ctx 0).any fun x => x.run.any fun r => r.prog.mrsRec.isSome) = true ∧
    (({ reducing none 1 with links := { (reducing none 1).links with aborted := [1 + 2 ^ 42] } } : State).tagStopped 4 = true) ∧
    ((redSlot 4 1 [] (some [⟨1, false⟩])).len ≤ ([⟨1, false⟩] : List PWord).length ∧ ([⟨1, false⟩] : List PWord).length < (redSlot 4 2 [] none).len) ∧
    (((gathers 1).ctx 0).any fun x => x.run.any fun r => (r.gather 0).any fun g => g.launched && g.mask.testBit (field 0 12 7)) = true ∧
    (((gathers 1).ctx 0).any fun x => x.run.any fun r => (r.gather 63).isNone) = true ∧ (gathers 1).tagStopped 0 = false := by decide +kernel

/-- A device whose port 7 is in a state. -/
def portIn (st : PortSt) (lost : Nat) : State := member.modPort 7 fun x => { x with st := st, lostLanes := lost }

theorem witness_PortsTrainAndHandOver :
    (((portIn .down 0).port 7).st = .down ∧ bitOf ((portIn .down 0).rget (.lnk 7) 8).toNat 0 = true) ∧
    (∀ st ∈ [PortSt.detect, .equalize, .align, .identify, .down, .active, .colt, .disabled], ((portIn st 0).port 7).st = st) ∧
    (9 = member.devIndex ^^^ 2 ^ (7 / 2) ∧ (portIn .identify 0).failedLanes 7 = 0 ∧ ((portIn .identify 0).rput (.lnk 7) 0x18 8 6 1).failedLanes 7 ≠ 0 ∧
      63 ≠ member.devIndex ^^^ 2 ^ (7 / 2)) ∧
    bitOf (((portIn .identify 0).rput (.lnk 7) 0x14 16 1 1).rget (.lnk 7) 0x14).toNat 16 = true ∧
    (((portIn .active 0).modPort 7 fun x => { x with coltWanted := true }).port 7).coltWanted = true ∧ ((portIn .active 0).port 7).coltWanted = false ∧
    ((portIn .active 0).port 7).up = true ∧
    ((portIn .active 0).port 6).up = true ∧ (up.port 6).up = false ∧ (up.port 7).up = false ∧ up.edgeUp 3 = true := by decide +kernel

/-- Device 1 with datagrams sent over d5 and not acknowledged. -/
def unacked (l : List Datagram) (down : Bool) : State := member.setEthDim 1 { EthDim.empty with unacked := l, down := down }

theorem witness_DatagramsAreSequenced :
    (2 : Nat) ≠ 1 ∧ 1 ≠ (member.ethDim 1).rxNext ∧ 0 = (member.ethDim 1).rxNext ∧ [flit 1 2 1 0 0 0 true []] ≠ [] ∧
    (member.ethDim 1).unacked = [] ∧ ((unacked [⟨0, 7, []⟩] true).ethDim 1).down = true ∧
    (∀ n ∈ [6, 7], ((unacked [⟨0, n, []⟩] false).ethDim 1).unacked = [⟨0, n, []⟩] ∧ ((unacked [⟨0, n, []⟩] false).ethDim 1).down = false) := by
  decide +kernel

/-! ### The command protocol -/

/-- A packet of session 1 that holds its whole message. -/
def pkt (session flags seq : Nat) (payload : List Byte) : BcpPkt :=
  ⟨0x4243, 1, flags, session, seq, payload.length, 0, 1, true, 9, payload⟩

/-- Session 1, with records and the newest `SEQ`. -/
def session (level : Nat) (recs : List SeqRec) (high : Option Nat) (ctr : List Nat) : Session :=
  ⟨1, false, 0, 0, 0, some 9, 9, level, high, recs, 0, ctr, 0, 0, []⟩

/-- The head with that session. -/
def inSession (recs : List SeqRec) (high : Option Nat) : State := { up with svc := { Service.empty with sessions := [session 0 recs high []] } }

/-- What a message that is whole gives. -/
def gives (s : State) (op : Nat) (p : BcpPkt) : Option (State × Session × List Byte) :=
  (s.bcpSeen.openSessions.find? (·.id == p.session)).bind fun x =>
    let r := s.bcpSeen.acceptPkt x p
    if r.1 = true then
      (r.2.session x.id).bind fun z =>
        if p.total ≤ 0x1000000 ∧ p.payload.length ≤ r.2.maxLen ∧ p.offset + p.payload.length ≤ p.total then
          match z.reassemble op p r.2.aonClk with
          | .whole b ps =>
            let t := r.2.modSession x.id fun y => { y with parts := ps }
            (t.session x.id).map fun y => (t, y, b)
          | _ => none
        else none
    else none

theorem gives_of {s : State} {op : Nat} {p : BcpPkt} {e : State × Session × List Byte} (h : gives s op p = some e)
    (k : s.bcpServes p) (k1 : p.session ≠ 0) (k2 : bitOf p.flags 1 = true) (k3 : op ≠ 2) : s.bcpGives op p e.1 e.2.1 e.2.2 := by
  refine ⟨k, k1, k2, k3, ?_⟩
  unfold gives at h
  rw [Option.bind_eq_some_iff] at h
  obtain ⟨x, hx, h⟩ := h
  dsimp only at h
  split at h
  · rename_i ha
    rw [Option.bind_eq_some_iff] at h
    obtain ⟨z, hz, h⟩ := h
    split at h
    · rename_i hl
      split at h
      · rename_i b ps hb
        rw [Option.map_eq_some_iff] at h
        obtain ⟨y, hy, rfl⟩ := h
        exact ⟨x, _, z, ps, hx, Prod.ext ha rfl, hz, hl.1, hl.2.1, hl.2.2, hb, rfl, hy⟩
      · cases h
    · cases h
  · cases h

/-- The message of `p` is handled, in a state, a session and with bytes of which `f` holds. -/
def handles (s : State) (op : Nat) (p : BcpPkt) (f : State × Session × List Byte → Bool) : Bool :=
  decide ((s.brd.booted = true ∧ s.ethUp = true ∧ p.magic = 0x4243 ∧ p.version = 1 ∧ p.flags / 32 = 0 ∧ bitOf p.flags 0 = false ∧
    bitOf p.flags 3 = false ∧ s.bcpSeen.leftOut = false ∧ s.bcpSeen.grp.headLost = false ∧ s.bcpSeen.isHead = true) ∧
    p.session ≠ 0 ∧ bitOf p.flags 1 = true ∧ op ≠ 2) && (gives s op p).any f

theorem handles_gives {s : State} {op : Nat} {p : BcpPkt} {f : State × Session × List Byte → Bool} (h : handles s op p f = true) :
    ∃ t y b, s.bcpGives op p t y b ∧ f (t, y, b) = true := by
  unfold handles at h
  rw [Bool.and_eq_true, decide_eq_true_eq] at h
  obtain ⟨⟨a, b, c, d⟩, h⟩ := h
  rw [Option.any_eq_true] at h
  obtain ⟨e, he, hf⟩ := h
  exact ⟨e.1, e.2.1, e.2.2, gives_of he a b c d, hf⟩

/-- The packet of session 1 with `SEQ` 5 and one byte, and the record that `SEQ` 5 has. -/
def five : BcpPkt := pkt 1 2 5 [1]
def fiveRec (n : Nat) (query : Bool) (final : Option Reply) : SeqRec := ⟨5, n, none, query, final⟩

/-- The message of that packet is handled in a session with those records and that newest `SEQ`. -/
def Handled (s : State) (op : Nat) (h : Option Nat) (l : List SeqRec) : Prop :=
  ∃ t y, s.bcpGives op five t y [1] ∧ y.high = h ∧ y.recs = l

theorem handled {s : State} {op : Nat} {h : Option Nat} {l : List SeqRec}
    (k : (gives s op five).map (fun e => (e.2.1.high, e.2.1.recs, e.2.2)) = some (h, l, [1])) (q : s.bcpServes five) (n : op ≠ 2) : Handled s op h l := by
  rw [Option.map_eq_some_iff] at k
  obtain ⟨e, he, hb⟩ := k
  simp only [Prod.mk.injEq] at hb
  exact ⟨e.1, e.2.1, hb.2.2 ▸ gives_of he q (by decide) (by decide) n, hb.1, hb.2.1⟩

theorem witness_PacketsAreCheckedAndClassified :
    let good := fun (p : BcpPkt) => p.magic = 0x4243 ∧ p.version = 1 ∧ p.flags / 32 = 0 ∧ bitOf p.flags 0 = false ∧ bitOf p.flags 3 = false
    (bcpCommands ≠ [] ∧ State.reset.brd.booted = false ∧ up.brd.booted = true ∧ up.ethUp = true ∧ (up.rput (.eth 0) 4 1 2 0).ethUp = false) ∧
    (({ five with magic := 0x4244 } : BcpPkt).magic ≠ 0x4243 ∧ five.magic = 0x4243 ∧ ({ five with version := 2 } : BcpPkt).version ≠ 1 ∧
      (pkt 1 32 5 []).flags / 32 ≠ 0 ∧ (pkt 1 31 5 []).flags / 32 = 0 ∧ bitOf (pkt 1 1 5 []).flags 0 = true) ∧
    good five ∧ (up.rput .aon 0x1C 17 1 1).bcpSeen.leftOut = true ∧
    (let s : State := { up with grp := { up.grp with headLost := true } }
     s.bcpSeen.leftOut = false ∧ s.bcpSeen.grp.headLost = true) ∧
    (member.bcpSeen.leftOut = false ∧ member.bcpSeen.grp.headLost = false ∧ member.bcpSeen.isHead = false) ∧
    (up.bcpSeen.leftOut = false ∧ up.bcpSeen.grp.headLost = false ∧ up.bcpSeen.isHead = true) ∧
    ((pkt 0 2 5 []).session = 0 ∧ bitOf (pkt 0 2 5 []).flags 1 = true ∧ (pkt 1 0 5 []).session ≠ 0 ∧ bitOf (pkt 1 0 5 []).flags 1 = false) ∧
    (up.bcpSeen.openSessions.find? (·.id == 1)).isNone = true ∧ (({ five with tagOk := false } : BcpPkt).tagOk = false ∧ five.tagOk = true) ∧
    (let s := fun (c h : Nat) => ({ up with svc := { Service.empty with sessions := [{ session 0 [] none [c] with ctrHigh := h }] } } : State)
     (∀ e ∈ [(1, 1), (5, 1024), (5, 1025)], ((s e.1 e.2).bcpSeen.openSessions.find? (·.id == five.session)).any (fun x => x.ctrSeen != [] &&
       decide (five.pktCtr + 1023 < x.ctrHigh ∨ five.pktCtr ∈ x.ctrSeen)) = decide (e ≠ (5, 1024)))) := by decide +kernel

/-- Classes of a message that need no digest: the newest `SEQ` is 2, and no record is held. -/
theorem witness_MessagesAreClassified :
    (∀ e ∈ [(1, SeqClass.new), (2, .new), (3, .new), (258, .new), (259, .window), (2 ^ 31 + 1, .window), (2 ^ 31 + 2, .stale), (2 ^ 32 - 254, .stale),
        (2 ^ 32 - 253, .new)], handles (inSession [] (some 2)) 0x10 (pkt 1 2 e.1 []) (fun x => decide (x.2.1.classify e.1 (digestOf x.2.2) = e.2)) = true) ∧
    handles { (inSession [] none).rput .aon 8 6 1 1 with grp := { up.grp with formed := false } } 0x10 five (fun x => x.2.1.high.isNone && !x.1.grp.formed) = true ∧
    handles { inSession [] none with grp := { up.grp with quiesced := true } } 0x32 five (fun x => x.1.grp.formed && x.1.notServing == some 0) = true ∧
    (let s := inSession [] none
     handles { s with svc := { s.svc with queues := Vector.replicate 4 (List.replicate 256 0) } } 0x32 five (fun x => x.1.grp.formed &&
       x.1.notServing.isNone && (x.1.classQueue (beAt x.2.2 0 1 % 4)).length == 256) = true) := by decide +kernel

/-- Classes of a message that is recorded: its digest is the record's or not. -/
theorem witness_MessagesComeAgain :
    (let r := fiveRec (digestOf [1]) false none
     Handled (inSession [r] (some 5)) 0x13 (some 5) [r] ∧ r.seq = 5 ∧ r.digest = digestOf [1] ∧ r.query = false ∧ r.final = none) ∧
    (let r := fiveRec (digestOf [1]) false (some (Reply.plain St.ok))
     Handled (inSession [r] (some 5)) 0x13 (some 5) [r] ∧ r.seq = 5 ∧ r.digest = digestOf [1] ∧ r.query = false ∧ r.final = some (Reply.plain St.ok)) ∧
    (let r := fiveRec (digestOf [1] + 1) false none
     Handled (inSession [r] (some 5)) 0x13 (some 5) [r] ∧ r.seq = 5 ∧ r.digest ≠ digestOf [1]) := by
  refine ⟨⟨?_, rfl, rfl, rfl, rfl⟩, ⟨?_, rfl, rfl, rfl, rfl⟩, ⟨?_, rfl, Nat.succ_ne_self _⟩⟩ <;>
    exact handled (by rfl) ⟨rfl, rfl, rfl, rfl, rfl, rfl, rfl, rfl, rfl, rfl⟩ (by decide)

theorem witness_SequenceWindow :
    (session 0 [] (some 2) []).high = some 2 ∧ (∀ d ∈ [0, 1, 256, 257, 2 ^ 31 - 1, 2 ^ 31, 2 ^ 32 - 256, 2 ^ 32 - 255, 2 ^ 32 - 1], d < 2 ^ 32) ∧
    (∀ r ∈ (session 0 [] (some 2) []).recs, r.seq ≠ 2) ∧
    (let y := session 0 [fiveRec 7 false none] (some 5) []
     y.recs.find? (·.seq == (5 + 0) % 2 ^ 32) = some (fiveRec 7 false none) ∧ (fiveRec 7 false none).digest = 7 ∧ (fiveRec 7 false none).digest ≠ 8) := by
  decide +kernel

/-! ### Queries and commands -/

/-- `n` bytes, zero but for those listed. -/
def bytesOf (n : Nat) (l : List (Nat × Byte)) : List Byte := (List.range n).map fun i => ((l.find? (·.1 == i)).map (·.2)).getD 0

/-- The images of the head: 7 is ACTIVE, 8 LOADING and 9 VERIFIED. -/
def images : List Image := [image, { image with id := 8, st := .loading }, { image with id := 9, st := .verified }]

/-- Image 7 with a region of kind 6, a schedule, a descriptor with `VOCAB` 2 and `CHUNK_TARGET` 2, and tokenizer tables. -/
def planMem : Mem :=
  { Mem.empty with cells := [(262, 2), (280, 2), (283, 0x40), (293, 0x20), (296, 6), (310, 1), (16394, 1), (16497, 0x80), (16504, 64), (16513, 0x60),
      (16520, 64), (32772, 2), (32784, 2)] }

/-- The head with those images and a session of a level. -/
def planned (level : Nat) : State :=
  { up with mem := planMem, svc := { Service.empty with images := images, sessions := [session level [] none []] } }

/-- For each command a payload that passes its checks. -/
def passing : List (Nat × List Byte) :=
  [(0x03, []), (0x04, bytesOf 24 [(0, 1), (3, 16)]), (0x13, bytesOf 36 [(11, 0xC0), (17, 1)]), (0x15, bytesOf 36 [(19, 4)]), (0x18, bytesOf 16 []),
   (0x19, []), (0x20, bytesOf 24 [(3, 5), (4, 1), (11, 1), (22, 4)]), (0x22, [0, 0, 0, 8]), (0x23, [0, 0, 0, 9]), (0x24, [0, 0, 0, 7]),
   (0x30, bytesOf 32 [(7, 7), (11, 1), (19, 1), (27, 1)]), (0x31, bytesOf 132 [(1, 1), (7, 7), (84, 1), (131, 1)]),
   (0x31, bytesOf 132 [(7, 7), (84, 1), (97, 0), (131, 65)]), (0x31, bytesOf 132 [(7, 7), (84, 1), (97, 1), (131, 1)]),
   (0x32, bytesOf 128 [(3, 1), (7, 7), (11, 64), (12, 1)]), (0x33, [0, 0, 0, 1])]

theorem witness_CommandsGetNumbers :
    (∀ e ∈ sequencedCommands, e.1 ∈ passing.map (·.1)) ∧
    (∀ e ∈ passing, handles (planned 0) e.1 (pkt 1 2 5 e.2) (fun x => decide (x.2.1.classify 5 (digestOf x.2.2) = .new) && x.1.grp.formed &&
      x.1.notServing.isNone && decide ((x.1.classQueue (beAt x.2.2 0 1 % 4)).length < 256) &&
      ((x.1.recorded e.1 (pkt 1 2 5 e.2) x.2.1 x.2.2).seqBad e.1 x.2.2).isNone) = true) ∧
    (∀ e ∈ passing, handles (planned 0) e.1 five (fun x => decide (x.2.1.classify 5 (digestOf x.2.2) = .new) && x.1.grp.formed &&
      x.1.notServing.isNone && decide ((x.1.classQueue (beAt x.2.2 0 1 % 4)).length < 256) &&
      ((x.1.recorded e.1 five x.2.1 x.2.2).seqBad e.1 x.2.2).isSome) = true) := by decide +kernel

/-- Queries that name a device: their payload with its address. -/
def ask (d : Byte) (n : Nat) (a : List (Nat × Byte)) (count : List (Nat × Byte)) : List Byte := bytesOf n ((0, d) :: a ++ count)

theorem witness_QueriesAreAnswered :
    (∀ e ∈ queryCommands, handles (planned 0) e.1 five (fun x => decide (x.2.1.classify 5 (digestOf x.2.2) = .new) && x.1.grp.formed) = true) ∧
    (up.cmd 1).isNone = true ∧ up.isMember up.devIndex = true ∧ up.devIndex < 64 ∧
    (∀ n ∈ [([(17, (1 : Byte))], 1), ([(16, 1)], 256)], let b := ask 0 32 [(11, 0xC0)] n.1
     b.length = 32 ∧ isZero b 1 7 = true ∧ isZero b 18 14 = true ∧ beAt b 0 1 = up.devIndex ∧ beAt b 16 2 = n.2 ∧ regRange (beAt b 8 8) n.2 = true ∧
     regRights ((planned 1).levelOf 1) false (beAt b 8 8) n.2 = true ∧ regRights (up.levelOf 1) false (beAt b 8 8 + 0x01000000) n.2 = false) ∧
    (∀ a ∈ [([], (0 : Nat)), ([(11, 0xC0)], 0xC000000000)], let b := ask 0 32 a.1 [(19, 4)]
     b.length = 32 ∧ isZero b 1 7 = true ∧ isZero b 20 12 = true ∧ beAt b 0 1 = up.devIndex ∧ beAt b 16 4 = 4 ∧ beAt b 8 8 = a.2) ∧
    (up.memStatus ((planned 1).levelOf 1) false 0 4 = none ∧ regionOf 0 ≠ .redWin ∧ up.memStatus 1 false 0xC000000000 4 = some St.addrNotPermitted) ∧
    (let b := ask 0 32 [] [(17, 128)]
     b.length = 32 ∧ isZero b 1 7 = true ∧ isZero b 18 14 = true ∧ beAt b 16 2 = 128) ∧
    (let b := ask 1 32 [(11, 0xC0)] [(16, 1)]
     let s : State := { member with devIndex := 0 }
     b.length = 32 ∧ isZero b 1 7 = true ∧ isZero b 18 14 = true ∧ s.isMember (beAt b 0 1) = true ∧ beAt b 0 1 ≠ s.devIndex ∧ beAt b 16 2 = 256 ∧
       regRange (beAt b 8 8) (beAt b 16 2) = true) := by decide +kernel

/-- A command of a number and opcode that is queued. -/
def command (n op : Nat) (q : Option Prompt) : CmdRec :=
  ⟨n, 1, 9, 5, op, 0, decide (op = 0x30 ∨ op = 0x31 ∨ op = 0x32), bytesOf 32 [(7, 7), (11, 1), (19, 1), (27, 1)], q, 0, 0, Reply.plain St.ok, 0, 0, false, false, 0,
    0, none⟩

/-- A prompt for image 7 whose tokens are known or not. -/
def prompt (ts : Option (List Nat)) : Prompt := { parsePrompt (bytesOf 132 [(7, 7), (84, 1), (97, 1), (131, 1)]) false 0 with tokens := ts }

/-- The head with commands in class 0, the group's last number 3. -/
def queued (cs : List CmdRec) : State :=
  let s := planned 0
  { s with grp := { s.grp with lastGseq := 3 }
           svc := { s.svc with cmds := cs, queues := Vector.ofFn fun k => if k = 0 then (cs.filter (·.run)).map (·.gseq) else [] } }

theorem witness_ManagementAndCommits :
    (up.isHead = true ∧ beAt ([] : List Byte) 0 1 = up.devIndex ∧ beAt [1] 0 1 ≠ up.devIndex) ∧
    (regRights ((planned 2).levelOf 1) true 0xC000000000 1 = true ∧ regRights ((planned 1).levelOf 1) true 0xC000000000 1 = false) ∧
    ((planned 2).memStatus ((planned 2).levelOf 1) true 0 4 = none ∧
      (planned 0).memStatus ((planned 0).levelOf 1) true 0xC000000000 4 = some St.addrNotPermitted) ∧
    (planned 0).imageBeginBad (bytesOf 24 [(3, 5), (4, 1), (11, 1), (22, 4)]) = none ∧
    ((planned 0).imageBad [0, 0, 0, 8] (· == .loading) = none ∧ (planned 0).imageBad [0, 0, 0, 9] (· == .verified) = none ∧
      (planned 0).imageBad [0, 0, 0, 7] (fun _ => true) = none) ∧
    (let s := queued [command 3 0x30 none]
     (s.cmd (beAt [0, 0, 0, 3] 0 4)).any (fun c => c.run && decide ((s.grp.lastGseq + 2 ^ 32 - 3) % 2 ^ 32 < 4096) && !c.final && !s.tilesDoneAll c &&
       !c.ownDone && c.state == 0) = true) ∧
    (beAt ([1] : List Byte) 2 1 = up.devIndex ∧ ((planned 0).session 1).any (fun x => !x.closing) = true ∧ (planned 0).levelOf 1 = 0 ∧ beAt [1] 0 1 = 1) ∧
    (let s := { queued [command 3 0x22 none] with svc := { (queued [command 3 0x22 none]).svc with images := [{ image with st := .verifying, gseq := 3 }] } }
     (s.image 7).any (fun g => g.st == .verifying && (s.cmd g.gseq).any fun c => c.opcode == 0x22 && !c.ownDone) = true) ∧
    (let s := queued [command 3 0x31 (some (prompt none))]
     let q := prompt none
     (s.cmd 3).any (fun c => c.prompt == some q && !c.ownDone) = true ∧ q.tokens = none ∧ (s.image q.imageId).any (fun g => (s.descr g).any fun d =>
       (s.tokTable g).any fun k => match k.encode q.text with
         | .ok ids => (s.tokensBad g d { q with tokens := some (q.pre ++ ids ++ q.post) }).isNone
         | .error _ => false) = true) := by decide +kernel

/-- A data packet of session 1: bit 3 of `FLAGS` is set. -/
def dataPkt (payload : List Byte) : BcpPkt := pkt 1 10 0 payload

/-- The device with what a data packet may fill: image 8, and page 0 that the host holds under handle 7. -/
def filling : State :=
  { planned 0 with svc := { (planned 0).svc with fetches := [{ fetch true false with handle := 7 }] } }

theorem witness_DataAndClearPackets :
    (up.brd.booted = true ∧ up.ethUp = true ∧ (dataPkt []).magic = 0x4243 ∧ (dataPkt []).version = 1 ∧ (dataPkt []).flags / 32 = 0 ∧
      bitOf (dataPkt []).flags 0 = false ∧ bitOf (dataPkt []).flags 3 = true ∧ bitOf (dataPkt []).flags 1 = true ∧ (dataPkt []).session ≠ 0) ∧
    ((pkt 0 8 0 []).session = 0 ∧ bitOf (pkt 0 8 0 []).flags 3 = true ∧ bitOf (pkt 1 8 0 []).flags 1 = false) ∧
    (let took := fun (p : BcpPkt) (f : State → Bool) => (filling.bcpSeen.openSessions.find? (·.id == p.session)).any fun x =>
       (filling.bcpSeen.acceptPkt x p).1 && f (filling.bcpSeen.acceptPkt x p).2
     let fits := fun (op : Nat) (p : BcpPkt) => decide (p.total = p.payload.length ∧ p.offset = 0 ∧ 16 ≤ p.payload.length ∧
       (p.payload.drop 16).length % 1024 = 0 ∧ (if op = 0x21 then beAt p.payload 8 8 else beAt p.payload 8 4) % 1024 = 0)
     (∀ op ∈ [0x21, 0x41], fits op (dataPkt (bytesOf 17 [])) = false ∧ fits op (dataPkt (bytesOf 15 [])) = false) ∧
     took (dataPkt (bytesOf 17 [])) (fun _ => true) = true ∧
     (let p := dataPkt (bytesOf 1040 [(3, 8), (14, 0xFC)])
      fits 0x21 p = true ∧ took p (fun t => (t.image (beAt p.payload 0 4)).any fun g => g.st == .loading &&
        decide (beAt p.payload 8 8 + 1024 = g.partBytes)) = true) ∧
     (let p := dataPkt (bytesOf 1040 [(7, 7), (10, 4)])
      fits 0x41 p = true ∧ took p (fun t => (t.pageBytes (beAt p.payload 0 8) 1024 (bitOf (beAt p.payload 12 1) 0) (p.payload.drop 16)).isSome) = true) ∧
     (let p := dataPkt (bytesOf 1040 [(7, 6)])
      fits 0x41 p = true ∧ took p (fun t => (t.awaited (beAt p.payload 0 8)).isEmpty) = true)) ∧
    (let p := pkt 0 0 0 [0]
     p.session = 0 ∧ bitOf p.flags 1 = false ∧ p.seq = 0 ∧ p.total ≤ 0x1000000 ∧ p.offset + p.payload.length ≤ p.total ∧ p.total ≤ p.payload.length ∧
       p.payload.length ≤ up.bcpSeen.countAttest.maxLen ∧ p.payload.length ≤ up.bcpSeen.maxLen) ∧
    ((up.bcpSeen.attestFull = false ∧ up.bcpSeen.grp.formed = true) ∧
      (let s : State := { up.rput .aon 8 6 1 1 with svc := { Service.empty with attests := List.replicate 255 0 }, grp := { up.grp with formed := false } }
       s.bcpSeen.attestFull = true ∧ s.bcpSeen.grp.formed = false ∧ s.bcpSeen.isHead = true)) ∧
    (∀ op ∈ [0, 0xFF, 0xFFFF], handles (planned 0) op five (fun x => decide (x.2.1.classify 5 (digestOf x.2.2) = .new) && x.1.grp.formed) = true ∧
      isQuery op = false ∧ isSequenced op = false) := by decide +kernel

theorem witness_bcpServes : up.bcpServes (pkt 0 0 0 [0]) := by
  unfold State.bcpServes
  decide +kernel

/-- A context that has drained. -/
def drained : State := tile [.signal 0] |>.setCtx 1 (some { ctx [.signal 0] with draining := true })

theorem witness_CommandsAndChunksStart :
    (∀ op ∈ [0x30, 0x32], let s := queued [command 2 op none, command 3 0x30 none]
     s.classQueue 0 = [2, 3] ∧ s.cmd 2 = some (command 2 op none) ∧ (command 2 op none).prompt = none ∧ s.ctx 0 = none ∧ s.mayStart = true ∧
       (command 2 op none).opcode = op) ∧
    (∀ e ∈ [(some [1], false, false), (some [1, 1], false, true), (some [1], true, true)], ∀ d ∈ [0, 1],
      let q := { prompt e.1 with expired := e.2.1 }
      let s := { queued [command 3 0x31 (some q)] with devIndex := d }
      s.frontPrompts 0 = [q] ∧ s.ctx 0 = none ∧ s.mayStart = true ∧ s.isHead = (d == 0) ∧ (s.image q.imageId).any (fun g => (s.descr g).any fun x =>
        decide (x.chunkTarget ≤ ([q].map fun p => (p.tokens.getD []).length).sum ∨ ∃ p ∈ [q], p.expired = true) == e.2.2) = true) ∧
    (let s := queued [command 2 0x30 none, command 3 0x31 (some (prompt none))]
     s.cmd 2 = some (command 2 0x30 none) ∧ (command 2 0x30 none).prompt = none ∧
       s.cmd 3 = some (command 3 0x31 (some (prompt none))) ∧ (command 3 0x31 (some (prompt none))).state = 0) ∧
    ((drained.ctx 1).any (fun x => x.draining && !x.frozen) = true ∧ ∀ c ∈ drained.slotCores 1, ∀ u < 8, ((drained.core c).unit u).cur = none) ∧
    (let s := (drained.setCtx 0 (some { ctx [.signal 0] with draining := true })).modCore 0 fun x => CoreState.setUnit x 0 ⟨none, none, false, 0⟩
     s.slotCores 0 = [0] ∧ ∀ c ∈ s.slotCores 0, ∀ u < 8, ((s.core c).unit u).cur = none) := by decide +kernel

/-! ### The Ethernet port, resets and the board -/

/-- A device whose port has its addresses. -/
def addressed : State :=
  [(0x14, 1), (0x1C, 1), (0x24, 0x0A000001)].foldl (fun s e => s.rset (.eth 0) e.1 (BitVec.ofNat 32 e.2)) up

theorem witness_EthernetServices :
    (up.brd.booted = true ∧ up.ethUp = true ∧ State.reset.brd.booted = false ∧ State.reset.ethUp = false) ∧
    (bitOf (up.rfield (.eth 0) 0xC 16 8) 7 = false ∧ bitOf ((up.rput (.eth 0) 0xC 16 8 0x80).rfield (.eth 0) 0xC 16 8) 7 = true) ∧
    (addressed.addressed = true ∧ addressed.brd.booted = true ∧ addressed.brd.deep = false ∧ addressed.regsWf) ∧ up.addressed = false := by decide +kernel

/-- The device with connection 63 in a state. -/
def linked (x : Conn) (clk : Nat) : State :=
  { up.modSvc fun v => { v with conns := v.conns.set 63 x } with aonClk := clk }

/-- A connection that is ready, with a message of two packets sent, at the end of the packet numbers, and its retry counts 1. -/
def flying : Conn :=
  { Conn.empty with st := .ready, psn := 1, acked := 0xFFFFFF, unacked := [⟨3, false, 0, [], 0xFFFFFF, 2⟩], ctrl := 0x120 }

theorem witness_RoceConnections :
    (up.brd.booted = true ∧ up.ethUp = true) ∧
    (∀ n ∈ [0, 2, 3], let x := { Conn.empty with st := .requested, reqs := n }
     let s := linked x 0
     (s.conn 63).st = .requested ∧ ((s.count48 (.eth 0) 0x48 1).wakeOn).conn 63 = s.conn 63 ∧ (s.conn 63).reqs = n) ∧
    ((regionOfRep (bytesOf 32 [(0, 0x52), (1, 0x45), (2, 0x47), (3, 0x53), (4, 1)])).isSome = true ∧ regionOfRep [] = none) ∧
    (let s := linked flying 0
     (s.conn 63).st = .ready ∧ (s.conn 63).unacked ≠ [] ∧ (s.conn 63).retries < field (s.conn 63).ctrl.toNat 5 3 ∧ (s.conn 63).inFlight = 2 ∧
       (s.conn 63).acked < 2 ^ 24 ∧ 1 ≤ (s.conn 63).inFlight) ∧
    (let s := linked { flying with retries := 1 } 0
     (s.conn 63).st = .ready ∧ (s.conn 63).unacked ≠ [] ∧ field (s.conn 63).ctrl.toNat 5 3 ≤ (s.conn 63).retries) ∧
    (∀ n ∈ [0, 1], let s := linked { flying with rnrs := n } 0
     let t := (s.count48 (.eth 1) 0x38 1).ackUpTo 63 (0xFFFFFF % 2 ^ 24)
     (t.conn 63).acked = (s.conn 63).acked ∧ (s.conn 63).rnrs = n ∧ decide (field (t.conn 63).ctrl.toNat 8 3 ≤ n) = (n == 1)) ∧
    (let s := linked { flying with rnrs := 1 } 0
     let t := (s.count48 (.eth 1) 0x38 1).ackUpTo 63 (0 % 2 ^ 24)
     (t.conn 63).acked ≠ (s.conn 63).acked) ∧
    ((linked { flying with rnrWait := true } 0).conn 63).rnrWait = true ∧
    (∀ e ∈ [(0, 0, true), (1, 5001, true), (1, 5000, false)], let s := linked { flying with cnpAt := e.1 } e.2.1
     let seen := (s.count48 (.eth 0) 0x48 1).wakeOn
     (s.conn 63).st = .ready ∧ seen.conn 63 = s.conn 63 ∧ seen.aonClk = s.aonClk ∧
       decide ((s.conn 63).cnpAt = 0 ∨ (s.conn 63).cnpAt + 5000 ≤ s.aonClk) = e.2.2) ∧
    (let s := linked { flying with cnpAt := 1 } 5001
     (s.conn 63).st = .ready ∧ (s.conn 63).cnpAt + 5000 ≤ s.aonClk) := by decide +kernel

/-- Boot flash whose slots are good or not, and the pins. -/
def flash (a b : Bool) : Flash := ⟨true, ⟨a, 0, false, 0⟩, ⟨b, 0, false, 0⟩, false, 0, [], 0, []⟩
def pins (index : Fin 64) : Pins := ⟨true, index, 0, false, []⟩

/-- A device of a lifecycle whose supplies are up and that is in reset, or has left it. -/
def powered (resetN : Bool) (life : Nat) : State :=
  { State.reset with brd := { State.reset.brd with pwrgood := true, resetN := resetN }
                     sec := { State.reset.sec with fuses := { State.reset.sec.fuses with lifecycle := life } } }

theorem witness_ResetsAndStartUp :
    ((powered true 1).brd.pwrgood = true ∧ (powered true 1).brd.resetN = true ∧ (powered true 1).brd.thermtrip = false ∧ (powered true 1).regsWf ∧
      (powered false 1).brd.pwrgood = true ∧ (powered false 1).brd.resetN = false) ∧
    (let s := powered true 1
     ({ s with brd := { s.brd with brownRails := [7] } } : State).brd.brownRails = [(7 : Fin 8).val]) ∧
    ((pins 63).testMode = false ∧ (powered true 1).brd.brownRails = [] ∧ (pins 63).bootSrc ≠ 2 ∧ (pins 63).bootSrc ≠ 3) ∧
    (∀ life ∈ [1, 2], ∀ e ∈ [(true, false), (false, true), (false, false)],
      let t := ((powered true life).toSt 1).startSt 0 0
      (t.sec.fuses.lifecycle = 1 ∨ t.sec.fuses.lifecycle = 2) ∧ t.slotBoots (flash e.1 e.2) (flash e.1 e.2).slotA = e.1 ∧
        (t.bootRec 0).slotBoots (flash e.1 e.2) (flash e.1 e.2).slotB = e.2) := by decide +kernel

theorem witness_StartUpCompletes :
    (let s : State := { up with brd := { up.brd with steps := [] } }
     s.brd.booted = true ∧ 8 ∉ s.brd.steps ∧ s.regsWf ∧ ([79] : List (Fin 80)) ≠ []) ∧
    (8 ∈ up.brd.steps ∧ 12 ∈ up.brd.steps) ∧
    (let s : State := { up with sec := { up.sec with regen := true, exhaustedGen := false, fuses := { up.sec.fuses with topUsed := 1022 } } }
     s.sec.regen = true ∧ s.sec.fuses.topUsed + 1 < 1024 ∧ s.sec.exhaustedGen = false) ∧ up.sec.regen = false ∧
    (let s : State := { up with sec := { up.sec with leaf := 31744, nextTree := false, regen := false, tree := some 1, fuses := { up.sec.fuses with topUsed := 1023 } } }
     31744 ≤ s.sec.leaf ∧ s.sec.nextTree = false ∧ s.sec.regen = false ∧ s.sec.fuses.topUsed < 1024 ∧ s.sec.tree ≠ none) ∧ up.sec.leaf < 31744 ∧
    (let s : State := { up with brd := { up.brd with steps := [8, 9, 10, 11] }, links := { up.links with ports := up.links.ports.map fun x => { x with tried := true } } }
     s.brd.booted = true ∧ 12 ∉ s.brd.steps ∧ (∀ q < 8, (s.port q).tried = true) ∧ 8 ∈ s.brd.steps ∧ 11 ∈ s.brd.steps ∧ s.leftOut = false ∧
       s.grp.left = false ∧ s.brd.gandersLost = 0 ∧ 24 ≤ s.liveCores.length) := by decide +kernel

theorem witness_BoardPorts :
    (6 ∉ up.brd.brownRails ∧ 7 ∉ up.brd.brownRails ∧ (0 : BitVec 8) ≠ 0xD5 ∧ up.brd.thermtrip = false ∧ 12 ∈ up.brd.steps ∧
      State.reset.brd.deep = false ∧ 12 ∉ State.reset.brd.steps) ∧
    (∀ r ∈ [6, 7], r ∈ ({ up with brd := { up.brd with brownRails := [r] } } : State).brd.brownRails) ∧
    ((powered true 1).brd.pwrgood = true ∧ (powered true 1).brd.brownRails = []) ∧
    (regBase < 2 ^ 48 ∧ (Page.ofAddr regBase).isSome = true) ∧
    (∀ l ∈ [0, 1, 2], ({ powered true 1 with sec := { (powered true 1).sec with tapLevel := l } } : State).portLevel = l) ∧
    (let s : State := { powered true 1 with
       svc := { Service.empty with challenges := [⟨0, [], 0⟩] }
       sec := { (powered true 1).sec with fuses := { (powered true 1).sec.fuses with owners := Vector.replicate 4 ⟨true, false, 0, 0⟩ } } }
     let t := s.tapTo .dbgResp .normal
     t.debugLocked = false ∧ t.challengeValid 0 = true ∧ t.signerActive 4 = true ∧ t.signerActive 5 = false ∧ s.mayFuse = false) ∧
    ((powered true 1).challengeValid 0 = false ∧ ((powered true 1).rset .sec 0x1C 8).debugLocked = true) ∧
    ((powered true 1).mayFuse = true ∧ ∀ k : Fin 4, ((powered true 1).sec.fuses.owners[k]).programmed = false) := by decide +kernel

/-! ### Well-formed commands

Each check refuses a term that exceeds it by one, and takes the term at its edge. -/

theorem test_wf_thread_access :
    (Instr.threadLoad 0 0 (2 ^ 54 - 1) 64 false).wf = true ∧ (Instr.threadLoad 0 0 (2 ^ 54) 64 false).wf = false ∧
    (Instr.threadLoad 0 0 0 65 false).wf = false ∧ (Instr.threadStore 0 0 0 (List.replicate 64 0)).wf = true ∧
    (Instr.threadStore 0 0 (2 ^ 54) []).wf = false ∧ (Instr.threadStore 0 0 0 (List.replicate 65 0)).wf = false := by decide +kernel

theorem test_wf_codes_and_numbers :
    (Instr.segmentAcknowledged 0 0 0 0xFFFF).wf = true ∧ (Instr.segmentAcknowledged 0 0 0 0x10000).wf = false ∧
    (Instr.muleComplete 0 0 0x10000).wf = false ∧ (Instr.maxHold (2 ^ 32)).wf = false ∧ (Instr.tokenize (2 ^ 32)).wf = false ∧
    (Instr.nak 0 4096).wf = false ∧ (Instr.handover 0 0 4096).wf = false ∧ (Instr.reservedOpcode 0x10000 five).wf = false ∧
    (Instr.registerWrite (.gander 0) (2 ^ 48) 4 0).wf = false ∧ (Instr.registerWrite (.gander 0) 0 0 0).wf = false ∧
    (Instr.registerWrite (.gander 0) 0 65 0).wf = false ∧ (Instr.regAccess (2 ^ 48) 0 false).wf = false := by decide +kernel

theorem test_wf_lengths :
    (Instr.pageFetchComplete 0 []).wf = false ∧ (Instr.tjSample (List.replicate 67 0)).wf = true ∧ (Instr.tjSample (List.replicate 66 0)).wf = false ∧
    (Instr.marginTrim (List.replicate 47 0)).wf = false ∧ (Instr.evaluationWindow (window 0)).wf = true ∧
    (Instr.evaluationWindow { window 0 with railMa := [] }).wf = false ∧ (Instr.evaluationWindow { window 0 with energy := [] }).wf = false ∧
    (Instr.evaluationWindow { window 0 with coreEnergy := [] }).wf = false ∧ (Instr.flitDiscard 0 (List.replicate 359 0)).wf = false ∧
    (Instr.train 0 16 (List.replicate 6 0)).wf = false ∧ (Instr.train 0 15 [0]).wf = false ∧ (Instr.memoryTrained [79, 79]).wf = false := by
  decide +kernel

theorem test_wf_flit :
    let f := flit 15 3 63 (2 ^ 48 - 1) 0xFFFF (2 ^ 32 - 1) true [⟨0, false⟩]
    let t : Trailer := ⟨4095, 4095, 3, 63, 12⟩
    (Instr.write 0 f t).wf = true ∧ (Instr.write 0 { f with ftype := 16 } t).wf = false ∧ (Instr.read 0 { f with vc := 4 } t).wf = false ∧
    (Instr.rdata 0 { f with dst := 64 } t).wf = false ∧ (Instr.ack 0 { f with src := 64 } t).wf = false ∧
    (Instr.mule 0 { f with addr := 2 ^ 48 } t).wf = false ∧ (Instr.reduce 0 { f with tid := 0x10000 } t).wf = false ∧
    (Instr.pieceEnd 0 { f with aux := 2 ^ 32 } t).wf = false ∧ (Instr.linkFlitInvalid 0 { f with words := [] } t).wf = false ∧
    (Instr.write 0 { f with words := List.replicate 65 ⟨0, false⟩ } t).wf = false ∧ (Instr.idle 0 { t with seq := 4096 }).wf = false ∧
    (Instr.idle 0 { t with ack := 4096 }).wf = false ∧ (Instr.idle 0 { t with cvc := 4 }).wf = false ∧ (Instr.idle 0 { t with cred := 64 }).wf = false ∧
    (Instr.idle 0 { t with fixed := 13 }).wf = false ∧ (Instr.datagramReceive 0 256 0 0 [] []).wf = false ∧
    (Instr.datagramReceive 0 1 (2 ^ 32) 0 [] []).wf = false ∧ (Instr.datagramReceive 0 1 0 (2 ^ 32) [] []).wf = false ∧
    (Instr.datagramReceive 0 1 0 0 [{ f with vc := 4 }] []).wf = false := by decide +kernel

theorem test_wf_messages :
    (Instr.heartbeat (msg 63 63 [])).wf = true ∧ (Instr.heartbeat (msg 64 0 [])).wf = false ∧ (Instr.arrive (msg 0 64 [])).wf = false ∧
    (Instr.done { msg 0 0 [] with tr := trail 4096 }).wf = false ∧ (Instr.exec five).wf = true ∧ (Instr.exec { five with magic := 0x10000 }).wf = false ∧
    (Instr.score { five with version := 256 }).wf = false ∧ (Instr.cancel { five with flags := 256 }).wf = false ∧
    (Instr.attest { five with session := 2 ^ 32 }).wf = false ∧ (Instr.readReg { five with seq := 2 ^ 32 }).wf = false ∧
    (Instr.memRead { five with total := 2 ^ 32 }).wf = false ∧ (Instr.memWrite { five with offset := 2 ^ 32 }).wf = false ∧
    (Instr.setConfig { five with pktCtr := 2 ^ 64 }).wf = false := by decide +kernel

/-! ### Single steps -/

/-- What a command put out last. -/
def answered (s : State) (i : Instr) : Option Output :=
  match exec i s with
  | .next t => t.out.getLast?
  | _ => none

/-- The words that chain instructions compute: binary32 results by hand. -/
theorem test_chain_functions :
    fAdd 0x3F800000 0x40000000 = 0x40400000 ∧ fSub 0x3F800000 0x3F800000 = 0 ∧ fMul 0x40000000 0xC0400000 = 0xC0C00000 ∧
    fMax 0xBF800000 0x3F800000 = 0x3F800000 ∧ fMin 0xBF800000 0x3F800000 = 0xBF800000 ∧ fNeg 0x3F800000 = 0xBF800000 ∧
    fAbs 0xBF800000 = 0x3F800000 ∧ fFma 0x40000000 0x40400000 0x3F800000 = 0x40E00000 := by decide +kernel

theorem test_idcode : answered State.reset .idcode = some (.tap 32 0x1D48055B) := by decide +kernel

/-- The temperature in quarters of a degree (R437): 100.25 °C. -/
theorem test_temp : answered (up.rput (.pwr 0) 0x30 0 10 0x191) .temp = some (.smbus [0x91, 0x01]) := by decide +kernel

end Sys2Proof.Tests
end

section
/-! PROOFS. The register file takes naturally aligned 32-bit words only (R9): where an address of a page lies (R29, R148), and what a malformed
access does (R9, R11). -/

namespace Sys2Proof.Machine

/-! ### Addresses of pages -/

/-- A page lies within register space (R29). -/
theorem Page.ofAddr_range {a off : Nat} {p : Page} (h : Page.ofAddr a = some (p, off)) : regBase ≤ a ∧ a < regEnd := by
  by_contra inside
  have outside : a < regBase ∨ regEnd ≤ a := by omega
  unfold Page.ofAddr at h
  rw [if_pos outside] at h
  cases h

/-- The map of the whole address space (R148) agrees with that of the pages. -/
theorem regionOf_of_ofAddr {a off : Nat} {p : Page} (h : Page.ofAddr a = some (p, off)) : regionOf a = .reg := by
  obtain ⟨lo, hi⟩ := Page.ofAddr_range h
  have below : ¬a < 0x8030000000 := by unfold regBase at lo; omega
  unfold regionOf sramBase kvTableBase
  rw [if_neg (by omega), if_neg (by omega), if_neg (by omega), if_neg (by omega), if_neg (by omega), if_neg (by omega), if_neg below,
    if_neg (by omega), if_pos hi]

/-- An address of a page is local: it names no device. -/
theorem local_of_ofAddr {a off : Nat} {p : Page} (h : Page.ofAddr a = some (p, off)) : a < 2 ^ 48 := by
  obtain ⟨-, hi⟩ := Page.ofAddr_range h
  unfold regEnd at hi
  omega

/-- Threads are not turned away from register space as such; what a page allows is settled there (R30). -/
theorem threadRefusal_of_ofAddr {a off : Nat} {p : Page} (s : State) (write : Bool) (h : Page.ofAddr a = some (p, off)) :
    s.threadRefusal write a = none := by
  unfold State.threadRefusal
  rw [if_neg (Nat.not_le.mpr (local_of_ofAddr h)), regionOf_of_ofAddr h]

/-! ### Malformed accesses -/

/-- A write of another width, or an unaligned one, only rejects (R9). -/
theorem regWrite_malformed {s : State} {by_ : Agent} {a width off : Nat} {p : Page} (v : Word) (h : Page.ofAddr a = some (p, off))
    (right : s.mayWrite by_ p = true) (bad : width ≠ 4 ∨ off % 4 ≠ 0) : s.regWrite by_ a width v = s.reject p := by
  simp only [State.regWrite, h, right, Bool.not_true, Bool.false_eq_true, if_false, if_pos bad]

/-- An unaligned read answers zero and rejects (R9). -/
theorem regRead_unaligned {s : State} {by_ : Agent} {a off : Nat} {p : Page} (h : Page.ofAddr a = some (p, off))
    (right : s.mayRead by_ p = true) (bad : off % 4 ≠ 0) : s.regRead by_ a = (0, s.reject p) := by
  simp only [State.regRead, h, right, Bool.not_true, Bool.false_eq_true, if_false, if_pos bad]

/-! ### Threads in register space -/

/-- A thread's store to a page is a register write of as many bytes as it has. -/
theorem exec_threadStore_of_ofAddr {a off : Nat} {p : Page} (s : State) (c : Fin 48) (t : Fin 16) (data : List Byte)
    (h : Page.ofAddr a = some (p, off)) :
    exec (.threadStore c t a data) s = .next (s.regWrite (.thread c t) a data.length (BitVec.ofNat 32 (leNat data))).settle := by
  change execThreadStore c t a data s = _
  simp only [execThreadStore, threadRefusal_of_ofAddr s true h, Nat.mod_eq_of_lt (local_of_ofAddr h), regionOf_of_ofAddr h, if_true, settled]

/-- A thread's load of one word from a page is a register read. -/
theorem exec_threadLoad_word_of_ofAddr {a off : Nat} {p : Page} (s : State) (c : Fin 48) (t : Fin 16) (tp : Bool)
    (h : Page.ofAddr a = some (p, off)) :
    exec (.threadLoad c t a 4 tp) s =
      .next ((s.regRead (.thread c t) a).2.emit (.loaded c t [⟨(s.regRead (.thread c t) a).1, false⟩])) := by
  change execThreadLoad c t a 4 tp s = _
  simp only [execThreadLoad, State.threadLoad, threadRefusal_of_ofAddr s false h, Nat.mod_eq_of_lt (local_of_ofAddr h), regionOf_of_ofAddr h,
    if_true, ne_eq, not_true_eq_false, if_false]

/-- A thread's load of another width from a page answers zeros and rejects (R9). -/
theorem exec_threadLoad_malformed {s : State} {c : Fin 48} {t : Fin 16} {a bytes off : Nat} {p : Page} (tp : Bool)
    (h : Page.ofAddr a = some (p, off)) (right : s.mayRead (.thread c t) p = true) (bad : bytes ≠ 4) :
    exec (.threadLoad c t a bytes tp) s =
      .next ((s.reject p).emit (.loaded c t (List.replicate (wordsOver a bytes) ⟨0, false⟩))) := by
  change execThreadLoad c t a bytes tp s = _
  simp only [execThreadLoad, State.threadLoad, threadRefusal_of_ofAddr s false h, Nat.mod_eq_of_lt (local_of_ofAddr h), regionOf_of_ofAddr h,
    if_true, if_pos bad, h, right]

/-! ### The status register of a page -/

/-- Every page but the mailboxes of the Ganders, which list nothing, reports to a page whose map lists offset 4. -/
theorem Page.statusPage_row_isSome (p : Page) (h : ∀ n, p ≠ .gnd n) : (p.statusPage.row 4).isSome = true := by
  cases p with
  | gnd n => exact absurd rfl (h n)
  | eth k =>
    by_cases own : k = 1 ∨ k = 3
    · rcases own with rfl | rfl <;> rfl
    · simp only [Page.statusPage, if_neg own]
      rfl
  | lnk q =>
    by_cases port0 : q = 0
    · subst port0
      rfl
    · simp only [Page.statusPage, Page.row, Page.defs, if_neg port0]
      rfl
  | _ => rfl

/-- Rejecting sets bit 0 of that register. -/
theorem State.reject_eq_ror (s : State) {p : Page} (h : ∀ n, p ≠ .gnd n) : s.reject p = s.ror p.statusPage 4 1 := by
  obtain ⟨r, found⟩ := Option.isSome_iff_exists.mp (Page.statusPage_row_isSome p h)
  simp only [State.reject, found]

/-- Settles O9: an address of a page reaches the register file from every agent, where the test of width and alignment comes before any effect.
The last clause names offset 4 of the page that is reported to, as the model has it: on the second `ETH` page that offset is `ETH_RC_CTRL`, while R11
puts `CFG_REJECT` of that page into `ETH_RC_STATUS` at offset 0, so for that page the clause is about the model and not about R11. -/
theorem registerWidthAndAlignment : Obligations.RegisterWidthAndAlignment := by
  unfold Obligations.RegisterWidthAndAlignment
  intro s a p off h
  refine ⟨fun by_ width v right bad => ?_, fun c t data right bad => ?_, fun by_ right bad => regRead_unaligned h right bad,
    fun c t bytes tp right => ⟨fun bad => exec_threadLoad_malformed tp h right bad, fun bad => ?_⟩, s.reject_eq_ror⟩
  · rw [← regWrite_malformed v h right bad]
    rfl
  · rw [exec_threadStore_of_ofAddr s c t data h, regWrite_malformed _ h right bad]
  · rw [exec_threadLoad_word_of_ofAddr s c t tp h, regRead_unaligned h right bad]

end Sys2Proof.Machine
end

section
/-! PROOFS. Local LPDDR5X addresses interleave over 80 channels in 256-byte chunks (R160): which chunks have storage (R148), how many of them a channel
stores, and that no two addresses share a place in a channel. -/

namespace Sys2Proof.Machine

/-! ### Storage of the chunks -/

/-- The chunks below 536,870,880 = 80 × 6,710,886 are stored. -/
theorem regionOf_of_chunk_lt {a : Nat} (stored : a / 256 < 536870880) : regionOf a = .lpddr :=
  if_pos ((Nat.div_lt_iff_lt_mul (by decide)).mp stored)

/-- From there to stacked SRAM nothing is mapped: the reserved range of R148. -/
theorem regionOf_reserved {a : Nat} (below : a < sramBase) (past : 536870880 ≤ a / 256) : regionOf a = .unmapped := by
  have noStorage : ¬a < 0x1FFFFFE000 := by omega
  unfold regionOf
  rw [if_neg noStorage, if_pos below]

theorem regionOf_eq_lpddr_iff {a : Nat} (below : a < sramBase) : regionOf a = .lpddr ↔ a / 256 < 536870880 := by
  refine ⟨fun h => ?_, regionOf_of_chunk_lt⟩
  by_contra past
  rw [regionOf_reserved below (Nat.le_of_not_lt past)] at h
  cases h

/-! ### The share of a channel -/

/-- Among the first `k` rounds of `r` chunks a channel takes one of each round. -/
theorem card_filter_mod_eq_range_mul {r n : Nat} (k : Nat) (h : n < r) : ((Finset.range (k * r)).filter fun j => j % r = n).card = k := by
  have count := Nat.count_modEq_card (k * r) (Nat.zero_lt_of_lt h) n
  rw [Nat.count_eq_card_filter_range, Nat.mul_mod_left, Nat.mul_div_cancel _ (Nat.zero_lt_of_lt h), if_neg (Nat.not_lt_zero _)] at count
  simpa only [Nat.ModEq, Nat.mod_eq_of_lt h, Nat.add_zero] using count

/-! ### The place within a channel -/

/-- The data offset of an address in its channel (R160). -/
def chunkOffset (a : Nat) : Nat := a / 256 / 80 * 256 + a % 256

/-- Channel and data offset give the address back: the offset's quotient by 256 is the round, its remainder the byte. -/
theorem addr_of_channel_offset (a : Nat) : (chunkOffset a / 256 * 80 + channelOf a) * 256 + chunkOffset a % 256 = a := by
  unfold chunkOffset channelOf
  omega

/-- Settles O12: chunk and channel are quotient and remainder of the address, and the 80 channels share the stored chunks evenly. That
no two addresses share a place needs no storage behind them: it holds of the map alone. -/
theorem lpddrInterleave : Obligations.LpddrInterleave := by
  unfold Obligations.LpddrInterleave
  refine ⟨fun a below => ⟨regionOf_eq_lpddr_iff below, regionOf_reserved below⟩, fun a => rfl,
    fun n h => card_filter_mod_eq_range_mul 6710886 h, fun a b _ _ channel offset => ?_⟩
  change chunkOffset a = chunkOffset b at offset
  rw [← addr_of_channel_offset a, ← addr_of_channel_offset b, channel, offset]

end Sys2Proof.Machine
end

section
/-! PROOFS. What every step does, whatever its command: it takes the command at the front of the queue, and what no operation undoes (`Keep`) no
step undoes. -/

namespace Sys2Proof.Machine

open Sys2Proof

/-! ### The clock -/

/-- `t` differs from `s` in stored register values only. -/
def State.RegsOnly (s t : State) : Prop := t = { s with regs := t.regs }

theorem State.RegsOnly.refl (s : State) : s.RegsOnly s := rfl

theorem State.RegsOnly.rset {s t : State} (p : Page) (off : Nat) (v : Word) (h : s.RegsOnly t) : s.RegsOnly (t.rset p off v) := by
  unfold State.RegsOnly at h
  rw [h]
  rfl

theorem State.RegsOnly.ror {s t : State} (p : Page) (off mask : Nat) (h : s.RegsOnly t) : s.RegsOnly (t.ror p off mask) := h.rset ..

theorem State.RegsOnly.rclr {s t : State} (p : Page) (off mask : Nat) (h : s.RegsOnly t) : s.RegsOnly (t.rclr p off mask) := h.rset ..

theorem State.RegsOnly.rput {s t : State} (p : Page) (off lo width v : Nat) (h : s.RegsOnly t) : s.RegsOnly (t.rput p off lo width v) := h.rset ..

theorem State.RegsOnly.count48 {s t : State} (p : Page) (off n : Nat) (h : s.RegsOnly t) : s.RegsOnly (t.count48 p off n) := (h.rset ..).rset ..

theorem State.RegsOnly.count64 {s t : State} (p : Page) (off n : Nat) (h : s.RegsOnly t) : s.RegsOnly (t.count64 p off n) := (h.rset ..).rset ..

theorem State.RegsOnly.foldl {α : Type} {s t : State} {g : State → α → State} (l : List α) (hg : ∀ t a, s.RegsOnly t → s.RegsOnly (g t a))
    (h : s.RegsOnly t) : s.RegsOnly (l.foldl g t) := foldl_keeps (P := s.RegsOnly) hg l h

theorem State.RegsOnly.tickCores {s t : State} (h : s.RegsOnly t) : s.RegsOnly t.tickCores := by
  unfold State.tickCores
  split
  · exact h
  · refine .foldl _ (fun t c ht => ?_) h
    split
    · exact ht
    · exact ht.count64 ..

theorem State.RegsOnly.tickReasons {s t : State} (h : s.RegsOnly t) : s.RegsOnly t.tickReasons :=
  State.RegsOnly.ror (h := .foldl _ (fun _ _ ht => ht.count64 ..) h) ..

/-- One count of the clock changes the clock and, once the firmware has booted, registers. -/
theorem State.regsOnly_tick (s : State) : ({ s with aonClk := s.aonClk + 1 } : State).RegsOnly s.tick := by
  unfold State.tick
  split
  · exact .tickReasons (.tickCores (.refl _))
  · exact .refl _

theorem keep_tick (s : State) : Keep s s.tick := by
  have clock : Keep s { s with aonClk := s.aonClk + 1 } := Keep.refl s
  unfold State.tick
  split
  · exact keep_tickReasons (keep_tickCores clock)
  · exact clock

theorem step_of_empty {s : State} (h : s.pending = []) : step s = .next s.tick := by
  unfold step
  rw [h]

/-- Settles O2: a count of the clock touches the clock and registers. -/
theorem idleStepCountsClock : Obligations.IdleStepCountsClock := by
  unfold Obligations.IdleStepCountsClock
  intro s empty
  refine ⟨fun off => ?_, s.tick, step_of_empty empty, ?_⟩
  · simp [step_of_empty empty, State.tick, off]
  · rw [s.regsOnly_tick]
    exact ⟨rfl, empty, rfl, rfl, rfl, rfl, rfl, rfl, rfl, rfl, rfl, rfl, rfl⟩

/-! ### Commands -/

/-- Every command keeps what no operation undoes, by its own lemma. -/
theorem keep_exec {s₀ s : State} (i : Instr) (h : Keep s₀ s) : KeepO s₀ (exec i s) :=
  match i with
  | .mac core unit thread ev => keep_execMac core unit thread ev h
  | .l2sq core unit thread ev => keep_execL2sq core unit thread ev h
  | .l1 core unit thread ev => keep_execL1 core unit thread ev h
  | .maxplus core unit thread ev => keep_execMaxplus core unit thread ev h
  | .minplus core unit thread ev => keep_execMinplus core unit thread ev h
  | .hamming core unit thread ev => keep_execHamming core unit thread ev h
  | .gtcount core unit thread ev => keep_execGtcount core unit thread ev h
  | .passComplete core unit => keep_execPassComplete core unit h
  | .conv core unit thread => keep_execConv core unit thread h
  | .convComplete core unit => keep_execConvComplete core unit h
  | .stream core unit thread => keep_execStream core unit thread h
  | .segmentAcknowledged core ctx tag status => keep_execSegmentAcknowledged core ctx tag status h
  | .streamTimeout core ctx => keep_execStreamTimeout core ctx h
  | .faultLimit core ctx => keep_execFaultLimit core ctx h
  | .copy core unit thread => keep_execCopy core unit thread h
  | .put32 core unit thread => keep_execPut32 core unit thread h
  | .add32 core unit thread => keep_execAdd32 core unit thread h
  | .muleComplete core slot status => keep_execMuleComplete core slot status h
  | .threadLoad core thread addr bytes tagParity => keep_execThreadLoad core thread addr bytes tagParity h
  | .threadStore core thread addr data => keep_execThreadStore core thread addr data h
  | .chain core unit thread parity => keep_execChain core unit thread parity h
  | .chainComplete core stall => keep_execChainComplete core stall h
  | .ld core => keep_execLd core h
  | .ldv core => keep_execLdv core h
  | .ldp core => keep_execLdp core h
  | .st core => keep_execSt core h
  | .ldq core => keep_execLdq core h
  | .stq core => keep_execStq core h
  | .add core => keep_execAdd core h
  | .sub core => keep_execSub core h
  | .mul core => keep_execMul core h
  | .fma core => keep_execFma core h
  | .max core => keep_execMax core h
  | .min core => keep_execMin core h
  | .neg core => keep_execNeg core h
  | .abs core => keep_execAbs core h
  | .sel core => keep_execSel core h
  | .cgt core => keep_execCgt core h
  | .cge core => keep_execCge core h
  | .ceq core => keep_execCeq core h
  | .permRotateHalf core => keep_execPermRotateHalf core h
  | .permPairSwap core => keep_execPermPairSwap core h
  | .exp core => keep_execExp core h
  | .exp2 core => keep_execExp2 core h
  | .log2 core => keep_execLog2 core h
  | .rsqrt core => keep_execRsqrt core h
  | .rcp core => keep_execRcp core h
  | .rsum core => keep_execRsum core h
  | .rmax core => keep_execRmax core h
  | .rmin core => keep_execRmin core h
  | .rssq core => keep_execRssq core h
  | .osm core => keep_execOsm core h
  | .topkLargest core => keep_execTopkLargest core h
  | .topkSmallest core => keep_execTopkSmallest core h
  | .selcnt core => keep_execSelcnt core h
  | .stg core => keep_execStg core h
  | .end_ core => keep_execEnd core h
  | .phaseWait core unit thread => keep_execPhaseWait core unit thread h
  | .creditWait core unit thread => keep_execCreditWait core unit thread h
  | .signal core unit thread => keep_execSignal core unit thread h
  | .waitTimeout => keep_execWaitTimeout h
  | .longWaitLend core => keep_execLongWaitLend core h
  | .gmm core unit thread => keep_execGmm core unit thread h
  | .mrs core unit thread => keep_execMrs core unit thread h
  | .dispenseRequest core unit waited => keep_execDispenseRequest core unit waited h
  | .commandStart cls => keep_execCommandStart cls h
  | .chunkStart cls prompts => keep_execChunkStart cls prompts h
  | .maxHold gseq => keep_execMaxHold gseq h
  | .contextFreeze slot => keep_execContextFreeze slot h
  | .pageFault core ctx => keep_execPageFault core ctx h
  | .pageFetchComplete page data => keep_execPageFetchComplete page data h
  | .strResume by_ core ctx => keep_execStrResume by_ core ctx h
  | .leaveRequest core => keep_execLeaveRequest core h
  | .leaveGrant => keep_execLeaveGrant h
  | .evaluationWindow w => keep_execEvaluationWindow w h
  | .railSettled => keep_execRailSettled h
  | .shiftPeriod => keep_execShiftPeriod h
  | .tjSample tj => keep_execTjSample tj h
  | .droop core => keep_execDroop core h
  | .marginTrim margins => keep_execMarginTrim margins h
  | .recalibration uncore measured estimated => keep_execRecalibration uncore measured estimated h
  | .pwrCalWrite by_ value => keep_execPwrCalWrite by_ value h
  | .idleEntry => keep_execIdleEntry h
  | .dozeDelay => keep_execDozeDelay h
  | .patrolScrub addr words => keep_execPatrolScrub addr words h
  | .errorDrain island => keep_execErrorDrain island h
  | .selftestComplete core ok => keep_execSelftestComplete core ok h
  | .coreCmdSelftest by_ core => keep_execCoreCmdSelftest by_ core h
  | .cbufInvAll by_ core => keep_execCbufInvAll by_ core h
  | .henDbgForceRelease by_ core bar value => keep_execHenDbgForceRelease by_ core bar value h
  | .henDbgSetArrivals by_ core bar value => keep_execHenDbgSetArrivals by_ core bar value h
  | .henDbgSetConsumed by_ core bar value => keep_execHenDbgSetConsumed by_ core bar value h
  | .henDbgBreak by_ core bar value => keep_execHenDbgBreak by_ core bar value h
  | .hengDbgForceRelease by_ bar => keep_execHengDbgForceRelease by_ bar h
  | .hengDbgBreak by_ bar => keep_execHengDbgBreak by_ bar h
  | .lnkCmdRetrain by_ port => keep_execLnkCmdRetrain by_ port h
  | .lnkCmdDisable by_ port => keep_execLnkCmdDisable by_ port h
  | .lnkCmdEnable by_ port => keep_execLnkCmdEnable by_ port h
  | .registerWrite by_ addr width value => keep_execRegisterWrite by_ addr width value h
  | .idle port tr => keep_execIdle port tr h
  | .write port f tr => keep_execWrite port f tr h
  | .read port f tr => keep_execRead port f tr h
  | .rdata port f tr => keep_execRdata port f tr h
  | .ack port f tr => keep_execAck port f tr h
  | .mule port f tr => keep_execMule port f tr h
  | .reduce port f tr => keep_execReduce port f tr h
  | .pieceEnd port f tr => keep_execPieceEnd port f tr h
  | .flitDiscard port raw => keep_execFlitDiscard port raw h
  | .linkFlitInvalid port f tr => keep_execLinkFlitInvalid port f tr h
  | .replayTimer port => keep_execReplayTimer port h
  | .nak port expected => keep_execNak port expected h
  | .id port device peerPort lifecycle w3 colt => keep_execId port device peerPort lifecycle w3 colt h
  | .train port state coefs => keep_execTrain port state coefs h
  | .coltReq port => keep_execColtReq port h
  | .coltAck port => keep_execColtAck port h
  | .handover port failed lastSeq => keep_execHandover port failed lastSeq h
  | .laneLockLoss port lane => keep_execLaneLockLoss port lane h
  | .trainTmo port => keep_execTrainTmo port h
  | .edgeDown dim => keep_execEdgeDown dim h
  | .datagramReceive dim version seq ack flits credits => keep_execDatagramReceive dim version seq ack flits credits h
  | .datagramRetransmit dim => keep_execDatagramRetransmit dim h
  | .command m proofOk => keep_execCommand m proofOk h
  | .heartbeat m => keep_execHeartbeat m h
  | .heartbeatPeriod => keep_execHeartbeatPeriod h
  | .headLost cause => keep_execHeadLost cause h
  | .arrive m => keep_execArrive m h
  | .grantReq m => keep_execGrantReq m h
  | .grant m => keep_execGrant m h
  | .abort m => keep_execAbort m h
  | .collectiveTimeout opid => keep_execCollectiveTimeout opid h
  | .abortRecord opid => keep_execAbortRecord opid h
  | .freeze m => keep_execFreeze m h
  | .thaw m => keep_execThaw m h
  | .stepReq m => keep_execStepReq m h
  | .reexec m => keep_execReexec m h
  | .commandRestart m => keep_execCommandRestart m h
  | .accuse m => keep_execAccuse m h
  | .done m => keep_execDone m h
  | .firstToken m => keep_execFirstToken m h
  | .routeDigest m => keep_execRouteDigest m h
  | .keyWrap m tagOk => keep_execKeyWrap m tagOk h
  | .shiftReport m => keep_execShiftReport m h
  | .shiftSet m => keep_execShiftSet m h
  | .doze m => keep_execDoze m h
  | .wake m => keep_execWake m h
  | .deep m => keep_execDeep m h
  | .call m => keep_execCall m h
  | .callPeriod => keep_execCallPeriod h
  | .join m keyOk => keep_execJoin m keyOk h
  | .formTmo => keep_execFormTmo h
  | .formed m => keep_execFormed m h
  | .memberLeft m => keep_execMemberLeft m h
  | .attest p => keep_execAttest p h
  | .sessionOpen p sigOk => keep_execSessionOpen p sigOk h
  | .exchangeExpiry digest => keep_execExchangeExpiry digest h
  | .sessionClose p => keep_execSessionClose p h
  | .debugUnlock p proofOk => keep_execDebugUnlock p proofOk h
  | .challengeExpiry session => keep_execChallengeExpiry session h
  | .groupState p => keep_execGroupState p h
  | .commandStatus p => keep_execCommandStatus p h
  | .readReg p => keep_execReadReg p h
  | .writeReg p => keep_execWriteReg p h
  | .memRead p => keep_execMemRead p h
  | .memWrite p => keep_execMemWrite p h
  | .telemetry p => keep_execTelemetry p h
  | .errorRead p => keep_execErrorRead p h
  | .errorAck p => keep_execErrorAck p h
  | .setConfig p => keep_execSetConfig p h
  | .imageBegin p => keep_execImageBegin p h
  | .imageData p => keep_execImageData p h
  | .imageCommit p => keep_execImageCommit p h
  | .imageActivate p => keep_execImageActivate p h
  | .imageUnload p => keep_execImageUnload p h
  | .exec p => keep_execExec p h
  | .prefill p => keep_execPrefill p h
  | .tokenize gseq => keep_execTokenize gseq h
  | .score p => keep_execScore p h
  | .cancel p => keep_execCancel p h
  | .kvPageData p => keep_execKvPageData p h
  | .kvPageRequest page => keep_execKvPageRequest page h
  | .reassemblyTimeout session seq => keep_execReassemblyTimeout session seq h
  | .icmpEcho v6 to_ from_ data => keep_execIcmpEcho v6 to_ from_ data h
  | .arpRequest v6 for_ from_ => keep_execArpRequest v6 for_ from_ h
  | .pfcPause prio pause => keep_execPfcPause prio pause h
  | .rep conn priv => keep_execRep conn priv h
  | .rej conn => keep_execRej conn h
  | .reqRetry conn => keep_execReqRetry conn h
  | .roceAck conn psn => keep_execRoceAck conn psn h
  | .roceNak conn psn kind => keep_execRoceNak conn psn kind h
  | .roceAckTimeout conn => keep_execRoceAckTimeout conn h
  | .rnrWait conn => keep_execRnrWait conn h
  | .cnp conn => keep_execCnp conn h
  | .rateIncrease conn => keep_execRateIncrease conn h
  | .ethPortDown => keep_execEthPortDown h
  | .powerOnReset => keep_execPowerOnReset h
  | .deviceReset => keep_execDeviceReset h
  | .brownoutReset rail => keep_execBrownoutReset rail h
  | .pwrgoodFall => keep_execPwrgoodFall h
  | .lowerTreeGenerated deadBits => keep_execLowerTreeGenerated deadBits h
  | .linkTrained port lanes => keep_execLinkTrained port lanes h
  | .memoryTrained failed => keep_execMemoryTrained failed h
  | .startUpComplete coresFailed gandersFailed => keep_execStartUpComplete coresFailed gandersFailed h
  | .status => keep_execStatus h
  | .detail => keep_execDetail h
  | .state => keep_execState h
  | .index => keep_execIndex h
  | .temp => keep_execTemp h
  | .power => keep_execPower h
  | .uid => keep_execUid h
  | .alertResponse => keep_execAlertResponse h
  | .deepEnter data pecOk => keep_execDeepEnter data pecOk h
  | .deepExit data pecOk => keep_execDeepExit data pecOk h
  | .reset data pecOk pins flash => keep_execReset data pecOk pins flash h
  | .idcode => keep_execIdcode h
  | .samplePreload bits => keep_execSamplePreload bits h
  | .extest bits => keep_execExtest bits h
  | .clamp => keep_execClamp h
  | .highz => keep_execHighz h
  | .regAccess addr data write => keep_execRegAccess addr data write h
  | .dbgPw len password => keep_execDbgPw len password h
  | .dbgChal => keep_execDbgChal h
  | .dbgResp response proofOk => keep_execDbgResp response proofOk h
  | .otpOwner slot ecdsa hss => keep_execOtpOwner slot ecdsa hss h
  | .otpPw digest => keep_execOtpPw digest h
  | .tapStatus => keep_execTapStatus h
  | .bypass => keep_execBypass h
  | .resetNRise pins flash => keep_execResetNRise pins flash h
  | .railInRange rail pins flash => keep_execRailInRange rail pins flash h
  | .droopRecovery core stretched => keep_execDroopRecovery core stretched h
  | .ethPortUp full => keep_execEthPortUp full h
  | .laneSignalDetect port => keep_execLaneSignalDetect port h
  | .regenPeriodEnd => keep_execRegenPeriodEnd h
  | .memberFormTmo => keep_execMemberFormTmo h
  | .reservedOpcode opcode p => keep_execReservedOpcode opcode p h
  | .unsupportedFrame => keep_execUnsupportedFrame h
  | .commitChecksDone image sigOk => keep_execCommitChecksDone image sigOk h
  | .refreshIntervalChange package rate => keep_execRefreshIntervalChange package rate h

/-- Settles O1: the queue is not empty, so the step is the front command's. -/
theorem stepRunsFrontCommand : Obligations.StepRunsFrontCommand := by
  unfold Obligations.StepRunsFrontCommand
  exact fun _ _ _ => rfl

/-- A step keeps, from the state whose queue has lost its front command, what no operation undoes. -/
theorem keep_step {s t : State} (h : step s = .next t) : Keep { s with pending := s.pending.tail } t := by
  unfold step at h
  match queue : s.pending with
  | [] =>
    rw [queue] at h
    cases h
    have kept := keep_tick s
    exact ⟨kept.pending.trans queue, kept.out, kept.freeCtr, kept.cells, kept.synd, kept.gran, kept.regs, kept.force, kept.fuses⟩
  | c :: rest =>
    rw [queue] at h
    dsimp only at h
    have kept := keep_exec c (Keep.refl { s with pending := rest })
    rw [h] at kept
    exact kept

/-- Settles O3: the canonical form is among what every step keeps. -/
theorem stepKeepsCanonicalForm : Obligations.StepKeepsCanonicalForm := by
  unfold Obligations.StepKeepsCanonicalForm
  intro s t canon h
  have kept := keep_step h
  exact ⟨⟨kept.cells canon, kept.synd canon, kept.gran canon⟩, kept.regs canon, kept.force canon⟩

/-- Settles O4: so are the rest of the queue, what was sent and the count of free values drawn. An empty queue has none to take: its tail is
empty too. -/
theorem stepTakesOneCommand : Obligations.StepTakesOneCommand := by
  unfold Obligations.StepTakesOneCommand
  intro s t h
  have kept := keep_step h
  exact ⟨kept.pending, kept.out, kept.freeCtr⟩

end Sys2Proof.Machine
end

section
/-! PROOFS. Registers and memory: the state after power-on reset, what is read back, and what a write leaves as it was. -/

namespace Sys2Proof.Machine

open Sys2Proof

/-! ### Reset -/

/-- Memory in which nothing is stored delivers good zeros. -/
theorem Mem.deliver_empty (a : Nat) : Mem.empty.deliver a = ⟨0, false⟩ := by
  have good : Mem.empty.kind a = .good := by
    unfold Mem.kind
    rw [if_neg (fun h => Bool.false_ne_true h.2)]
    rfl
  have zero : Mem.empty.data a = 0 := by simp [Mem.data, Mem.empty, sget]
  simp only [Mem.deliver, good, zero]

/-- Settles O6: every part of the state is written out in `State.reset`. -/
theorem resetState : Obligations.ResetState := by
  unfold Obligations.ResetState
  refine ⟨⟨⟨rfl, rfl, rfl⟩, rfl, rfl⟩, rfl, rfl, ⟨rfl, rfl, rfl⟩, fun a => ⟨Mem.deliver_empty a, rfl⟩,
    fun p off => ⟨BitVec.zero_xor, BitVec.zero_xor⟩, fun c b => ?_, fun g => ?_, fun n => ?_, fun k => ?_, fun p => ?_, fun i => ?_, rfl⟩
  · simp [State.core, State.reset, CoreState.bar, CoreState.empty, CoreBar.empty]
  · simp [State.gbar, State.reset, GroupBar.empty]
  · simp [State.dsp, State.reset, Dispense.empty]
  · simp [State.ctx, State.reset]
  · simp [State.reset, LinkState.empty, Port.empty]
  · simp [State.errQueue, State.reset, ErrState.empty]

/-! ### Pages -/

/-- The number of a page within register space, in units of 64 KB (R29). -/
def Page.number : Page → Nat
  | .aon => 0
  | .core c => 0x100 + (8 * c + 0)
  | .tsq c => 0x100 + (8 * c + 1)
  | .vec c => 0x100 + (8 * c + 2)
  | .str c => 0x100 + (8 * c + 3)
  | .hen c => 0x100 + (8 * c + 4)
  | .lamb c => 0x100 + (8 * c + 5)
  | .cbuf c => 0x100 + (8 * c + 6)
  | .lnk q => 0x300 + q
  | .mem g => 0x310 + g
  | .ssr d => 0x320 + d
  | .eth k => 0x330 + k
  | .heng k => 0x340 + k
  | .pwr k => 0x350 + k
  | .err => 0x360
  | .sec => 0x370
  | .gnd n => 0x380 + n

theorem Page.base_eq_number (p : Page) : p.base = regBase + 0x10000 * p.number := by
  unfold Page.base Page.number coreRegBase
  cases p <;> dsimp only <;> omega

theorem Page.number_lt {p : Page} (h : p.exists) : p.number < 0x1000 := by
  cases p <;> simp only [Page.exists, Page.number] at h ⊢ <;> omega

/-- The pages do not overlap (R29). -/
theorem Page.ofAddr_base_add {p : Page} {off : Nat} (h : p.exists) (small : off < 0x10000) : Page.ofAddr (p.base + off) = some (p, off) := by
  have inside : ¬(p.base + off < regBase ∨ regEnd ≤ p.base + off) := by
    have := Page.number_lt h
    rw [Page.base_eq_number, regEnd, regBase]
    omega
  have offset : (p.base + off - regBase) % 0x10000 = off := by rw [Page.base_eq_number]; omega
  have number : (p.base + off - regBase) / 0x10000 = p.number := by rw [Page.base_eq_number]; omega
  unfold Page.ofAddr
  cases p <;> rw [Page.number] at number <;> rw [Page.exists] at h <;> simp only [if_neg inside, offset, number]
  all_goals
    simp (disch := omega) only [if_neg, if_pos, Nat.add_sub_cancel_left, Nat.mul_add_mod, Nat.mul_add_div, Nat.mul_mod_right,
      Nat.mul_div_cancel_left, Nat.reduceMod, Nat.reduceDiv, Nat.add_zero]

/-! ### The register file -/

theorem State.rforce_rsetForce (s : State) (p : Page) (off : Nat) (v : Word) (h : swf 0#32 s.force = true) :
    (s.rsetForce p off v).rforce p off = v := by
  unfold State.rforce State.rsetForce
  dsimp only
  rw [sget_sset _ _ h, if_pos rfl, BitVec.xor_assoc, BitVec.xor_self, BitVec.xor_zero]

theorem State.rforce_rsetForce_ne (s : State) (p q : Page) (off o : Nat) (v : Word) (h : swf 0#32 s.force = true)
    (n : q.base + o ≠ p.base + off) : (s.rsetForce p off v).rforce q o = s.rforce q o := by
  unfold State.rforce State.rsetForce
  dsimp only
  rw [sget_sset _ _ h, if_neg n]

/-- Settles O7: the pages' numbers tell their addresses apart, and stored values and values in force are two tables in canonical form. -/
theorem registersReadBack : Obligations.RegistersReadBack := by
  unfold Obligations.RegistersReadBack
  refine ⟨fun p off => Page.ofAddr_base_add, fun s p q off off' v wf => ?_⟩
  obtain ⟨regs, force⟩ := wf
  exact ⟨⟨s.rget_rset p off v regs, s.rforce_rsetForce p off v force⟩,
    fun n => ⟨s.rget_rset_ne p q off off' v regs n.symm, s.rforce_rsetForce_ne p q off off' v force n.symm⟩,
    rfl, rfl, ⟨swf_sset _ _ regs, force⟩, ⟨regs, swf_sset _ _ force⟩, rfl, rfl⟩

/-- An aligned write of a word by an agent with the right goes to the row that lists the offset; an offset that no row lists rejects it. -/
theorem State.regWrite_aligned {s : State} {by_ : Agent} {a off : Nat} {p : Page} (v : Word) (h : Page.ofAddr a = some (p, off))
    (aligned : off % 4 = 0) (right : s.mayWrite by_ p = true) :
    s.regWrite by_ a 4 v = match p.row off with
      | none => s.reject p
      | some r => s.regStore by_ p off r v := by
  have wellFormed : ¬((4 : Nat) ≠ 4 ∨ off % 4 ≠ 0) := by omega
  simp only [State.regWrite, h, right, Bool.not_true, Bool.false_eq_true, if_false, if_neg wellFormed] <;> rfl

/-- Settles O10: a write that no action and no check of the value takes over stores the masked value. -/
theorem registerWriteByAccessCode : Obligations.RegisterWriteByAccessCode := by
  unfold Obligations.RegisterWriteByAccessCode
  refine ⟨fun s by_ a v p off r h aligned row right noAction vetted writable => ?_,
    fun s by_ a v p off h aligned row => ⟨fun right => ?_, fun right => ?_⟩⟩
  · change settled (s.regWrite by_ a 4 v) = _
    rw [State.regWrite_aligned v h aligned right, row]
    simp only [State.regStore, noAction, if_neg writable, vetted, Bool.false_or, RegDef.after]
    rfl
  · have listed : ¬off % 4 ≠ 0 := not_not.mpr aligned
    simp only [State.regRead, h, right, Bool.not_true, Bool.false_eq_true, if_false, if_neg listed, row]
  · change settled (s.regWrite by_ a 4 v) = _
    rw [State.regWrite_aligned v h aligned right, row]
    rfl

/-! ### Words of memory -/

/-- The value of the four bytes of a word is the word. -/
theorem leBytes_four_value (w : Word) : BitVec.ofNat 32 (leNat (leBytes 4 w.toNat)) = w := by
  apply BitVec.eq_of_toNat_eq
  have := w.isLt
  simp only [leBytes, leNat, BitVec.toNat_ofNat]
  omega

/-- The bytes after a write of a word: those of the word at its four addresses, and the others as before. -/
theorem Mem.byte_setWord {m : Mem} (h : m.wf) (a : Nat) (w : Word) (y : BitVec 7) (j : Nat) :
    (m.setWord a w y).byte j =
      if j = a + 3 then BitVec.ofNat 8 (w.toNat / 256 / 256 / 256)
      else if j = a + 2 then BitVec.ofNat 8 (w.toNat / 256 / 256)
      else if j = a + 1 then BitVec.ofNat 8 (w.toNat / 256)
      else if j = a then BitVec.ofNat 8 w.toNat
      else m.byte j := by
  obtain ⟨cells, -, -⟩ := h
  have first := swf_sset a (BitVec.ofNat 8 w.toNat) cells
  have second := swf_sset (a + 1) (BitVec.ofNat 8 (w.toNat / 256)) first
  have third := swf_sset (a + 1 + 1) (BitVec.ofNat 8 (w.toNat / 256 / 256)) second
  simp only [Mem.byte, Mem.setWord, leBytes, ssetMany]
  rw [sget_sset _ _ third, sget_sset _ _ second, sget_sset _ _ first, sget_sset _ _ cells]

theorem foldl_range_four {α : Type} (f : α → Nat → α) (x : α) : (List.range 4).foldl f x = f (f (f (f x 0) 1) 2) 3 := rfl

/-- The data bits of a word are its four bytes. -/
theorem Mem.data_eq_bytes (m : Mem) (a : Nat) :
    m.data a = BitVec.ofNat 32 (leNat [m.byte a, m.byte (a + 1), m.byte (a + 2), m.byte (a + 3)]) := by
  unfold Mem.data
  rw [foldl_range_four]
  congr 1
  have square : (256 : Nat) ^ 2 = 65536 := by norm_num
  have cube : (256 : Nat) ^ 3 = 16777216 := by norm_num
  simp only [leNat, Mem.byte, Nat.add_zero, pow_zero, pow_one, square, cube]
  omega

theorem Mem.data_setWord_same {m : Mem} (h : m.wf) (a : Nat) (w : Word) (y : BitVec 7) : (m.setWord a w y).data a = w := by
  apply BitVec.eq_of_toNat_eq
  have := w.isLt
  simp only [Mem.data_eq_bytes, Mem.byte_setWord h]
  simp (disch := omega) only [if_true, if_neg, leNat, BitVec.toNat_ofNat]
  omega

theorem Mem.data_setWord_ne {m : Mem} (h : m.wf) {a b : Nat} (w : Word) (y : BitVec 7) (ha : a % 4 = 0) (hb : b % 4 = 0) (ne : b ≠ a) :
    (m.setWord a w y).data b = m.data b := by
  simp only [Mem.data_eq_bytes, Mem.byte_setWord h]
  simp (disch := omega) only [if_neg]

/-- The kind of a word after a write: its own by the new syndrome, another's as before. -/
theorem Mem.kind_setWord {m : Mem} (h : m.wf) (a b : Nat) (w : Word) (y : BitVec 7) :
    (m.setWord a w y).kind b =
      if b = a then (if regionOf a = .lpddr ∧ sget false m.gran (a / 32) then .poison else wordKind y) else m.kind b := by
  obtain ⟨-, synd, -⟩ := h
  simp only [Mem.kind, Mem.setWord, sget_sset _ _ synd]
  by_cases same : b = a
  · subst same
    simp only [if_true]
  · simp only [if_neg same]

theorem Mem.deliver_setWord_good {m : Mem} (h : m.wf) {a : Nat} (w : Word) (clean : ¬(regionOf a = .lpddr ∧ sget false m.gran (a / 32) = true)) :
    (m.setWord a w 0).deliver a = ⟨w, false⟩ := by
  have good : (m.setWord a w 0).kind a = .good := by
    rw [Mem.kind_setWord h, if_pos rfl, if_neg clean]
    rfl
  simp only [Mem.deliver, good, Mem.data_setWord_same h]

theorem Mem.deliver_setWord_poison {m : Mem} (h : m.wf) (a : Nat) (w : Word) : (m.setWord a w poisonSynd).deliver a = ⟨w, true⟩ := by
  have poisoned : (m.setWord a w poisonSynd).kind a = .poison := by
    rw [Mem.kind_setWord h, if_pos rfl]
    split <;> rfl
  simp only [Mem.deliver, poisoned, Mem.data_setWord_same h]

theorem Mem.deliver_setWord_ne {m : Mem} (h : m.wf) {a b : Nat} (w : Word) (y : BitVec 7) (ha : a % 4 = 0) (hb : b % 4 = 0) (ne : b ≠ a) :
    (m.setWord a w y).deliver b = m.deliver b := by
  simp only [Mem.deliver, Mem.kind_setWord h, if_neg ne, Mem.data_setWord_ne h w y ha hb ne]

/-! ### The check code -/

/-- Folding the columns of the bits that are set is linear in the bits. -/
theorem foldl_columns_xor (l : List (Nat × Nat)) (w v : Word) : ∀ x y : BitVec 7,
    l.foldl (fun acc p => if (w ^^^ v).getLsbD p.1 then acc ^^^ BitVec.ofNat 7 p.2 else acc) (x ^^^ y) =
      l.foldl (fun acc p => if w.getLsbD p.1 then acc ^^^ BitVec.ofNat 7 p.2 else acc) x ^^^
        l.foldl (fun acc p => if v.getLsbD p.1 then acc ^^^ BitVec.ofNat 7 p.2 else acc) y := by
  induction l with
  | nil => exact fun x y => rfl
  | cons p l ih =>
    intro x y
    simp only [List.foldl_cons, ← ih]
    congr 1
    rw [BitVec.getLsbD_xor]
    cases w.getLsbD p.1 <;> cases v.getLsbD p.1
    · rfl
    · change x ^^^ y ^^^ BitVec.ofNat 7 p.2 = x ^^^ (y ^^^ BitVec.ofNat 7 p.2)
      ac_rfl
    · change x ^^^ y ^^^ BitVec.ofNat 7 p.2 = x ^^^ BitVec.ofNat 7 p.2 ^^^ y
      ac_rfl
    · change x ^^^ y = x ^^^ BitVec.ofNat 7 p.2 ^^^ (y ^^^ BitVec.ofNat 7 p.2)
      calc x ^^^ y = x ^^^ y ^^^ (BitVec.ofNat 7 p.2 ^^^ BitVec.ofNat 7 p.2) := by rw [BitVec.xor_self, BitVec.xor_zero]
        _ = _ := by ac_rfl

/-- The check bits are linear in the word (R156). -/
theorem hsiao_xor (w v : Word) : hsiao (w ^^^ v) = hsiao w ^^^ hsiao v := foldl_columns_xor _ w v 0 0

/-- The check bits of a word with one bit set are that bit's column. -/
theorem hsiao_bit : ∀ i : Fin 32, hsiao (1#32 <<< i.val) = BitVec.ofNat 7 (hsiaoCols.getD i.val 0) := by decide +kernel

/-- Two wrong bits of data: no two columns differ by a column, a check bit or the poison marker. -/
theorem wordKind_two_data_bits (i j : Fin 32) (ne : i ≠ j) : wordKind (hsiao (1#32 <<< i.val ^^^ 1#32 <<< j.val)) = .bad := by
  rw [hsiao_xor, hsiao_bit, hsiao_bit]
  revert i j
  decide +kernel

/-- Settles O11: a word is its four bytes and its syndrome; the code's columns are distinct and of odd weight. -/
theorem memoryAndCheckCode : Obligations.MemoryAndCheckCode := by
  unfold Obligations.MemoryAndCheckCode
  refine ⟨fun m a b w wf ha hb => ⟨fun clear => ?_, Mem.deliver_setWord_poison wf a w,
    fun y ne => Mem.deliver_setWord_ne wf w y ha hb ne, fun y => ⟨Mem.wf_setWord a w y wf, rfl⟩⟩,
    hsiao_xor, rfl, rfl, by decide +kernel, by decide +kernel, wordKind_two_data_bits, by decide +kernel, by decide +kernel⟩
  exact Mem.deliver_setWord_good wf w fun poisoned => by rw [clear] at poisoned; exact Bool.false_ne_true poisoned.2

end Sys2Proof.Machine
end

section
/-! PROOFS. Updates of one word of a buffer: PUT32, ADD32 and a thread's store (R164, R190, R191). -/

namespace Sys2Proof.Machine

open Sys2Proof

/-! ### What raising a record leaves -/

theorem State.RegsOnly.mem_eq {s t : State} (h : s.RegsOnly t) : t.mem = s.mem := by rw [h]

theorem State.RegsOnly.lostRec {s t : State} (h : s.RegsOnly t) : s.RegsOnly t.lostRec := (h.count48 ..).ror ..

/-- A record is queued, coalesced or lost: only the error state and registers change (R367, R368). -/
theorem State.raise_frame (s : State) (isl : Nat) (r : ErrRec) : ∃ q, (s.setErrQueue isl q).RegsOnly (s.raise isl r) := by
  unfold State.raise
  dsimp only
  split
  · exact ⟨_, (RegsOnly.refl _).count48 ..⟩
  · split
    · exact ⟨_, .refl _⟩
    · split
      · split
        · exact ⟨_, (RegsOnly.refl _).lostRec⟩
        · exact ⟨_, (RegsOnly.refl _).lostRec⟩
      · exact ⟨_, (RegsOnly.refl _).lostRec⟩

@[simp] theorem State.raise_mem (s : State) (isl : Nat) (r : ErrRec) : (s.raise isl r).mem = s.mem := by
  obtain ⟨q, only⟩ := s.raise_frame isl r
  rw [only.mem_eq, State.setErrQueue_mem]

/-! ### Buffers -/

/-- The operand buffers lie above stacked SRAM and below register space (R148). -/
theorem opBuf_range {a d : Nat} (h : regionOf a = .opBuf d) : 0x8000000000 ≤ a ∧ a < 0x8030000000 := by
  unfold regionOf sramBase kvTableBase at h
  dsimp only at h
  repeat' split at h
  all_goals cases h <;> omega

/-- Frames of stacked SRAM are remapped, buffers are not (R155). -/
theorem State.phys_opBuf {a d : Nat} (s : State) (h : regionOf a = .opBuf d) : s.phys a = a := by
  have := opBuf_range h
  unfold State.phys sramBase
  rw [if_neg (by omega)]

theorem opBuf_ne_lpddr {a d : Nat} (h : regionOf a = .opBuf d) : regionOf a ≠ .lpddr := by
  rw [h]
  exact Region.noConfusion

/-- One word written to a buffer: its own word of memory and nothing else. -/
theorem State.putWords_opBuf_mem {a d : Nat} (s : State) (h : regionOf a = .opBuf d) (w : PWord) :
    (s.putWords a [w]).mem = s.mem.setWord a w.bits (if w.poison then poisonSynd else 0) := by
  have place : s.phys (a + 4 * 0) = a := s.phys_opBuf h
  simp only [State.putWords, if_neg (opBuf_ne_lpddr h), List.length_singleton, List.range_one, List.zip_cons_cons, List.zip_nil_left,
    List.foldl_cons, List.foldl_nil, State.putWord, place]

/-- A word of a buffer reads as written. -/
theorem State.deliver_putWords_opBuf {s : State} {a d : Nat} (wf : s.mem.wf) (h : regionOf a = .opBuf d) (w : PWord) :
    (s.putWords a [w]).mem.deliver a = w := by
  rw [s.putWords_opBuf_mem h]
  cases poisoned : w.poison
  · simp only [Bool.false_eq_true, if_false]
    rw [Mem.deliver_setWord_good wf w.bits fun clean => opBuf_ne_lpddr h clean.1, ← poisoned]
  · simp only [if_true]
    rw [Mem.deliver_setWord_poison wf, ← poisoned]

theorem State.deliver_putWords_opBuf_ne {s : State} {a b d : Nat} (wf : s.mem.wf) (h : regionOf a = .opBuf d) (w : PWord) (ha : a % 4 = 0)
    (hb : b % 4 = 0) (ne : b ≠ a) : (s.putWords a [w]).mem.deliver b = s.mem.deliver b := by
  rw [s.putWords_opBuf_mem h, Mem.deliver_setWord_ne wf _ _ ha hb ne]

/-- Reading a word of a buffer counts and records; nothing of memory is rewritten. -/
theorem State.noteWord_opBuf_mem {a d : Nat} (s : State) (h : regionOf a = .opBuf d) (who : UnitId) (isl : Nat) :
    (s.noteWord who isl a 0).mem = s.mem := by
  unfold State.noteWord
  dsimp only
  split
  · rfl
  · simp only [h]
  · simp only [h, State.noteCe, eccCounters, Bool.false_or]
    exact State.raise_mem ..
  · simp only [h, State.noteBad, eccCounters]
    exact State.raise_mem ..

theorem State.noteWords_one_opBuf_mem {a d : Nat} (s : State) (h : regionOf a = .opBuf d) (who : UnitId) (isl : Nat) :
    (s.noteWords who isl a 1).mem = s.mem := by
  have place : s.phys (a + 4 * 0) = a := s.phys_opBuf h
  simp only [State.noteWords, List.range_one, List.foldl_cons, List.foldl_nil, place]
  exact s.noteWord_opBuf_mem h who isl

/-! ### The updates -/

/-- PUT32 is a write of the word, ADD32 one of the sum with the word as read. -/
theorem State.applyWord_opBuf_mem {a d : Nat} (s : State) (h : regionOf a = .opBuf d) (add : Bool) (w : PWord) :
    (s.applyWord add a w).mem =
      (s.putWords a [if add then ⟨(s.mem.deliver a).bits + w.bits, (s.mem.deliver a).poison || w.poison⟩ else w]).mem := by
  have place : s.phys (a + 4 * 0) = a := s.phys_opBuf h
  cases add
  · rfl
  · simp only [State.applyWord, if_true, State.peekWords, List.range_one, List.map_cons, List.map_nil, List.headD_cons, place]
    rw [State.putWords_opBuf_mem _ h, State.putWords_opBuf_mem _ h, State.noteWords_one_opBuf_mem _ h]

/-- A thread's store of an aligned word to a buffer writes that word. -/
theorem State.threadStore_word_opBuf_mem {a d : Nat} (s : State) (c : Nat) (h : regionOf a = .opBuf d) (aligned : a % 4 = 0) (w : Word) :
    (s.threadStore c a (leBytes 4 w.toNat)).mem = (s.putWords a [⟨w, false⟩]).mem := by
  have range := opBuf_range h
  have here : ¬(2 ^ 48 ≤ a ∧ a / 2 ^ 48 % 64 ≠ s.devIndex) := by omega
  have small : a % 2 ^ 48 = a := Nat.mod_eq_of_lt (by omega)
  have length : (leBytes 4 w.toNat).length = 4 := rfl
  have words : wordsOf (leBytes 4 w.toNat) = [⟨w, false⟩] := by
    conv_rhs => rw [← leBytes_four_value w]
    rfl
  have first : 4 * ((a + 3) / 4) = a := by omega
  have stored : s.putBytes (unitOfAddr a) (islandOfAddr a) a (leBytes 4 w.toNat) = s.putWords a [⟨w, false⟩] := by
    unfold State.putBytes
    dsimp only
    rw [if_neg (by simp [leBytes]), length, if_neg (by omega), if_pos aligned, if_pos (by omega), first, Nat.sub_self, List.drop_zero, words]
  unfold State.threadStore
  simp only [if_neg here, small, stored]
  split
  · rfl
  · rw [State.modCore, State.setCore_mem]

/-- Settles O31: each of the three updates is a write of one word, and a write of a word is local. -/
theorem wordUpdatesAreLocal : Obligations.WordUpdatesAreLocal := by
  unfold Obligations.WordUpdatesAreLocal
  intro s c d a b w canon _ h ha hb
  obtain ⟨wf, -⟩ := canon
  refine ⟨?_, ?_, ?_, fun ne => ⟨fun add => ?_, ?_⟩⟩
  · rw [s.applyWord_opBuf_mem h, State.deliver_putWords_opBuf wf h]
    rfl
  · rw [s.applyWord_opBuf_mem h, State.deliver_putWords_opBuf wf h]
    rfl
  · rw [s.threadStore_word_opBuf_mem c h ha, State.deliver_putWords_opBuf wf h]
  · rw [s.applyWord_opBuf_mem h, State.deliver_putWords_opBuf_ne wf h _ ha hb ne]
  · rw [s.threadStore_word_opBuf_mem c h ha, State.deliver_putWords_opBuf_ne wf h _ ha hb ne]

end Sys2Proof.Machine
end

section
/-! PROOFS. The Hen's objects: what the firing of a watch changes, the counters of credit barriers (R204) and the release of phase barriers
(R203). -/

namespace Sys2Proof.Machine

open Sys2Proof

/-! ### Cores and their parts -/

/-- What a replaced core leaves, for every number: one past the last core replaces nothing and reads as the last. -/
theorem State.core_setCore_min (s : State) (c j : Nat) (x : CoreState) : (s.setCore c x).core j = if min j 47 = c then x else s.core j := by
  unfold State.setCore State.core
  by_cases h : c < 48
  · simp only [dif_pos h, Vector.getElem_set, eq_comm]
  · rw [dif_neg h, if_neg (by omega)]

theorem State.core_setCore_same (s : State) {c : Nat} (x : CoreState) (h : c < 48) : (s.setCore c x).core c = x := by
  rw [State.core_setCore_min, if_pos (by omega)]

theorem State.core_modCore_same (s : State) {c : Nat} (f : CoreState → CoreState) (h : c < 48) : (s.modCore c f).core c = f (s.core c) :=
  s.core_setCore_same _ h

theorem State.core_setCore_ne (s : State) {c d : Nat} (x : CoreState) (hd : d < 48) (ne : d ≠ c) : (s.setCore c x).core d = s.core d := by
  rw [State.core_setCore_min, if_neg (by omega)]

theorem State.core_congr {s t : State} (h : t.cores = s.cores) (c : Nat) : t.core c = s.core c := by
  unfold State.core
  simp only [h]

@[simp] theorem State.core_count48 (s : State) (p : Page) (off n c : Nat) : (s.count48 p off n).core c = s.core c := rfl
@[simp] theorem State.core_setCtx (s : State) (k : Nat) (x : Option Ctx) (c : Nat) : (s.setCtx k x).core c = s.core c :=
  State.core_congr (s.setCtx_cores k x) c
@[simp] theorem State.core_modCtx (s : State) (k : Nat) (f : Ctx → Ctx) (c : Nat) : (s.modCtx k f).core c = s.core c := s.core_setCtx ..

/-- A part of cores that a change of one core leaves is left in every core. -/
theorem State.part_modCore {α : Type} (g : CoreState → α) (s : State) (c d : Nat) (f : CoreState → CoreState) (h : ∀ x, g (f x) = g x) :
    g ((s.modCore c f).core d) = g (s.core d) := by
  unfold State.modCore
  rw [State.core_setCore_min]
  split
  · next same =>
    rw [h]
    subst same
    unfold State.core
    congr 2
    omega
  · rfl

@[simp] theorem CoreState.setThread_bars (x : CoreState) (t : Nat) (v : Thread) : (x.setThread t v).bars = x.bars := by
  unfold CoreState.setThread; split <;> rfl
@[simp] theorem CoreState.setThread_owner (x : CoreState) (t : Nat) (v : Thread) : (x.setThread t v).owner = x.owner := by
  unfold CoreState.setThread; split <;> rfl
@[simp] theorem CoreState.setUnit_bars (x : CoreState) (u : Nat) (v : UnitRun) : (x.setUnit u v).bars = x.bars := by
  unfold CoreState.setUnit; split <;> rfl
@[simp] theorem CoreState.setUnit_owner (x : CoreState) (u : Nat) (v : UnitRun) : (x.setUnit u v).owner = x.owner := by
  unfold CoreState.setUnit; split <;> rfl
@[simp] theorem CoreState.setUnit_threads (x : CoreState) (u : Nat) (v : UnitRun) : (x.setUnit u v).threads = x.threads := by
  unfold CoreState.setUnit; split <;> rfl
@[simp] theorem CoreState.setBar_threads (x : CoreState) (b : Nat) (v : CoreBar) : (x.setBar b v).threads = x.threads := by
  unfold CoreState.setBar; split <;> rfl
@[simp] theorem CoreState.setBar_owner (x : CoreState) (b : Nat) (v : CoreBar) : (x.setBar b v).owner = x.owner := by
  unfold CoreState.setBar; split <;> rfl

theorem CoreState.bar_setBar_same (x : CoreState) {b : Nat} (v : CoreBar) (h : b < 32) : (x.setBar b v).bar b = v := by
  have e : min b 31 = b := by omega
  unfold CoreState.setBar CoreState.bar
  rw [dif_pos h]
  simp only [e, Vector.getElem_set_self]

theorem CoreState.bar_congr {x y : CoreState} (h : y.bars = x.bars) (b : Nat) : y.bar b = x.bar b := by
  unfold CoreState.bar
  simp only [h]

theorem CoreState.thread_congr {x y : CoreState} (h : y.threads = x.threads) (t : Nat) : y.thread t = x.thread t := by
  unfold CoreState.thread
  simp only [h]

theorem CoreState.thread_setThread (x : CoreState) {t : Nat} (j : Nat) (v : Thread) (h : t < 16) :
    (x.setThread j v).thread t = if j = t then v else x.thread t := by
  have e : min t 15 = t := by omega
  unfold CoreState.setThread CoreState.thread
  by_cases hj : j < 16
  · simp only [dif_pos hj, e, Vector.getElem_set]
  · rw [dif_neg hj, if_neg (by omega)]

theorem CoreState.setThread_self (x : CoreState) (t : Nat) : x.setThread t (x.thread t) = x := by
  unfold CoreState.setThread CoreState.thread
  split
  · next ht =>
    have e : min t 15 = t := by omega
    simp only [e, Vector.set_getElem_self]
  · rfl

/-! ### The firing of a watch -/

/-- What the end of a wait notes: a failure of the tile, a mark of the context's command, or nothing (R212). -/
theorem State.waitStatus_cases (s : State) (c u status : Nat) (own : Option Nat) :
    (∃ st, s.waitStatus c u status own = s.failTile c u st) ∨ (∃ k f, s.waitStatus c u status own = s.modCtx k f) ∨
      s.waitStatus c u status own = s := by
  unfold State.waitStatus
  repeat' split
  · exact .inl ⟨_, rfl⟩
  · exact .inl ⟨_, rfl⟩
  · exact .inl ⟨_, rfl⟩
  · exact .inr (.inl ⟨_, _, rfl⟩)
  · exact .inr (.inr rfl)
  · exact .inl ⟨_, rfl⟩
  · exact .inr (.inr rfl)

/-- The parts of cores that the noting of a failure leaves: those that do not speak of units. -/
theorem State.part_waitStatus {α : Type} (g : CoreState → α) (h : ∀ x u v, g (x.setUnit u v) = g x) (s : State) (c u status : Nat)
    (own : Option Nat) (d : Nat) : g ((s.waitStatus c u status own).core d) = g (s.core d) := by
  obtain ⟨st, eq⟩ | ⟨k, f, eq⟩ | eq := s.waitStatus_cases c u status own
  · exact eq ▸ State.part_modCore g s c d _ fun x => h x ..
  · rw [eq, State.core_modCtx]
  · rw [eq]

/-- The thread after its watch has fired (R210). -/
def Thread.fired (th : Thread) (status owner : Nat) : Thread :=
  match th.watch with
  | none => th
  | some w => { th with watch := none, mbox := watchMsg w.kind w.obj status owner }

theorem Thread.fired_of_none {th : Thread} (h : th.watch = none) (status owner : Nat) : th.fired status owner = th := by
  unfold Thread.fired
  rw [h]

theorem Thread.fired_of_some {th : Thread} {w : Watch} (h : th.watch = some w) (status owner : Nat) :
    th.fired status owner = { th with watch := none, mbox := watchMsg w.kind w.obj status owner } := by
  unfold Thread.fired
  rw [h]

/-- Parts of cores that the firing of a watch leaves: those that speak of neither units, threads nor caches. -/
theorem State.part_fire {α : Type} (g : CoreState → α) (unit : ∀ x u v, g (x.setUnit u v) = g x) (thread : ∀ x t v, g (x.setThread t v) = g x)
    (cache : ∀ x : CoreState, g { x with cache := [] } = g x) (s : State) (c t status : Nat) (own : Option Nat) (d : Nat) :
    g ((s.fire c t status own).core d) = g (s.core d) := by
  unfold State.fire
  dsimp only
  split
  · rfl
  · next w _ =>
    rw [State.part_waitStatus g unit]
    have posted := State.part_modCore g s c d (fun x => x.setThread t { x.thread t with
      watch := none, mbox := watchMsg w.kind w.obj status x.owner }) fun x => thread x ..
    split
    · exact (State.part_modCore g _ c d _ cache).trans posted
    · exact posted

@[simp] theorem State.fire_bars (s : State) (c t status : Nat) (own : Option Nat) (d : Nat) :
    ((s.fire c t status own).core d).bars = (s.core d).bars :=
  State.part_fire (·.bars) CoreState.setUnit_bars CoreState.setThread_bars (fun _ => rfl) s c t status own d

@[simp] theorem State.fire_owner (s : State) (c t status : Nat) (own : Option Nat) (d : Nat) :
    ((s.fire c t status own).core d).owner = (s.core d).owner :=
  State.part_fire (·.owner) CoreState.setUnit_owner CoreState.setThread_owner (fun _ => rfl) s c t status own d

/-- The threads of the core after a watch has fired, and of the other cores. -/
theorem State.fire_threads (s : State) (c t status : Nat) (own : Option Nat) {d : Nat} (hd : d < 48) :
    ((s.fire c t status own).core d).threads =
      if d = c then ((s.core c).setThread t (((s.core c).thread t).fired status (s.core c).owner)).threads else (s.core d).threads := by
  have replaced : ((s.setCore c ((s.core c).setThread t (((s.core c).thread t).fired status (s.core c).owner))).core d).threads =
      if d = c then ((s.core c).setThread t (((s.core c).thread t).fired status (s.core c).owner)).threads else (s.core d).threads := by
    rw [State.core_setCore_min, Nat.min_eq_left (by omega)]
    split <;> rfl
  cases watch : ((s.core c).thread t).watch with
  | none =>
    rw [Thread.fired_of_none watch, CoreState.setThread_self]
    simp only [State.fire, watch]
    split
    · next same => rw [same]
    · rfl
  | some w =>
    rw [← replaced, Thread.fired_of_some watch]
    simp only [State.fire, watch]
    rw [State.part_waitStatus (·.threads) CoreState.setUnit_threads]
    split
    · exact State.part_modCore (·.threads) (State.count48 _ (.hen c) 0x20 1) c d (fun x => { x with cache := [] }) fun _ => rfl
    · rfl

/-- One thread after a watch of its core has fired. -/
theorem State.fire_thread (s : State) {c t : Nat} (j status : Nat) (own : Option Nat) (hc : c < 48) (ht : t < 16) :
    ((s.fire c j status own).core c).thread t =
      if j = t then ((s.core c).thread t).fired status (s.core c).owner else (s.core c).thread t := by
  have threads := s.fire_threads c j status own hc
  rw [if_pos rfl] at threads
  rw [CoreState.thread_congr threads, CoreState.thread_setThread _ _ _ ht]
  split
  · next same => rw [same]
  · rfl

theorem Thread.fired_watch (th : Thread) (status owner : Nat) : (th.fired status owner).watch = none := by
  cases h : th.watch with
  | none => rw [Thread.fired_of_none h, h]
  | some w => rw [Thread.fired_of_some h]

theorem Thread.fired_fired (th : Thread) (status owner : Nat) : (th.fired status owner).fired status owner = th.fired status owner :=
  Thread.fired_of_none (th.fired_watch status owner) status owner

/-! ### The firing of a list of watches of one core -/

section
variable (c status : Nat) (own : Option Nat) (l : List Nat)

theorem State.fireAll_bars (s : State) (d : Nat) : ((l.foldl (fun s t => s.fire c t status own) s).core d).bars = (s.core d).bars := by
  induction l generalizing s with
  | nil => rfl
  | cons t l ih => rw [List.foldl_cons, ih, State.fire_bars]

theorem State.fireAll_threads_ne (s : State) {d : Nat} (hd : d < 48) (ne : d ≠ c) :
    ((l.foldl (fun s t => s.fire c t status own) s).core d).threads = (s.core d).threads := by
  induction l generalizing s with
  | nil => rfl
  | cons t l ih => rw [List.foldl_cons, ih, State.fire_threads _ _ _ _ _ hd, if_neg ne]

theorem State.fireAll_thread (s : State) {t : Nat} (hc : c < 48) (ht : t < 16) :
    ((l.foldl (fun s t => s.fire c t status own) s).core c).thread t =
      if t ∈ l then ((s.core c).thread t).fired status (s.core c).owner else (s.core c).thread t := by
  induction l generalizing s with
  | nil => rfl
  | cons j l ih =>
    rw [List.foldl_cons, ih, State.fire_thread _ _ _ _ hc ht, State.fire_owner]
    by_cases same : j = t
    · subst same
      simp only [if_true, Thread.fired_fired, List.mem_cons_self, ite_self]
    · simp only [if_neg same, List.mem_cons, Ne.symm same, false_or]

end

/-! ### Credit barriers -/

/-- Taking an item that has arrived keeps the counters, with the re-base too (R204). -/
theorem CoreBar.creditOk_consume {b : CoreBar} (h : b.creditOk) (arrived : b.consumed < b.arrived) : b.consume.creditOk := by
  obtain ⟨lower, upper⟩ := h
  unfold CoreBar.consume
  split <;> constructor <;> dsimp only <;> omega

/-- Putting an item where there is room keeps them. -/
theorem CoreBar.creditOk_put {b : CoreBar} (h : b.creditOk) (room : b.arrived < b.consumed + b.cmax) :
    CoreBar.creditOk { b with arrived := b.arrived + 1 } := by
  obtain ⟨lower, upper⟩ := h
  constructor <;> dsimp only <;> omega

/-- Serving a waiter puts or takes an item, and only where it can. -/
theorem State.creditOk_serveCredit {c b : Nat} (hc : c < 48) (hb : b < 32) (fuel : Nat) :
    ∀ s : State, ((s.core c).bar b).creditOk → (((s.serveCredit c b fuel).core c).bar b).creditOk := by
  induction fuel with
  | zero => exact fun s h => h
  | succ fuel ih =>
    intro s h
    unfold State.serveCredit
    dsimp only
    split
    · exact h
    · next t found =>
      refine ih _ ?_
      rw [CoreState.bar_congr (State.fire_bars ..), State.core_setCore_same _ _ hc, CoreState.bar_setBar_same _ _ hb]
      have can := List.find?_some found
      cases watch : ((s.core c).thread t).watch with
      | none =>
        rw [watch] at can
        cases can
      | some w =>
        rw [watch] at can
        cases signaller : w.signaller <;> simp only [signaller, Bool.false_eq_true, if_false, if_true, decide_eq_true_eq] at can ⊢
        · exact CoreBar.creditOk_consume (b := { (s.core c).bar b with waiters := _ }) h can
        · exact CoreBar.creditOk_put (b := { (s.core c).bar b with waiters := _ }) h can

/-- Settles O15: taking and putting keep the bounds, and serving is a run of them by induction on its fuel. -/
theorem creditBarrierKeepsBounds : Obligations.CreditBarrierKeepsBounds := by
  unfold Obligations.CreditBarrierKeepsBounds
  intro s c b fuel hc hb bar ok
  exact ⟨CoreBar.creditOk_consume ok, CoreBar.creditOk_put ok, State.creditOk_serveCredit hc hb fuel s ok⟩

/-! ### Phase barriers -/

/-- The waiters that a release wakes: those that hold no watch any more and those whose generation is reached. -/
def CoreState.reached (x : CoreState) (bar : CoreBar) (status : Nat) (t : Nat) : Bool :=
  match (x.thread t).watch with
  | some w => decide (genDist bar.gen w.want < 32768) || status == wmForced
  | none => true

theorem CoreState.reached_met {x : CoreState} {bar : CoreBar} {t : Nat} {w : Watch} (h : (x.thread t).watch = some w) :
    x.reached bar wmMet t = true ↔ genDist bar.gen w.want < 32768 := by
  unfold CoreState.reached
  rw [h]
  simp [wmMet, wmForced]

/-- A phase barrier with its waiters woken: the reached ones are taken off its list and their watches fire in turn. -/
theorem State.wakePhase_setBar (s : State) {c b : Nat} (hc : c < 48) (hb : b < 32) (x : CoreState) (bar : CoreBar) (status : Nat)
    (own : Option Nat) :
    let woken := bar.waiters.filter ((x.setBar b bar).reached bar status)
    (s.setCore c (x.setBar b bar)).wakePhase c b status own =
      woken.foldl (fun s t => s.fire c t status own) ((s.setCore c (x.setBar b bar)).setCore c
        ((x.setBar b bar).setBar b { bar with waiters := bar.waiters.filter fun t => !woken.contains t })) := by
  intro woken
  unfold State.wakePhase
  simp only [State.core_setCore_same _ _ hc, CoreState.bar_setBar_same _ _ hb]
  rfl

/-- Settles O16: the waiters whose generation is reached are taken off the barrier's list and their watches fire, one after another. -/
theorem phaseReleaseWakes : Obligations.PhaseReleaseWakes := by
  unfold Obligations.PhaseReleaseWakes
  intro s c b t w hc hb ht waits watch gen s1
  let bar : CoreBar := { (s.core c).bar b with gen := gen, arrived := 0 }
  let x := (s.core c).setBar b bar
  let woken := bar.waiters.filter (x.reached bar wmMet)
  let left : CoreBar := { bar with waiters := bar.waiters.filter fun t => !woken.contains t }
  let s0 := (s.setCore c x).setCore c (x.setBar b left)
  have released : s1 = woken.foldl (fun s t => s.fire c t wmMet none) s0 := s.wakePhase_setBar hc hb (s.core c) bar wmMet none
  have core : s0.core c = x.setBar b left := State.core_setCore_same _ _ hc
  have barAfter : (s1.core c).bar b = left := by
    rw [released, CoreState.bar_congr (State.fireAll_bars ..), core, CoreState.bar_setBar_same _ _ hb]
  have threads : (s0.core c).threads = (s.core c).threads := by rw [core, CoreState.setBar_threads, CoreState.setBar_threads]
  have owner : (s0.core c).owner = (s.core c).owner := by rw [core, CoreState.setBar_owner, CoreState.setBar_owner]
  have threadAfter : (s1.core c).thread t =
      if t ∈ woken then ((s.core c).thread t).fired wmMet (s.core c).owner else (s.core c).thread t := by
    rw [released, State.fireAll_thread _ _ _ _ _ hc ht, CoreState.thread_congr threads, owner]
  have watchBefore : (x.thread t).watch = some w := by rw [CoreState.thread_congr (CoreState.setBar_threads ..), watch]
  have wakes : t ∈ woken ↔ genDist gen w.want < 32768 := by
    rw [List.mem_filter, CoreState.reached_met watchBefore]
    exact and_iff_right waits
  refine ⟨by rw [barAfter], by rw [barAfter], fun reached => ?_, fun ahead => ?_, fun d hd ne => ⟨?_, ?_⟩⟩
  · have isWoken := wakes.mpr reached
    rw [threadAfter, if_pos isWoken, barAfter, Thread.fired_of_some watch]
    refine ⟨rfl, fun stays => ?_, rfl⟩
    have unwoken := (List.mem_filter.mp stays).2
    rw [List.contains_iff_mem.mpr isWoken] at unwoken
    cases unwoken
  · have notWoken : t ∉ woken := fun h => by have := wakes.mp h; omega
    rw [threadAfter, if_neg notWoken, barAfter]
    exact ⟨watch, List.mem_filter.mpr ⟨waits, by simpa using notWoken⟩⟩
  · rw [released, State.fireAll_threads_ne _ _ _ _ _ hd ne, State.core_setCore_ne _ _ hd ne, State.core_setCore_ne _ _ hd ne]
  · rw [released, State.fireAll_bars, State.core_setCore_ne _ _ hd ne, State.core_setCore_ne _ _ hd ne]

end Sys2Proof.Machine
end

section
/-! PROOFS. The window of BCP sequence numbers (R285). -/

namespace Sys2Proof.Machine

open Sys2Proof

/-- How far the number at distance `d` after HIGH is ahead of it, and how far behind, in serial arithmetic. -/
theorem serial_distances {h d : Nat} (hh : h < 2 ^ 32) (hd : d < 2 ^ 32) :
    ((h + d) % 2 ^ 32 + 2 ^ 32 - h) % 2 ^ 32 = d ∧ (h + 2 ^ 32 - (h + d) % 2 ^ 32) % 2 ^ 32 = (2 ^ 32 - d) % 2 ^ 32 := by
  omega

/-- A number at distance `d` is newer than HIGH when the distance is below half (R16). -/
theorem serialNewer_add {h d : Nat} (hh : h < 2 ^ 32) (hd : d < 2 ^ 32) : serialNewer 32 ((h + d) % 2 ^ 32) h = decide (1 ≤ d ∧ d ≤ 2 ^ 31 - 1) := by
  unfold serialNewer
  simp only [Nat.mod_eq_of_lt hh, (serial_distances hh hd).1]

/-- The class of a number that is not recorded, by its distance. -/
theorem Session.classify_unrecorded {y : Session} {h d : Nat} (dg : Nat) (high : y.high = some h) (hh : h < 2 ^ 32) (hd : d < 2 ^ 32)
    (fresh : ∀ r ∈ y.recs, r.seq ≠ (h + d) % 2 ^ 32) :
    y.classify ((h + d) % 2 ^ 32) dg =
      if 1 ≤ d ∧ d ≤ 2 ^ 31 - 1 then (if d ≤ 256 then .new else .window) else if (2 ^ 32 - d) % 2 ^ 32 ≤ 255 then .new else .stale := by
  have unrecorded : y.recs.find? (·.seq == (h + d) % 2 ^ 32) = none := List.find?_eq_none.mpr fun r hr => by simpa using fresh r hr
  simp only [Session.classify, high, unrecorded, serialNewer_add hh hd, decide_eq_true_eq, serial_distances hh hd]

/-- Settles O51: the windows are intervals of the distance. -/
theorem sequenceWindow : Obligations.SequenceWindow := by
  unfold Obligations.SequenceWindow
  intro y h d dg high hh hd q
  refine ⟨fun fresh => ?_, fun r found => ?_⟩
  · rw [Session.classify_unrecorded dg high hh hd fresh]
    refine ⟨?_, ?_, ?_⟩ <;> split <;> split <;> simp only [reduceCtorEq, true_iff, false_iff] <;> omega
  · constructor <;> intro digest <;> simp only [Session.classify, high, found, digest, ne_eq, not_true_eq_false, not_false_eq_true, if_true, if_false]

end Sys2Proof.Machine
end

section
/-! PROOFS. The leave protocol: what a core asks, the order of the requests, and the grant at its head (R336, R337). -/

namespace Sys2Proof.Machine

open Sys2Proof

/-! ### The order of the requests -/

/-- The place of a request in the order: by priority, and in it a returning request first. -/
def LeaveReq.rank (q : LeaveReq) : Nat := 2 * q.prio + (if q.returning then 0 else 1)

theorem LeaveReq.before_iff_rank_lt (a b : LeaveReq) : a.before b = true ↔ a.rank < b.rank := by
  unfold LeaveReq.before LeaveReq.rank
  cases a.returning <;> cases b.returning <;> simp only [Bool.or_eq_true, Bool.and_eq_true, decide_eq_true_eq, beq_iff_eq, Bool.not_true,
    Bool.not_false, Bool.false_eq_true, and_false, and_true, or_false, if_true, if_false] <;> omega

theorem LeaveReq.before_eq_false_iff (a b : LeaveReq) : a.before b = false ↔ b.rank ≤ a.rank := by
  rw [Bool.eq_false_iff, ne_eq, LeaveReq.before_iff_rank_lt, Nat.not_lt]

theorem headReq_eq_none {l : List LeaveReq} (h : headReq l = none) : l = [] := by
  cases l with
  | nil => rfl
  | cons q t =>
    unfold headReq at h
    split at h
    · cases h
    · split at h <;> cases h

/-- The head is the first of the requests of lowest rank. -/
theorem headReq_split {l : List LeaveReq} : ∀ {q : LeaveReq}, headReq l = some q →
    ∃ a b, l = a ++ q :: b ∧ (∀ p ∈ a, q.before p = true) ∧ ∀ p ∈ b, p.before q = false := by
  induction l with
  | nil =>
    intro q h
    cases h
  | cons q₀ t ih =>
    intro q h
    unfold headReq at h
    split at h
    · next alone =>
      cases h
      exact ⟨[], t, rfl, by simp, by simp [headReq_eq_none alone]⟩
    · next h₀ head =>
      obtain ⟨a, b, rfl, earlier, later⟩ := ih head
      split at h
      · next first =>
        cases h
        exact ⟨q₀ :: a, b, rfl, by simpa [first] using earlier, later⟩
      · next notFirst =>
        cases h
        rw [Bool.not_eq_true, LeaveReq.before_eq_false_iff] at notFirst
        simp only [LeaveReq.before_iff_rank_lt] at earlier
        simp only [LeaveReq.before_eq_false_iff] at later
        refine ⟨[], a ++ h₀ :: b, rfl, by simp, fun p hp => ?_⟩
        rw [LeaveReq.before_eq_false_iff]
        rw [List.mem_append, List.mem_cons] at hp
        rcases hp with inA | rfl | inB
        · have := earlier p inA; omega
        · exact notFirst
        · have := later p inB; omega

/-! ### Asking -/

/-- A core that is in service, is not tested and has no request in the queue asks on behalf of the active context. -/
theorem State.leaveRequest_of_leaveCtx {s : State} {c : Nat} {k : Nat} {x : Ctx} {r : ProgRun} (active : s.leaveCtx = some (k, x, r))
    (inService : (s.core c).fenced = false) (untested : (s.core c).selfTest = false) (unasked : ∀ q ∈ s.pwr.queue, q.core ≠ c) :
    s.leaveRequest c =
      let ask := fun (s : State) (ret : Bool) => ({ s with pwr := { s.pwr with queue := s.pwr.queue ++
        [⟨c, r.prog.actClass + 1, x.cls, ret, k⟩] } } : State).noteReasons
      match (s.core c).run with
      | none =>
        if !r.inBlock || r.arrived.contains c then s
        else ask ((s.modCore c fun y => { y with owner := x.id }).register c 0 8 0 0 false false 8) false
      | some (j, _) =>
        if j ≠ k ∨ !(s.core c).lent ∨ !(s.coreIssuing c || (s.core c).threads.toList.any fun t => t.watch.any (·.kind == 8)) then s
        else ask ((s.leaveThreads c).foldl (fun s t => s.register c t 8 0 0 false false 8) s) true := by
  have free : s.pwr.queue.any (·.core == c) = false := by
    rw [List.any_eq_false]
    exact fun q hq => by simpa using unasked q hq
  simp only [State.leaveRequest, inService, untested, free, active, Bool.or_false, Bool.false_eq_true, if_false] <;> rfl

/-- Settles O34: the head of the order is its first request of lowest rank, and nothing but the budget and a trip holds its grant up. -/
theorem leaveIsGrantedInOrder : Obligations.LeaveIsGrantedInOrder := by
  unfold Obligations.LeaveIsGrantedInOrder
  refine ⟨fun s c k x r active inService untested unasked => ?_, fun s empty => ?_, fun s q head => ⟨fun fits cool => ?_, fun blocked => ?_⟩,
    fun l q => headReq_split⟩
  · have asked := State.leaveRequest_of_leaveCtx active inService untested unasked
    refine ⟨fun idle given unarrived => ?_, fun j runs lent issuing => ?_⟩
    · change Host.Outcome.next (s.leaveRequest c) = _
      have ready : (!r.inBlock || r.arrived.contains c.val) = false := by simpa [given] using unarrived
      simp only [idle, ready, Bool.false_eq_true, if_false] at asked
      rw [asked]
      rfl
    · change Host.Outcome.next (s.leaveRequest c) = _
      simp only [asked, runs, lent, issuing, Bool.true_or, Bool.not_true, Bool.false_eq_true, ne_eq, not_true_eq_false, or_self, if_false]
  · change Host.Outcome.next s.leaveGrant = _
    simp only [State.leaveGrant, empty, headReq]
  · change Host.Outcome.next s.leaveGrant = _
    simp only [State.leaveGrant, head, fits, cool, Bool.not_false, Bool.and_self, if_true]
  · change Host.Outcome.next s.leaveGrant = _
    have holds : (s.admits q.core q.cls && !s.brd.thermtrip) = false := by rcases blocked with h | h <;> simp [h]
    simp only [State.leaveGrant, head, holds, Bool.false_eq_true, if_false]

end Sys2Proof.Machine
end

section
/-! PROOFS. What sending leaves as it was, and the release of group barriers (R206, R207). -/

namespace Sys2Proof.Machine

open Sys2Proof

/-! ### What sending changes -/

/-- `t` differs from `s` only in what was sent, in registers, in the links and in the error state. -/
def State.SendsOnly (s t : State) : Prop := t = { s with out := t.out, regs := t.regs, force := t.force, err := t.err, links := t.links }

theorem State.SendsOnly.refl (s : State) : s.SendsOnly s := rfl

theorem State.SendsOnly.trans {s t u : State} (h : s.SendsOnly t) (k : t.SendsOnly u) : s.SendsOnly u := by
  unfold State.SendsOnly at *
  rw [k, h]

theorem State.sendsOnly_of_regsOnly {s t : State} (h : s.RegsOnly t) : s.SendsOnly t := by
  unfold State.SendsOnly
  rw [h]

theorem State.sendsOnly_rset (s : State) (p : Page) (off : Nat) (v : Word) : s.SendsOnly (s.rset p off v) := rfl
theorem State.sendsOnly_rsetForce (s : State) (p : Page) (off : Nat) (v : Word) : s.SendsOnly (s.rsetForce p off v) := rfl
theorem State.sendsOnly_emit (s : State) (o : Output) : s.SendsOnly (s.emit o) := rfl
theorem State.sendsOnly_count48 (s : State) (p : Page) (off n : Nat) : s.SendsOnly (s.count48 p off n) := rfl

theorem State.sendsOnly_setPort (s : State) (p : Nat) (x : Port) : s.SendsOnly (s.setPort p x) := by
  unfold State.setPort
  split <;> rfl

theorem State.sendsOnly_setEthDim (s : State) (i : Nat) (x : EthDim) : s.SendsOnly (s.setEthDim i x) := by
  unfold State.setEthDim
  split <;> rfl

theorem State.sendsOnly_raise (s : State) (isl : Nat) (r : ErrRec) : s.SendsOnly (s.raise isl r) := by
  obtain ⟨q, only⟩ := s.raise_frame isl r
  refine State.SendsOnly.trans ?_ (State.sendsOnly_of_regsOnly only)
  unfold State.setErrQueue
  split <;> rfl

theorem State.SendsOnly.foldl {α : Type} {s t : State} {g : State → α → State} (l : List α) (hg : ∀ (t : State) (a : α), t.SendsOnly (g t a))
    (h : s.SendsOnly t) : s.SendsOnly (l.foldl g t) := foldl_keeps (P := s.SendsOnly) (fun _ _ k => k.trans (hg _ _)) l h

theorem State.sendsOnly_takeForce (s : State) (p : Page) (sel : RegDef → Word) : s.SendsOnly (s.takeForce p sel) := by
  refine .foldl _ (fun t r => .foldl _ (fun u i => ?_) (.refl t)) (.refl s)
  dsimp only
  split
  · exact .refl u
  · exact u.sendsOnly_rsetForce ..

theorem State.sendsOnly_drainPort (p fuel : Nat) : ∀ s : State, s.SendsOnly (s.drainPort p fuel) := by
  induction fuel with
  | zero => exact State.SendsOnly.refl
  | succ fuel ih =>
    intro s
    unfold State.drainPort
    dsimp only
    split
    · exact .refl s
    · split
      · exact .refl s
      · next y _ => exact (((s.sendsOnly_setPort p y).trans (State.sendsOnly_count48 ..)).trans (State.sendsOnly_emit ..)).trans (ih _)

theorem State.sendsOnly_drain (s : State) (p : Nat) : s.SendsOnly (s.drain p) :=
  (s.sendsOnly_takeForce (.lnk p) (·.rw)).trans (State.sendsOnly_drainPort ..)

theorem State.sendsOnly_drainEth (s : State) (i : Nat) : s.SendsOnly (s.drainEth i) := by
  unfold State.drainEth
  dsimp only
  split
  · exact .refl s
  · split
    · exact .refl s
    · exact ((s.sendsOnly_setEthDim i _).trans (State.sendsOnly_count48 ..)).trans (State.sendsOnly_emit ..)

theorem State.sendsOnly_sendOver (s : State) (k : Nat) (sel : Bool) (f : Flit) : s.SendsOnly (s.sendOver k sel f) := by
  unfold State.sendOver
  split
  · exact (s.sendsOnly_setPort ..).trans (State.sendsOnly_drain ..)
  · exact (s.sendsOnly_setEthDim ..).trans (State.sendsOnly_drainEth ..)

theorem State.sendsOnly_sendFlit (s : State) (from? : Option Nat) (sel : Bool) (f : Flit) : s.SendsOnly (s.sendFlit from? sel f) := by
  unfold State.sendFlit
  split
  · exact s.sendsOnly_sendOver ..
  · exact s.sendsOnly_raise ..

theorem State.sendsOnly_sendSync (s : State) (dst sub : Nat) (ws : List Word) : s.SendsOnly (s.sendSync dst sub ws) :=
  .foldl _ (fun t _ => t.sendsOnly_sendFlit ..) (.refl s)

theorem State.gbar_congr {s t : State} (h : t.gbars = s.gbars) (g : Nat) : t.gbar g = s.gbar g := by
  unfold State.gbar
  simp only [h]

theorem State.SendsOnly.gbar {s t : State} (h : s.SendsOnly t) (g : Nat) : t.gbar g = s.gbar g := State.gbar_congr (by rw [h]) g

/-! ### Carrying an arrival over the dimensions -/

/-- One bit more of a number. -/
theorem mod_two_pow_succ_testBit (x k : Nat) : x % 2 ^ (k + 1) = x % 2 ^ k + if x.testBit k then 2 ^ k else 0 := by
  rw [Nat.mod_pow_succ, Nat.testBit_eq_decide_div_mod_eq]
  rcases Nat.mod_two_eq_zero_or_one (x / 2 ^ k) with h | h <;> simp [h]

/-- A group barrier whose arrival has been carried over its dimensions below `k`: the messages of its generation over them are used up. -/
def GroupBar.carried (b : GroupBar) (k sent : Nat) : GroupBar :=
  { b with own := true, sent := sent, done := b.dims % 2 ^ k
           msgs := b.msgs.filter fun e => !(e.1 == b.key && b.dims.testBit e.2 && decide (e.2 < k)) }

theorem GroupBar.mem_carried_msgs (b : GroupBar) (k sent : Nat) : (b.key, k) ∈ (b.carried k sent).msgs ↔ (b.key, k) ∈ b.msgs := by
  simp [GroupBar.carried]

theorem GroupBar.carried_done_testBit (b : GroupBar) (k sent : Nat) : bitOf (b.carried k sent).done k = false :=
  Nat.testBit_lt_two_pow (Nat.mod_lt _ (Nat.two_pow_pos k))

/-- A dimension that is none of the barrier's needs nothing. -/
theorem GroupBar.carried_skip {b : GroupBar} {k : Nat} (sent : Nat) (h : b.dims.testBit k = false) : b.carried k sent = b.carried (k + 1) sent := by
  have done : b.dims % 2 ^ (k + 1) = b.dims % 2 ^ k := by rw [mod_two_pow_succ_testBit, h]; rfl
  have below : ∀ e : Nat × Nat, (b.dims.testBit e.2 && decide (e.2 < k + 1)) = (b.dims.testBit e.2 && decide (e.2 < k)) := by
    intro e
    by_cases same : e.2 = k
    · simp [same, h]
    · have : e.2 < k + 1 ↔ e.2 < k := by omega
      simp only [this]
  simp only [GroupBar.carried, done, Bool.and_assoc, below]

/-- A dimension over which the message has come uses it up. -/
theorem GroupBar.carried_step {b : GroupBar} {k : Nat} (sent : Nat) (h : b.dims.testBit k = true) :
    { b.carried k sent with done := (b.carried k sent).done + 2 ^ k, msgs := (b.carried k sent).msgs.filter (· != (b.key, k)) } =
      b.carried (k + 1) sent := by
  have done : b.dims % 2 ^ k + 2 ^ k = b.dims % 2 ^ (k + 1) := by rw [mod_two_pow_succ_testBit, h]; rfl
  have used : ∀ e : Nat × Nat, ((e != (b.key, k)) && !(e.1 == b.key && b.dims.testBit e.2 && decide (e.2 < k))) =
      !(e.1 == b.key && b.dims.testBit e.2 && decide (e.2 < k + 1)) := by
    intro e
    obtain ⟨g, j⟩ := e
    by_cases same : j = k
    · subst same
      by_cases key : g = b.key
      · simp [h, key]
      · have ne : ((g, j) != (b.key, j)) = true := by simpa using key
        simp [key, ne]
    · have : j < k + 1 ↔ j < k := by omega
      simp [same, this]
  simp only [GroupBar.carried, done, List.filter_filter, used]

/-- The state in which the arrival at barrier `g` has been sent over dimension `k`. -/
def State.gSend (s : State) (g k : Nat) : State :=
  let b := s.gbar g
  if bitOf b.sent k then s
  else (s.setGbar g { b with sent := b.sent + 2 ^ k }).sendSync (s.devIndex ^^^ 2 ^ k) 3 (arriveWords g k b.gen b.context)

theorem State.gProgress_cons (s : State) (g k : Nat) (ks : List Nat) :
    s.gProgress g (k :: ks) =
      if !bitOf (s.gbar g).dims k || bitOf (s.gbar g).done k then s.gProgress g ks
      else
        let b := (s.gSend g k).gbar g
        if b.msgs.contains (b.key, k) then
          ((s.gSend g k).setGbar g { b with done := b.done + 2 ^ k, msgs := b.msgs.filter (· != (b.key, k)) }).gProgress g ks
        else s.gSend g k := rfl

theorem State.gSend_carried {s : State} {g : Nat} (hg : g < 64) {b : GroupBar} {k sent : Nat} (h : s.gbar g = b.carried k sent) :
    (∃ sent', (s.gSend g k).gbar g = b.carried k sent') ∧ ∀ j < 64, j ≠ g → (s.gSend g k).gbar j = s.gbar j := by
  unfold State.gSend
  dsimp only
  split
  · exact ⟨⟨sent, h⟩, fun _ _ _ => rfl⟩
  · refine ⟨⟨sent + 2 ^ k, ?_⟩, fun j hj ne => ?_⟩
    · rw [(State.sendsOnly_sendSync ..).gbar, State.gbar_setGbar _ _ _ _ hg hg, if_pos rfl, h]
      rfl
    · rw [(State.sendsOnly_sendSync ..).gbar, State.gbar_setGbar _ _ _ _ hg hj, if_neg ne]

/-- From dimension `k` an arrival gets to dimension `j`, which is `n` or the first of the barrier's whose message is missing. -/
structure GroupBar.GetsTo (b : GroupBar) (k n j : Nat) : Prop where
  passed : ∀ i, k ≤ i → i < j → b.dims.testBit i = true → (b.key, i) ∈ b.msgs
  stops : j = n ∨ j < n ∧ b.dims.testBit j = true ∧ (b.key, j) ∉ b.msgs

theorem GroupBar.GetsTo.pass {b : GroupBar} {k n j : Nat} (h : b.GetsTo (k + 1) n j) (here : b.dims.testBit k = true → (b.key, k) ∈ b.msgs) :
    b.GetsTo k n j := by
  refine ⟨fun i ge lt bit => ?_, h.stops⟩
  rcases Nat.eq_or_lt_of_le ge with rfl | later
  · exact here bit
  · exact h.passed i later lt bit

/-- The arrival is carried as far as it gets; the other barriers are as before. -/
theorem State.gProgress_carried {g : Nat} (hg : g < 64) (b : GroupBar) (m : Nat) : ∀ (k sent : Nat) (s : State), s.gbar g = b.carried k sent →
    (∃ j sent', b.GetsTo k (k + m) j ∧ (s.gProgress g (List.range' k m)).gbar g = b.carried j sent') ∧
      ∀ h < 64, h ≠ g → (s.gProgress g (List.range' k m)).gbar h = s.gbar h := by
  induction m with
  | zero => exact fun k sent s at_ => ⟨⟨k, sent, ⟨fun i ge lt => by omega, .inl rfl⟩, at_⟩, fun _ _ _ => rfl⟩
  | succ m ih =>
    intro k sent s at_
    have end_ : k + (m + 1) = k + 1 + m := by omega
    have dims : bitOf (b.carried k sent).dims k = b.dims.testBit k := rfl
    rw [List.range'_succ, State.gProgress_cons, at_, GroupBar.carried_done_testBit, Bool.or_false, dims, end_]
    cases bit : b.dims.testBit k
    · obtain ⟨⟨j, sent', gets, atJ⟩, others⟩ := ih (k + 1) sent s (at_.trans (GroupBar.carried_skip sent bit))
      exact ⟨⟨j, sent', gets.pass fun h => absurd (bit.symm.trans h) Bool.false_ne_true, atJ⟩, others⟩
    · obtain ⟨⟨sent₁, at₁⟩, others₁⟩ := State.gSend_carried hg at_
      rw [at₁]
      by_cases here : (b.key, k) ∈ b.msgs
      · have used : (b.carried k sent₁).msgs.contains ((b.carried k sent₁).key, k) = true :=
          List.contains_iff_mem.mpr ((b.mem_carried_msgs k sent₁).mpr here)
        simp only [used, Bool.not_true, Bool.false_eq_true, if_false, if_true]
        have next : ((s.gSend g k).setGbar g { b.carried k sent₁ with
            done := (b.carried k sent₁).done + 2 ^ k
            msgs := (b.carried k sent₁).msgs.filter (· != ((b.carried k sent₁).key, k)) }).gbar g = b.carried (k + 1) sent₁ := by
          rw [State.gbar_setGbar _ _ _ _ hg hg, if_pos rfl]
          exact GroupBar.carried_step sent₁ bit
        obtain ⟨⟨j, sent', gets, atJ⟩, others⟩ := ih (k + 1) sent₁ _ next
        refine ⟨⟨j, sent', gets.pass fun _ => here, atJ⟩, fun h hh ne => ?_⟩
        rw [others h hh ne, State.gbar_setGbar _ _ _ _ hg hh, if_neg ne, others₁ h hh ne]
      · have missing : (b.carried k sent₁).msgs.contains ((b.carried k sent₁).key, k) = false := by
          rw [Bool.eq_false_iff, ne_eq, List.contains_iff_mem]
          exact fun h => here ((b.mem_carried_msgs k sent₁).mp h)
        simp only [missing, Bool.not_true, Bool.false_eq_true, if_false]
        exact ⟨⟨k, sent₁, ⟨fun i ge lt => by omega, .inr ⟨by omega, bit, here⟩⟩, at₁⟩, others₁⟩

/-! ### The release -/

@[simp] theorem State.count48_gbars (s : State) (p : Page) (off n : Nat) : (s.count48 p off n).gbars = s.gbars := rfl

@[simp] theorem State.invalidate_gbars (s : State) (c : Nat) : (s.invalidate c).gbars = s.gbars := s.setCore_gbars ..

@[simp] theorem State.waitStatus_gbars (s : State) (c u status : Nat) (own : Option Nat) : (s.waitStatus c u status own).gbars = s.gbars := by
  obtain ⟨st, eq⟩ | ⟨k, f, eq⟩ | eq := s.waitStatus_cases c u status own
  · exact eq ▸ s.setCore_gbars ..
  · exact eq ▸ s.setCtx_gbars ..
  · rw [eq]

@[simp] theorem State.fire_gbars (s : State) (c t status : Nat) (own : Option Nat) : (s.fire c t status own).gbars = s.gbars := by
  unfold State.fire
  dsimp only
  split
  · rfl
  · rw [State.waitStatus_gbars]
    split
    · rw [State.invalidate_gbars, State.count48_gbars, State.setCore_gbars]
    · rw [State.count48_gbars, State.setCore_gbars]

/-- A release begins the next generation of its barrier, with nobody waiting, and touches no other barrier. -/
theorem State.gRelease_gbars (s : State) (g status : Nat) :
    (s.gRelease g status).gbars = ((s.addSlack g).setGbar g { s.gbar g with
      gen := ((s.gbar g).gen + 1) % 65536, arrived := 0, own := false, sent := 0, done := 0, waiters := [] }).gbars := by
  unfold State.gRelease
  exact foldl_keeps (P := fun t : State => t.gbars = _) (fun t w h => (t.fire_gbars ..).trans h) _ rfl

/-- The state in which this device's own arrival at a barrier has been noted. -/
def State.gOwn (s : State) (g : Nat) : State :=
  let p := s.setGbar g { s.gbar g with own := true }
  { p with pwr := { p.pwr with arrivedAt := p.pwr.arrivedAt.filter (·.1 != g) ++ [(g, p.aonClk)] } }

theorem State.gStep_eq (s : State) (g : Nat) :
    s.gStep g =
      let b := s.gbar g
      let s1 := if !b.own && decide (b.localParts ≤ b.arrived) && (b.st == .open || b.st == .frozen) then s.gOwn g else s
      let s2 := if (s1.gbar g).own then s1.gProgress g (List.range' 0 6) else s1
      if (s2.gbar g).complete && (s2.gbar g).st == .open then (s2.gRelease g wmMet, true) else (s2, false) := rfl

theorem State.gbar_gOwn (s : State) {g j : Nat} (hg : g < 64) (hj : j < 64) :
    (s.gOwn g).gbar j = if j = g then { s.gbar g with own := true } else s.gbar j := State.gbar_setGbar _ _ _ _ hg hj

theorem GroupBar.carried_zero {b : GroupBar} (fresh : b.sent = 0) (undone : b.done = 0) : { b with own := true } = b.carried 0 0 := by
  have all : (b.msgs.filter fun e => !(e.1 == b.key && b.dims.testBit e.2 && decide (e.2 < 0))) = b.msgs := by simp
  rw [GroupBar.carried, all, Nat.pow_zero, Nat.mod_one]
  simp only [fresh, undone]

/-- A carried barrier is complete when no dimension is left, and not when a dimension of it is. -/
theorem GroupBar.complete_carried {b : GroupBar} (sent : Nat) (small : b.dims < 64) : (b.carried 6 sent).complete = true := by
  simp [GroupBar.complete, GroupBar.carried, Nat.mod_eq_of_lt small]

theorem GroupBar.not_complete_carried {b : GroupBar} {j : Nat} (sent : Nat) (bit : b.dims.testBit j = true) : (b.carried j sent).complete = false := by
  have done : b.dims % 2 ^ j ≠ b.dims := fun same => by
    have := Nat.testBit_lt_two_pow (Nat.mod_lt b.dims (Nat.two_pow_pos j))
    rw [same, bit] at this
    cases this
  simp [GroupBar.complete, GroupBar.carried, done]

/-- A barrier at which every local arrival has come is carried over its dimensions; it releases when none has stopped it. -/
theorem State.gStep_of_arrived {s : State} {g : Nat} (hg : g < 64) (open_ : (s.gbar g).st = .open) (unsent : (s.gbar g).own = false)
    (fresh : (s.gbar g).sent = 0) (undone : (s.gbar g).done = 0) (arrived : (s.gbar g).localParts ≤ (s.gbar g).arrived)
    (small : (s.gbar g).dims < 64) :
    ∃ (t : State) (j sent : Nat), t.gbar g = (s.gbar g).carried j sent ∧ (∀ h < 64, h ≠ g → t.gbar h = s.gbar h) ∧ (s.gbar g).GetsTo 0 6 j ∧
      s.gStep g = if j = 6 then (t.gRelease g wmMet, true) else (t, false) := by
  have go : (!(s.gbar g).own && decide ((s.gbar g).localParts ≤ (s.gbar g).arrived) && ((s.gbar g).st == .open || (s.gbar g).st == .frozen)) = true := by
    simp [unsent, arrived, open_]
  have own : (s.gOwn g).gbar g = (s.gbar g).carried 0 0 := by
    rw [State.gbar_gOwn _ hg hg, if_pos rfl]
    exact GroupBar.carried_zero fresh undone
  have ready : ((s.gbar g).carried 0 0).own = true := rfl
  have stands : ∀ j sent, (((s.gbar g).carried j sent).st == .open) = true := fun _ _ => by rw [GroupBar.carried, open_]; rfl
  obtain ⟨⟨j, sent, gets, atJ⟩, others⟩ := State.gProgress_carried hg (s.gbar g) 6 0 0 (s.gOwn g) own
  refine ⟨(s.gOwn g).gProgress g (List.range' 0 6), j, sent, atJ, fun h hh ne => ?_, gets, ?_⟩
  · rw [others h hh ne, State.gbar_gOwn _ hg hh, if_neg ne]
  · rw [State.gStep_eq]
    simp only [go, if_true, own, ready, atJ, stands, Bool.and_true]
    rcases gets.stops with rfl | ⟨lt, bit, -⟩
    · rw [if_pos (GroupBar.complete_carried sent small), if_pos rfl]
    · rw [GroupBar.not_complete_carried sent bit, if_neg (show j ≠ 6 by omega)]
      rfl

/-- Settles O41: the barrier releases when its arrival gets past every dimension, and gets past a dimension of it when the message is there. -/
theorem groupBarriersRelease : Obligations.GroupBarriersRelease := by
  unfold Obligations.GroupBarriersRelease
  intro s g hg b open_ unsent fresh undone arrived small t
  obtain ⟨u, j, sent, atJ, others, gets, step⟩ := State.gStep_of_arrived hg open_ unsent fresh undone arrived small
  have released : ∀ h < 64, (u.gRelease g wmMet).gbar h = if h = g then
      { u.gbar g with gen := ((u.gbar g).gen + 1) % 65536, arrived := 0, own := false, sent := 0, done := 0, waiters := [] } else u.gbar h :=
    fun h hh => (State.gbar_congr (u.gRelease_gbars g wmMet) h).trans (State.gbar_setGbar (u.addSlack g) g h _ hg hh)
  have final : t = (s.gStep g).1 := rfl
  rw [final, step]
  refine ⟨fun come => ?_, fun k hk bit missing => ?_, fun h hh ne => ?_⟩
  · have past : j = 6 := by
      rcases gets.stops with past | ⟨lt, bit, missing⟩
      · exact past
      · exact absurd (come j lt bit) missing
    rw [if_pos past]
    dsimp only
    rw [released g hg, if_pos rfl, atJ, past]
    exact ⟨rfl, rfl, rfl, rfl, rfl, rfl, rfl, rfl⟩
  · have stopped : j ≠ 6 := fun past => missing (gets.passed k (Nat.zero_le k) (by omega) bit)
    rw [if_neg stopped]
    dsimp only
    rw [atJ]
    exact ⟨rfl, rfl, rfl⟩
  · split
    · exact (released h hh).trans ((if_neg ne).trans (others h hh ne))
    · exact others h hh ne

end Sys2Proof.Machine
end

section
/-! PROOFS. The vector engine: the order in which it moves, its issue, its instructions and its completion (O23 to O27). -/

namespace Sys2Proof.Machine

open Sys2Proof

/-! ### Where the engine goes -/

/-- The operation that core c's engine runs is set. -/
def State.setRun (s : State) (c : Nat) (r : ChainRun) : State := s.modCore c fun x => { x with vec := { x.vec with run := some r } }

theorem State.run_setRun (s : State) {c : Nat} (r : ChainRun) (h : c < 48) : ((s.setRun c r).core c).vec.run = some r := by
  rw [State.setRun, State.core_modCore_same s _ h]

/-- A row as the engine of a state begins it: at the first instruction of the first chunk, with no V register held (R123, R142). -/
def ChainRun.begun (r : ChainRun) (s : State) : ChainRun :=
  { r with chunk := 0, sweep := 0, pc := 0, v := [], poison := r.badRows.contains r.row
           t := (List.range 16).map fun i => (i, BitVec.ofNat 32 (Config.free (s.freeCtr + i))) }

theorem State.presentRow_of_lt (s : State) (c : Nat) {r : ChainRun} (h : r.row < r.rows.length) :
    s.presentRow c r =
      let s1 := (({ s with freeCtr := s.freeCtr + 16 } : State).setRun c (r.begun s)).count48 (.vec c) 0x28 1
      if r.badRows.contains r.row then (s1.count48 (.vec c) 0x40 1).ror (.vec c) 4 8 else s1 := by
  unfold State.presentRow
  rw [if_pos h]
  rfl

theorem State.presentRow_of_le (s : State) (c : Nat) {r : ChainRun} (h : r.rows.length ≤ r.row) :
    s.presentRow c r = s.setRun c { r with v := [], t := [] } := by
  unfold State.presentRow
  rw [if_neg (Nat.not_lt.2 h)]
  rfl

@[simp] theorem State.core_ror (s : State) (p : Page) (off mask c : Nat) : (s.ror p off mask).core c = s.core c := rfl

theorem State.run_presentRow_of_lt (s : State) {c : Nat} {r : ChainRun} (hc : c < 48) (h : r.row < r.rows.length) :
    ((s.presentRow c r).core c).vec.run = some (r.begun s) := by
  rw [s.presentRow_of_lt c h]
  dsimp only
  split <;> simp only [State.core_ror, State.core_count48, State.run_setRun _ _ hc]

/-- The row that `presentRow` presents: no V register holds a value, and a row that exists starts at the first instruction of the first chunk. -/
theorem State.run_presentRow (s : State) {c : Nat} (r : ChainRun) (h : c < 48) :
    ∃ r2, ((s.presentRow c r).core c).vec.run = some r2 ∧ r2.row = r.row ∧ r2.v = [] ∧
      (r.row < r.rows.length → r2.pc = 0 ∧ r2.chunk = 0 ∧ r2.sweep = 0) := by
  by_cases within : r.row < r.rows.length
  · exact ⟨r.begun s, s.run_presentRow_of_lt h within, rfl, rfl, fun _ => ⟨rfl, rfl, rfl⟩⟩
  · refine ⟨{ r with v := [], t := [] }, ?_, rfl, rfl, fun b => absurd b within⟩
    rw [s.presentRow_of_le c (Nat.not_lt.1 within), s.run_setRun _ h]

/-- The engine is at the end of a body or of a sweep (R133). -/
def ChainRun.ends (r : ChainRun) (fin : Bool) : Bool :=
  fin || (r.op.prog.split != 0 && r.sweep == 0 && r.pc + 1 == r.op.prog.split)

theorem ChainRun.ends_iff (r : ChainRun) (fin : Bool) :
    r.ends fin = true ↔ fin = true ∨ (r.op.prog.split ≠ 0 ∧ r.sweep = 0 ∧ r.pc + 1 = r.op.prog.split) := by
  simp [ChainRun.ends, and_assoc]

theorem State.stepChain_of_run {s : State} {c : Nat} {r : ChainRun} (h : (s.core c).vec.run = some r) (slots : Nat) (fin : Bool) :
    s.stepChain c slots fin =
      let r1 := { r with slots := r.slots + slots }
      if r.ends fin then
        if r.chunk + 1 < r.chunks then s.setRun c { r1 with chunk := r.chunk + 1, pc := if r.sweep = 0 then 0 else r.op.prog.split, v := [] }
        else if r.op.prog.split ≠ 0 ∧ r.sweep = 0 then s.setRun c { r1 with sweep := 1, chunk := 0, pc := r.op.prog.split, v := [] }
        else s.presentRow c { r1 with row := r.row + 1 }
      else s.setRun c { r1 with pc := r.pc + 1 } := by
  unfold State.stepChain
  rw [h]
  rfl

/-- Settles O27: the four branches of `stepChain`, told apart by the three conditions. -/
theorem chainOrder : Obligations.ChainOrder := by
  intro s c slots fin r hc run split ends r1 after
  have at_end : r.ends fin = true ↔ ends := r.ends_iff fin
  have step := State.stepChain_of_run run slots fin
  have after_eq : after = ((s.stepChain c slots fin).core c).vec.run := rfl
  rw [step] at after_eq
  rw [after_eq]
  refine ⟨fun no => ?_, fun yes more => ?_, fun yes last two first => ?_, fun yes last one => ?_⟩
  · rw [← at_end] at no
    simp only [if_neg no]
    exact s.run_setRun _ hc
  · simp only [if_pos (at_end.2 yes), if_pos more]
    exact s.run_setRun _ hc
  · have in_first : r.op.prog.split ≠ 0 ∧ r.sweep = 0 := ⟨two, first⟩
    simp only [if_pos (at_end.2 yes), if_neg (Nat.not_lt.2 last), if_pos in_first]
    exact s.run_setRun _ hc
  · have not_first : ¬(r.op.prog.split ≠ 0 ∧ r.sweep = 0) := fun b => one.elim b.1 fun n => n b.2
    simp only [if_pos (at_end.2 yes), if_neg (Nat.not_lt.2 last), if_neg not_first]
    exact s.run_presentRow _ hc

end Sys2Proof.Machine
end

section
/-! PROOFS. The instructions of chain programs: lanewise, reductions, loads, stores and selection (O24 to O26). -/

namespace Sys2Proof.Machine

open Sys2Proof

theorem State.chainStep_of_chainAt {s : State} {c opc : Nat} {x : ChainEnv} (h : s.chainAt c opc x) (f : ChainEnv → State → State × Nat) :
    s.chainStep c opc f = .next ((f x s).1.stepChain c (f x s).2 false) := by
  obtain ⟨env, free⟩ := h
  unfold State.chainStep
  rw [env]
  simp only [free, Bool.false_eq_true, if_false]

/-! ### Lanewise instructions and reductions -/

theorem ChainEnv.arith_of_lt {x : ChainEnv} (h : x.ins.dst < 16) (as : List Nat) (f : List Word → Word) (s : State) :
    x.arith as f s = ((s.poisonRow x ((as.map (x.lanes s (x.laneWidth as))).any (·.2))).putV x.c x.ins.dst
      ((List.range (x.laneWidth as)).map fun i => f ((as.map (x.lanes s (x.laneWidth as))).map fun l => l.1.getD i 0)), x.laneWidth as) := by
  unfold ChainEnv.arith
  rw [if_pos h]

theorem ChainEnv.arith_of_le {x : ChainEnv} (h : 16 ≤ x.ins.dst) (as : List Nat) (f : List Word → Word) (s : State) :
    x.arith as f s = ((s.poisonRow x ((as.map (x.scalar s)).any (·.2))).putScalar x x.ins.dst (f ((as.map (x.scalar s)).map (·.1))), 16) := by
  unfold ChainEnv.arith
  rw [if_neg (Nat.not_lt.2 h)]

theorem exec_unaryCommands : ∀ e ∈ unaryCommands, ∀ (c : Fin 48) (s : State),
    exec (e.2.1 c) s = s.chainStep c e.1 fun x => x.unary e.2.2 := by
  simp only [unaryCommands, List.forall_mem_cons, List.not_mem_nil, false_implies, implies_true, and_true]
  exact ⟨fun _ _ => rfl, fun _ _ => rfl, fun _ _ => rfl, fun _ _ => rfl, fun _ _ => rfl, fun _ _ => rfl, fun _ _ => rfl⟩

theorem exec_binaryCommands : ∀ e ∈ binaryCommands, ∀ (c : Fin 48) (s : State),
    exec (e.2.1 c) s = s.chainStep c e.1 fun x => x.binary e.2.2 := by
  simp only [binaryCommands, List.forall_mem_cons, List.not_mem_nil, false_implies, implies_true, and_true]
  exact ⟨fun _ _ => rfl, fun _ _ => rfl, fun _ _ => rfl, fun _ _ => rfl, fun _ _ => rfl, fun _ _ => rfl, fun _ _ => rfl, fun _ _ => rfl⟩

theorem exec_ternaryCommands : ∀ e ∈ ternaryCommands, ∀ (c : Fin 48) (s : State),
    exec (e.2.1 c) s = s.chainStep c e.1 fun x => x.ternary e.2.2 := by
  simp only [ternaryCommands, List.forall_mem_cons, List.not_mem_nil, false_implies, implies_true, and_true]
  exact ⟨fun _ _ => rfl, fun _ _ => rfl⟩

theorem exec_reduceCommands : ∀ e ∈ reduceCommands, ∀ (c : Fin 48) (s : State),
    exec (e.2.1 c) s = s.chainStep c e.1 fun x => x.reduce e.2.2 := by
  simp only [reduceCommands, List.forall_mem_cons, List.not_mem_nil, false_implies, implies_true, and_true]
  exact ⟨fun _ _ => rfl, fun _ _ => rfl, fun _ _ => rfl, fun _ _ => rfl⟩

/-- Settles O24: each instruction is `chainStep` of its function, which the destination's kind makes lanewise or scalar. -/
theorem lanewiseAndReductions : Obligations.LanewiseAndReductions := by
  refine ⟨⟨fun e he s c x at_ => ?_, fun e he s c x at_ => ?_, fun e he s c x at_ => ?_⟩, fun e he s c x at_ => ?_, fun s c x at_ => ?_⟩
  · refine ⟨fun v => ?_, fun k => ?_⟩ <;> rw [exec_unaryCommands e he, State.chainStep_of_chainAt at_, ChainEnv.unary]
    · rw [ChainEnv.arith_of_lt v]
      simp only [List.map_cons, List.map_nil, List.any_cons, List.any_nil, Bool.or_false, List.getD_cons_zero]
    · rw [ChainEnv.arith_of_le k]
      simp only [List.map_cons, List.map_nil, List.any_cons, List.any_nil, Bool.or_false, List.getD_cons_zero]
  · refine ⟨fun v => ?_, fun k => ?_⟩ <;> rw [exec_binaryCommands e he, State.chainStep_of_chainAt at_, ChainEnv.binary]
    · rw [ChainEnv.arith_of_lt v]
      simp only [List.map_cons, List.map_nil, List.any_cons, List.any_nil, Bool.or_false, List.getD_cons_zero, List.getD_cons_succ]
    · rw [ChainEnv.arith_of_le k]
      simp only [List.map_cons, List.map_nil, List.any_cons, List.any_nil, Bool.or_false, List.getD_cons_zero, List.getD_cons_succ]
  · refine ⟨fun v => ?_, fun k => ?_⟩ <;> rw [exec_ternaryCommands e he, State.chainStep_of_chainAt at_, ChainEnv.ternary]
    · rw [ChainEnv.arith_of_lt v]
      simp only [List.map_cons, List.map_nil, List.any_cons, List.any_nil, Bool.or_false, Bool.or_assoc, List.getD_cons_zero,
        List.getD_cons_succ]
    · rw [ChainEnv.arith_of_le k]
      simp only [List.map_cons, List.map_nil, List.any_cons, List.any_nil, Bool.or_false, Bool.or_assoc, List.getD_cons_zero,
        List.getD_cons_succ]
  · exact (exec_reduceCommands e he c s).trans (State.chainStep_of_chainAt at_ _)
  · intro a old new al s1
    have step : exec (.osm c) s = .next ((if al = one32 then s1 else s1.count48 (.vec x.c) 0x48 1).stepChain c a.length false) :=
      (State.chainStep_of_chainAt at_ _ : execOsm c s = _)
    refine ⟨fun same => ?_, fun other => ?_⟩
    · rw [step, if_pos same]
    · rw [step, if_neg other]

/-! ### Loads and stores -/

theorem ChainEnv.column_eq (x : ChainEnv) : x.column = if bitOf x.ins.mode 0 = true ∨ x.onSlot = true then 0 else x.col := by
  unfold ChainEnv.column
  simp only [Bool.or_eq_true]

/-- Settles O25: each load and store is `chainStep` of its function. -/
theorem chainLoadsAndStores : Obligations.ChainLoadsAndStores := by
  refine ⟨fun s c x => ?_, fun s c x => ?_⟩
  · intro w col row first rows
    have col_eq : x.column = col := x.column_eq
    refine ⟨fun at_ => ?_, fun at_ => ?_, fun at_ within => ?_, fun at_ past => ?_, fun at_ => ?_⟩
    · rw [← col_eq]
      exact (State.chainStep_of_chainAt at_ _ : execLd c s = _)
    · exact (State.chainStep_of_chainAt at_ _ : execLdv c s = _)
    · refine (State.chainStep_of_chainAt at_ _ : execLdp c s = _).trans ?_
      dsimp only
      rw [if_neg (Nat.not_le.2 within)]
    · refine (State.chainStep_of_chainAt at_ _ : execLdp c s = _).trans ?_
      dsimp only
      rw [if_pos past]
    · exact (State.chainStep_of_chainAt at_ _ : execLdq c s = _)
  · refine ⟨fun at_ => ?_, fun at_ => ?_⟩
    · rw [← x.column_eq]
      exact (State.chainStep_of_chainAt at_ _ : execSt c s = _)
    · exact (State.chainStep_of_chainAt at_ _ : execStq c s = _)

/-! ### Permutation and selection -/

theorem State.perm_of_chainEnv {s : State} {c : Nat} {x : ChainEnv} (h : s.chainEnv c 0x1C = some x) {mode : Nat} (m : x.ins.mode = mode)
    (f : Nat → List Word → List Word) :
    s.perm c mode f =
      let a := x.lanes s (x.laneWidth [x.ins.sa]) x.ins.sa
      .next (((s.poisonRow x a.2).putV c x.ins.dst (f x.ins.imm a.1)).stepChain c a.1.length false) := by
  unfold State.perm
  rw [h]
  simp only [m, ne_eq, not_true_eq_false, if_false]

/-- Settles O26: PERM and TOPK by their modes, the others by `chainStep`. -/
theorem permTopKAndSelection : Obligations.PermTopKAndSelection := by
  refine ⟨fun s c x => ⟨fun env => ⟨fun m => (State.perm_of_chainEnv env m _ : execPermRotateHalf c s = _),
      fun m => (State.perm_of_chainEnv env m _ : execPermPairSwap c s = _)⟩, fun env => ?_⟩,
    fun s c x => ⟨fun at_ => (State.chainStep_of_chainAt at_ _ : execSelcnt c s = _),
      fun at_ => (State.chainStep_of_chainAt at_ _ : execStg c s = _), fun env => ?_⟩⟩
  · refine ⟨fun order => ?_, fun order => ?_⟩
    · change s.topk c false = _
      unfold State.topk
      rw [env]
      simp only [order, bne_self_eq_false, Bool.false_eq_true, if_false]
    · change s.topk c true = _
      unfold State.topk
      rw [env]
      simp only [order, bne_self_eq_false, Bool.false_eq_true, if_false, if_true]
  · change execEnd c s = _
    unfold execEnd
    rw [env]

end Sys2Proof.Machine
end

section
/-! PROOFS. What accesses to memory change: memory, and what is recorded of them (R162, R163). -/

namespace Sys2Proof.Machine

open Sys2Proof

/-! ### What accesses to memory change -/

/-- `t` differs from `s` only in memory, registers, the error state and the board's counts of errors. -/
def State.MemOnly (s t : State) : Prop := t = { s with mem := t.mem, regs := t.regs, err := t.err, brd := t.brd }

namespace State.MemOnly

theorem refl (s : State) : s.MemOnly s := rfl

theorem trans {s t u : State} (h : s.MemOnly t) (k : t.MemOnly u) : s.MemOnly u := by
  unfold State.MemOnly at *
  rw [k, h]

theorem of_regsOnly {s t : State} (h : s.RegsOnly t) : s.MemOnly t := by
  unfold State.MemOnly
  rw [h]

theorem foldl {α : Type} {g : State → α → State} (hg : ∀ t a, State.MemOnly t (g t a)) (l : List α) (s : State) : s.MemOnly (l.foldl g s) :=
  foldl_keeps (P := s.MemOnly) (fun _ _ k => k.trans (hg _ _)) l (refl s)

theorem raise (s : State) (isl : Nat) (r : ErrRec) : s.MemOnly (s.raise isl r) := by
  obtain ⟨q, only⟩ := s.raise_frame isl r
  refine trans ?_ (of_regsOnly only)
  unfold State.setErrQueue
  split <;> rfl

theorem noteBad (s : State) (a : Nat) : s.MemOnly (s.noteBad a) := by
  unfold State.noteBad
  split <;> rfl

theorem noteCe (s : State) (a : Nat) : s.MemOnly (s.noteCe a) := by
  unfold State.noteCe
  split <;> rfl

theorem ite {s a b : State} (c : Prop) [Decidable c] (ha : s.MemOnly a) (hb : s.MemOnly b) : s.MemOnly (if c then a else b) := by
  split
  · exact ha
  · exact hb

theorem noteWord (s : State) (who : UnitId) (isl a patrol : Nat) (cx : Option Ctx) : s.MemOnly (s.noteWord who isl a patrol cx) := by
  have ce : ∀ s' : State, s.MemOnly s' → ∀ r, s.MemOnly ((s'.noteCe a).raise isl r) := fun s' h r => (h.trans (noteCe s' a)).trans (raise ..)
  have ue : ∀ s' : State, s.MemOnly s' → ∀ r, s.MemOnly ((s'.noteBad a).raise isl r) := fun s' h r => (h.trans (noteBad s' a)).trans (raise ..)
  unfold State.noteWord
  dsimp only
  split
  · exact refl s
  · split <;> rfl
  · rcases eccCounters a with _ | ⟨p, n, m⟩
    · exact ite _ ((ce s (refl s) _).trans rfl) (ce s (refl s) _)
    · exact ite _ ((ce _ (of_regsOnly (.count48 p n 1 (.refl s))) _).trans rfl) (ce _ (of_regsOnly (.count48 p n 1 (.refl s))) _)
  · rcases eccCounters a with _ | ⟨p, n, m⟩
    · split
      · exact ue _ (of_regsOnly (.rset _ _ _ (.rset _ _ _ (.refl s)))) _
      · exact ue s (refl s) _
    · have counted := RegsOnly.ror p 4 2 (.count48 p m 1 (.refl s))
      split
      · exact ue _ (of_regsOnly (.rset _ _ _ (.rset _ _ _ counted))) _
      · exact ue _ (of_regsOnly counted) _

theorem noteWords (s : State) (who : UnitId) (isl a n : Nat) (cx : Option Ctx) : s.MemOnly (s.noteWords who isl a n cx) :=
  foldl (fun t _ => noteWord t ..) _ s

theorem putWord (s : State) (a : Nat) (w : PWord) : s.MemOnly (s.putWord a w) := rfl

theorem mergeGranules (s : State) (a n : Nat) : s.MemOnly (s.mergeGranules a n) := by
  unfold State.mergeGranules
  split
  · exact refl s
  · refine foldl (fun t i => ?_) _ s
    dsimp only
    split
    · exact refl t
    · split
      · exact refl t
      · exact (foldl (fun t x => noteWord t ..) _ t).trans rfl

theorem putWords (s : State) (a : Nat) (ws : List PWord) : s.MemOnly (s.putWords a ws) := by
  have merged : s.MemOnly (if regionOf a = .lpddr then s.mergeGranules a ws.length else s) := ite _ (mergeGranules ..) (refl s)
  have written := merged.trans (foldl (g := fun s (p : Nat × PWord) => s.putWord (a + 4 * p.1) p.2) (fun t p => putWord ..)
    ((List.range ws.length).zip ws) _)
  exact ite _ (written.trans rfl) written

theorem poisonRange (s : State) (a n : Nat) : s.MemOnly (s.poisonRange a n) := putWords ..

theorem mergeWord (s : State) (who : UnitId) (isl a : Nat) (keep : Nat → Bool) (bytes : Nat → Byte) :
    s.MemOnly (s.mergeWord who isl a keep bytes) := by
  exact trans (ite _ (noteWord ..) (refl s)) (putWords ..)

theorem putBytes (s : State) (who : UnitId) (isl a : Nat) (bs : List Byte) : s.MemOnly (s.putBytes who isl a bs) := by
  unfold State.putBytes
  dsimp only
  split
  · exact refl s
  · split
    · exact mergeWord ..
    · exact ite _ (trans (ite _ (refl s) (mergeWord ..)) (putWords ..))
        (trans (trans (ite _ (refl s) (mergeWord ..)) (putWords ..)) (mergeWord ..))

theorem copyBytes (s : State) (c to_ from_ n : Nat) : s.MemOnly (s.copyBytes c to_ from_ n) := by
  unfold State.copyBytes
  dsimp only
  split
  · exact putWords ..
  · split
    · exact (putBytes ..).trans (poisonRange ..)
    · exact putBytes ..

theorem stagePass (s : State) (o : OpCtx) (c kpp : Nat) : s.MemOnly (s.stagePass o c kpp) := by
  unfold State.stagePass
  dsimp only
  split
  · exact refl s
  · refine foldl (fun t m => foldl (fun t sl => ?_) _ t) _ s
    exact ite _ (copyBytes ..) ((copyBytes ..).trans (copyBytes ..))

theorem noteRow (s : State) (cfg : PassCfg) (w : RowPlace) (who : UnitId) (isl : Nat) (cx : Option Ctx) :
    s.MemOnly (s.noteRow cfg w who isl cx) := by
  unfold State.noteRow
  dsimp only
  split
  · exact (noteWords ..).trans (noteWords ..)
  · exact (((noteWords ..).trans (noteWords ..)).trans (noteWords ..)).trans (noteWords ..)

theorem cores {s t : State} (h : s.MemOnly t) : t.cores = s.cores := by rw [h]

end State.MemOnly

end Sys2Proof.Machine
end

section
/-! PROOFS. The passes of the matrix engine: their issue, what makes them wait, and their completion (O20, O21). -/

namespace Sys2Proof.Machine

open Sys2Proof

/-! ### What recording a pass leaves -/

/-- What a tile has done so far: its number, its operations that are open and the place of each thread. -/
def TileRun.progress (t : TileRun) : Nat × Nat × List (Nat × Nat) := (t.num, t.open_, t.pos)

/-- The passes in flight of a core and the progress of the tile on its unit u. -/
def CoreState.passView (u : Nat) (x : CoreState) : List Flight × Option (Nat × Nat × List (Nat × Nat)) :=
  (x.flights, (x.unit u).cur.map TileRun.progress)

/-- `t` differs from `s` in memory, records, contexts, and of the cores in nothing that shows the passes of core c and the progress on its
unit u. -/
def State.PassNotes (c u : Nat) (s t : State) : Prop :=
  t = { s with mem := t.mem, regs := t.regs, err := t.err, brd := t.brd, ctxs := t.ctxs, cores := t.cores } ∧
    (t.core c).passView u = (s.core c).passView u

theorem CoreState.unit_setUnit (x : CoreState) {u : Nat} (j : Nat) (v : UnitRun) (h : u < 8) :
    (x.setUnit j v).unit u = if j = u then v else x.unit u := by
  unfold CoreState.setUnit CoreState.unit
  by_cases hj : j < 8
  · simp only [dif_pos hj, Vector.getElem_set, show min u 7 = u by omega]
  · rw [dif_neg hj, if_neg (by omega)]

@[simp] theorem CoreState.setUnit_flights (x : CoreState) (u : Nat) (v : UnitRun) : (x.setUnit u v).flights = x.flights := by
  unfold CoreState.setUnit
  split <;> rfl

theorem CoreState.passView_setUnit (x : CoreState) {u : Nat} (j : Nat) (f : TileRun → TileRun) (hu : u < 8)
    (h : ∀ t, (f t).progress = t.progress) : (x.setUnit j { x.unit j with cur := (x.unit j).cur.map f }).passView u = x.passView u := by
  unfold CoreState.passView
  rw [CoreState.setUnit_flights, x.unit_setUnit j _ hu]
  split
  · next same =>
    subst same
    simp only [Option.map_map, Function.comp_def, h]
  · rfl

namespace State.PassNotes

theorem refl (c u : Nat) (s : State) : s.PassNotes c u s := ⟨rfl, rfl⟩

theorem trans {c u : Nat} {s t w : State} (h : s.PassNotes c u t) (k : t.PassNotes c u w) : s.PassNotes c u w := by
  obtain ⟨h, view⟩ := h
  obtain ⟨k, view'⟩ := k
  refine ⟨?_, view'.trans view⟩
  rw [k, h]

theorem ite {c u : Nat} {s a b : State} (p : Prop) [Decidable p] (ha : s.PassNotes c u a) (hb : s.PassNotes c u b) :
    s.PassNotes c u (if p then a else b) := by
  split
  · exact ha
  · exact hb

theorem foldl {α : Type} {c u : Nat} {g : State → α → State} (hg : ∀ t a, State.PassNotes c u t (g t a)) (l : List α) (s : State) :
    s.PassNotes c u (l.foldl g s) := foldl_keeps (P := s.PassNotes c u) (fun _ _ k => k.trans (hg _ _)) l (refl c u s)

theorem of_memOnly {s t : State} (c u : Nat) (h : s.MemOnly t) : s.PassNotes c u t := by
  refine ⟨?_, congrArg (CoreState.passView u) (State.core_congr h.cores c)⟩
  rw [h]

theorem modCore (c u : Nat) (s : State) (d : Nat) (f : CoreState → CoreState) (h : ∀ x, (f x).passView u = x.passView u) :
    s.PassNotes c u (s.modCore d f) := by
  refine ⟨?_, State.part_modCore (CoreState.passView u) s d c f h⟩
  unfold State.modCore State.setCore
  split <;> rfl

theorem modTile {u : Nat} (hu : u < 8) (c : Nat) (s : State) (d j : Nat) (f : TileRun → TileRun) (h : ∀ t, (f t).progress = t.progress) :
    s.PassNotes c u (s.modTile d j f) := modCore c u s d _ fun x => x.passView_setUnit j f hu h

theorem modCtx (c u : Nat) (s : State) (k : Nat) (f : Ctx → Ctx) : s.PassNotes c u (s.modCtx k f) := by
  refine ⟨?_, congrArg (CoreState.passView u) (s.core_modCtx k f c)⟩
  unfold State.modCtx State.setCtx
  split <;> rfl

theorem failTile {u : Nat} (hu : u < 8) (c : Nat) (s : State) (d j status : Nat) : s.PassNotes c u (s.failTile d j status) :=
  modTile hu c s d j _ fun _ => rfl

theorem noteBuffer (c u : Nat) (s : State) (key a : Nat) : s.PassNotes c u (s.noteBuffer key a) := by
  have go : ∀ d, s.PassNotes c u (State.noteBuffer.go key a s d) := fun d => by
    unfold State.noteBuffer.go
    exact ite _ (trans ⟨rfl, rfl⟩ (modCore c u _ d _ fun _ => rfl)) ⟨rfl, rfl⟩
  unfold State.noteBuffer
  split
  · exact go _
  · exact go _
  · exact refl c u s

theorem taintTile {u : Nat} (hu : u < 8) (c : Nat) (s : State) (d j : Nat) (as : List Nat) : s.PassNotes c u (s.taintTile d j as) :=
  ite _ (refl c u s) (trans (foldl (fun t a => noteBuffer c u t _ a) as s) (modTile hu c _ d j _ fun _ => rfl))

theorem raiseCore (c u : Nat) (s : State) (d sub cls status addr detail : Nat) : s.PassNotes c u (s.raiseCore d sub cls status addr detail) :=
  of_memOnly c u (State.MemOnly.raise ..)

theorem noteParity (c u : Nat) (s : State) (d : Nat) : s.PassNotes c u (s.noteParity d) := modCore c u s d _ fun _ => rfl

theorem applyTap (c u : Nat) (s : State) (d v half : Nat) (p : Prog) (mean : Bool) (rows : List (Nat × RowOut)) :
    s.PassNotes c u (s.applyTap d v half p mean rows) := modCore c u s d _ fun _ => rfl

theorem passFaults {u : Nat} (hu : u < 8) (c : Nat) (s : State) (d j lamb waddr : Nat) (metaOk sat : Bool) (mx : Option (Nat × Nat))
    (par : Option (Fin 8 × Bool)) : s.PassNotes c u (s.passFaults d j lamb waddr metaOk sat mx par) := by
  have ror : ∀ (t : State) (p : Page) (off mask : Nat), t.PassNotes c u (t.ror p off mask) := fun t p off mask =>
    of_memOnly c u (State.MemOnly.of_regsOnly (.ror p off mask (.refl t)))
  have group : s.PassNotes c u (if metaOk then s else
      ((s.ror (.lamb d) 4 4).raiseCore d lamb St.clsConfig St.sparseMetaInvalid waddr 0).failTile d j St.sparseMetaInvalid) :=
    ite _ (refl c u s) (((ror ..).trans (raiseCore ..)).trans (failTile hu ..))
  have scale := fun (t : State) (w a : Nat) => (raiseCore c u t d lamb St.clsConfig St.mxScaleRange w a).trans (failTile hu c _ d j St.mxScaleRange)
  have saturated : ∀ t : State, t.PassNotes c u (if !sat then t else
      let s' := t.ror (.lamb d) 4 2
      let first := (s'.coreCtx d).any fun x => !x.satReported
      if bitOf (s'.rforce (.lamb d) 0xC).toNat 1 && first then
        let s'' := s'.raiseCore d lamb St.clsConfig St.accSaturated 0 0
        match s''.coreSlot d with
        | some k => s''.modCtx k fun x => { x with satReported := true }
        | none => s''
      else s') := fun t => by
    refine ite _ (refl c u t) (ite _ ?_ (ror ..))
    dsimp only
    split
    · exact ((ror ..).trans (raiseCore ..)).trans (modCtx ..)
    · exact (ror ..).trans (raiseCore ..)
  have parity : ∀ (t : State) (l : Fin 8) (r : Bool), t.PassNotes c u ((((t.rset (.lamb d) 0x10
      (BitVec.ofNat 32 (l.val + 8 + put (b01 r) 4 2))).raiseCore d l.val St.clsUe 0 waddr (b01 r)).noteParity d).taintTile d j [waddr]) :=
    fun t l r => (((of_memOnly c u (State.MemOnly.of_regsOnly (.rset _ _ _ (.refl t)))).trans (raiseCore ..)).trans (noteParity ..)).trans
      (taintTile hu ..)
  unfold State.passFaults
  rcases mx with _ | ⟨w, a⟩ <;> rcases par with _ | ⟨l, r⟩
  · exact group.trans (saturated _)
  · exact (group.trans (saturated _)).trans (parity _ l r)
  · exact (group.trans (scale _ w a)).trans (saturated _)
  · exact ((group.trans (scale _ w a)).trans (saturated _)).trans (parity _ l r)

end State.PassNotes

/-! ### The issue of a pass -/

theorem State.cur_of_nextOp {s : State} {c u t : Nat} {o : OpCtx} (h : s.nextOp c u t = some o) : ((s.core c).unit u).cur = some o.tile := by
  unfold State.nextOp at h
  dsimp only at h
  repeat' split at h
  all_goals cases h
  assumption

/-- A pass that can be issued and lacks nothing is recorded and counted in this state before it goes into flight; `s` is the state in which its
operand rows are staged. -/
def State.passNoted (s : State) (o : OpCtx) (q : PassRec) (c u : Nat) (ev : PassEvents) : State :=
  let p := o.run.prog
  let v := unitAt p q.unit u
  let cfg := q.cfg p
  let lamb := v * p.sh.lambs
  let who := unitCore c lamb
  let waddr := o.base s c q.wT + o.at_.2.g * q.wGstep + o.at_.2.n * q.wNstep + o.at_.2.k * q.wKstep
  let tb := s.peekBytes waddr cfg.tileBytes
  let wbad := s.poisonAddrs waddr (cfg.tileBytes / 4)
  let dead := !wbad.isEmpty || !cfg.metaOk tb.1 || ev.parity.isSome
  let valid := o.passRows.filter fun r => r.2.valid && s.maskBit o c q.maskT r.2.i
  let outs := valid.map fun r => (r.1, s.rowOut o q c v r.1 r.2.i ⟨tb.1, s.zeroAt o q c, waddr⟩ dead !cfg.metaOk tb.1)
  let rbad := valid.flatMap fun r => (s.readRow cfg (s.rowPlace o q c r.1 r.2.i)).2
  let s1 := valid.foldl (fun s' r => s'.noteRow cfg (s.rowPlace o q c r.1 r.2.i) who (St.islCore c) (s.coreCtx c))
    (s.noteWords who (St.islCore c) waddr (cfg.tileBytes / 4) (s.coreCtx c))
  let s3 := (s1.taintTile c u (wbad ++ rbad)).passFaults c u lamb waddr (cfg.metaOk tb.1) (outs.any (·.2.sat))
    ((outs.filterMap (·.2.mx)).head?) ev.parity
  let s4 := match p.tap q.unit with
    | none => s3
    | some mean => s3.applyTap c v o.tile.half p mean outs
  let bub := o.passRows.length - valid.length + ev.feeder + ev.held
  ((((s4.count48 (.lamb c) 0x20 1).count48 (.lamb c) 0x30 (bub * p.sh.lambs)).count48 (.lamb c) 0x40
    (floorCycles (p.shape == virumShape) q.passes p.sh.depth o.passRows.length * p.sh.lambs)).count48 (.lamb c) 0x48
      (ev.held * p.sh.lambs)).count48 (.tsq c) 0x40 ev.gmmWait

/-- The pass as it goes into flight: the results of its valid rows. -/
def State.flightOf (s : State) (o : OpCtx) (q : PassRec) (c u t : Nat) (ev : PassEvents) : Flight :=
  let p := o.run.prog
  let v := unitAt p q.unit u
  let cfg := q.cfg p
  let waddr := o.base s c q.wT + o.at_.2.g * q.wGstep + o.at_.2.n * q.wNstep + o.at_.2.k * q.wKstep
  let tb := s.peekBytes waddr cfg.tileBytes
  let dead := !(s.poisonAddrs waddr (cfg.tileBytes / 4)).isEmpty || !cfg.metaOk tb.1 || ev.parity.isSome
  let valid := o.passRows.filter fun r => r.2.valid && s.maskBit o c q.maskT r.2.i
  let outs := valid.map fun r => (r.1, s.rowOut o q c v r.1 r.2.i ⟨tb.1, s.zeroAt o q c, waddr⟩ dead !cfg.metaOk tb.1)
  ⟨v, u, lambMask p v, t, outs.flatMap (·.2.writes), valid.length⟩

/-- A pass goes into flight, its thread moves on and its operation is open. -/
def State.fly (s : State) (c u t : Nat) (f : Flight) : State :=
  (((s.modCore c fun y => { y with flights := y.flights ++ [f] }).ror (.lamb c) 4 (f.lambs * 256)).advance c u t).openOp c u

/-- The state in which a pass reads its operands: its rows are staged when they come from the gather of the program's GMM. -/
def State.passStaged (s : State) (o : OpCtx) (q : PassRec) (c : Nat) : State :=
  if o.run.prog.stageT = some q.aT then s.stagePass o c (o.run.prog.sh.kpp q.wfmt q.sparse) else s

/-- What the issue of a pass that can be issued does. -/
theorem State.issuePass_of_ready {s : State} {op c u t : Nat} {o : OpCtx} {q : PassRec} (h : s.passReady op c u t o q) (ev : PassEvents) :
    s.issuePass op c u t ev =
      if !o.pieceHere (o.piece s.devIndex q) then s.register c t 5 ((o.piece s.devIndex q).getD 0) 0 false false u
      else if bitOf (s.rforce (.lamb c) 0xC).toNat 0 && o.injects q && s.allZero o q c && (o.run.prog.tap q.unit).isNone then
        (s.count48 (.lamb c) 0x38 1).advance c u t
      else ((s.passStaged o q c).passNoted o q c u ev).fly c u t ((s.passStaged o q c).flightOf o q c u t ev) := by
  obtain ⟨next, rec, op_eq, may, lambs, holds, feedsA, feedsW⟩ := h
  have free : (s.core c).flights.any (fun f => f.lambs &&& lambMask o.run.prog (unitAt o.run.prog q.unit u) ≠ 0) = false := by
    rw [List.any_eq_false]
    exact fun f hf => by simp [lambs f hf]
  have first : ¬(q.op ≠ op ∨ (!s.mayIssue c) = true ∨
      (s.core c).flights.any (fun f => f.lambs &&& lambMask o.run.prog (unitAt o.run.prog q.unit u) ≠ 0) = true) := by
    rw [free, may]
    simp [op_eq]
  have second : ¬(((o.injects q && (s.core c).chainHolds u) || s.convFeeds o c t q.aT || s.convFeeds o c t q.wT) = true) := by
    rw [feedsA, feedsW]
    simpa using holds
  unfold State.issuePass
  rw [next]
  dsimp only
  rw [rec]
  dsimp only
  rw [if_neg first, if_neg second]
  rfl

theorem exec_passCommands : ∀ e ∈ passCommands, ∀ (c : Fin 48) (u : Fin 8) (t : Fin 16) (ev : PassEvents) (s : State),
    exec (e.2 c u t ev) s = settled ((s.issuePass e.1 c u t ev).tryEnd c u) := by
  simp only [passCommands, List.forall_mem_cons, List.not_mem_nil, false_implies, implies_true, and_true]
  exact ⟨fun _ _ _ _ _ => rfl, fun _ _ _ _ _ => rfl, fun _ _ _ _ _ => rfl, fun _ _ _ _ _ => rfl, fun _ _ _ _ _ => rfl, fun _ _ _ _ _ => rfl,
    fun _ _ _ _ _ => rfl⟩

theorem State.PassNotes.passStaged (c u : Nat) (s : State) (o : OpCtx) (q : PassRec) (d : Nat) : s.PassNotes c u (s.passStaged o q d) :=
  ite _ (of_memOnly c u (State.MemOnly.stagePass ..)) (refl c u s)

theorem State.PassNotes.passNoted {u : Nat} (hu : u < 8) (c : Nat) (s : State) (o : OpCtx) (q : PassRec) (ev : PassEvents) :
    s.PassNotes c u (s.passNoted o q c u ev) := by
  have counted : ∀ (t : State) (p : Page) (off n : Nat), t.PassNotes c u (t.count48 p off n) := fun t p off n =>
    of_memOnly c u (State.MemOnly.of_regsOnly (.count48 p off n (.refl t)))
  unfold State.passNoted
  dsimp only
  refine trans ?_ (counted ..)
  refine trans ?_ (counted ..)
  refine trans ?_ (counted ..)
  refine trans ?_ (counted ..)
  refine trans ?_ (counted ..)
  have faults : ∀ {t : State} (as : List Nat) (lamb waddr : Nat) (ok sat : Bool) (mx : Option (Nat × Nat)), s.MemOnly t →
      s.PassNotes c u ((t.taintTile c u as).passFaults c u lamb waddr ok sat mx ev.parity) := fun as lamb waddr ok sat mx h =>
    ((of_memOnly c u h).trans (taintTile hu ..)).trans (passFaults hu ..)
  have noted := fun who n waddr => State.MemOnly.noteWords s who (St.islCore c) waddr n (s.coreCtx c)
  split
  · exact faults _ _ _ _ _ _ ((noted ..).trans (.foldl (fun t r => .noteRow ..) _ _))
  · refine trans ?_ (applyTap ..)
    exact faults _ _ _ _ _ _ ((noted ..).trans (.foldl (fun t r => .noteRow ..) _ _))

/-! ### A pass in flight -/

/-- `t` differs from `s` only in cores and registers. -/
def State.CoreOnly (s t : State) : Prop := t = { s with regs := t.regs, cores := t.cores }

namespace State.CoreOnly

theorem refl (s : State) : s.CoreOnly s := rfl

theorem trans {s t u : State} (h : s.CoreOnly t) (k : t.CoreOnly u) : s.CoreOnly u := by
  unfold State.CoreOnly at *
  rw [k, h]

theorem of_regsOnly {s t : State} (h : s.RegsOnly t) : s.CoreOnly t := by
  unfold State.CoreOnly
  rw [h]

theorem modCore (s : State) (c : Nat) (f : CoreState → CoreState) : s.CoreOnly (s.modCore c f) := by
  unfold State.modCore State.setCore
  split <;> rfl

theorem modTile (s : State) (c u : Nat) (f : TileRun → TileRun) : s.CoreOnly (s.modTile c u f) := modCore s c _

theorem advance (s : State) (c u t : Nat) : s.CoreOnly (s.advance c u t) :=
  (modTile s c u _).trans (of_regsOnly (.count64 _ _ _ (.refl _)))

theorem openOp (s : State) (c u : Nat) : s.CoreOnly (s.openOp c u) := modTile s c u _

theorem fly (s : State) (c u t : Nat) (f : Flight) : s.CoreOnly (s.fly c u t f) :=
  (((modCore s c _).trans (of_regsOnly (.ror _ _ _ (.refl _)))).trans (advance ..)).trans (openOp ..)

end State.CoreOnly

@[simp] theorem State.core_count64 (s : State) (p : Page) (off n c : Nat) : (s.count64 p off n).core c = s.core c := rfl

theorem State.core_modTile (s : State) {c : Nat} (u : Nat) (f : TileRun → TileRun) (h : c < 48) :
    (s.modTile c u f).core c = (s.core c).setUnit u { (s.core c).unit u with cur := ((s.core c).unit u).cur.map f } :=
  s.core_modCore_same _ h

theorem State.cur_modTile (s : State) {c u : Nat} (f : TileRun → TileRun) (hc : c < 48) (hu : u < 8) :
    (((s.modTile c u f).core c).unit u).cur = ((s.core c).unit u).cur.map f := by
  rw [s.core_modTile u f hc, CoreState.unit_setUnit _ _ _ hu, if_pos rfl]

theorem State.flights_modTile (s : State) (c u d : Nat) (f : TileRun → TileRun) : ((s.modTile c u f).core d).flights = (s.core d).flights :=
  s.part_modCore CoreState.flights c d _ fun _ => CoreState.setUnit_flights ..

theorem State.flights_fly (s : State) {c : Nat} (u t : Nat) (f : Flight) (h : c < 48) :
    ((s.fly c u t f).core c).flights = (s.core c).flights ++ [f] := by
  unfold State.fly State.openOp State.advance
  rw [State.flights_modTile, State.core_count64, State.flights_modTile, State.core_ror, State.core_modCore_same _ _ h]

theorem State.cur_fly (s : State) {c u : Nat} (t : Nat) (f : Flight) (hc : c < 48) (hu : u < 8) :
    (((s.fly c u t f).core c).unit u).cur =
      ((s.core c).unit u).cur.map fun tl => { tl with pos := sset 0 tl.pos t (sget 0 tl.pos t + 1), open_ := tl.open_ + 1 } := by
  unfold State.fly State.openOp State.advance
  rw [State.cur_modTile _ _ hc hu, State.core_count64, State.cur_modTile _ _ hc hu, State.core_ror, State.core_modCore_same _ _ hc,
    Option.map_map]
  rfl

/-- What neither a pass nor its records touch. -/
def State.besidesCores (s : State) := (s.gbars, s.dsps, s.svc, s.links, s.grp, s.sec, s.out)

theorem State.CoreOnly.besides {s t : State} (h : s.CoreOnly t) : t.besidesCores = s.besidesCores := by
  rw [h]
  rfl

theorem State.PassNotes.besides {c u : Nat} {s t : State} (h : s.PassNotes c u t) : t.besidesCores = s.besidesCores := by
  rw [h.1]
  rfl

/-- Settles O20: what is recorded before the pass goes into flight leaves the passes in flight and the progress of the tile, and everything
else that the statement names. -/
theorem passesIssue : Obligations.PassesIssue := by
  intro e he s c u t ev o q ready here unskipped p v cfg s0 waddr tb dead valid outs
  have hc : c.val < 48 := c.isLt
  have hu : u.val < 8 := u.isLt
  have staged : s0 = s.passStaged o q c := rfl
  have flight : s0.flightOf o q c u t ev = ⟨v, u, lambMask p v, t, outs.flatMap (·.writes), valid.length⟩ := by
    unfold State.flightOf
    simp only [outs, List.flatMap_map]
    rfl
  have arrived : ¬(!o.pieceHere (o.piece s.devIndex q)) = true := by simp [here]
  have goes : ¬(bitOf (s.rforce (.lamb c) 0xC).toNat 0 && o.injects q && s.allZero o q c && (o.run.prog.tap q.unit).isNone) = true := by
    simpa only [State.passSkipped, Bool.and_eq_true, Option.isNone_iff_eq_none, and_assoc] using unskipped
  have issue := State.issuePass_of_ready ready ev
  rw [if_neg arrived, if_neg goes, ← staged, flight] at issue
  have notes : s.PassNotes c u (s0.passNoted o q c u ev) := (State.PassNotes.passStaged c u s o q c).trans (.passNoted hu c _ o q ev)
  have view := notes.2
  have fly := State.CoreOnly.fly (s0.passNoted o q c u ev) c u t ⟨v, u, lambMask p v, t, outs.flatMap (·.writes), valid.length⟩
  refine ⟨_, by rw [exec_passCommands e he, issue]; rfl, ?_, ?_, ?_⟩
  · rw [State.flights_fly _ _ _ _ hc]
    exact congrArg (· ++ _) (congrArg Prod.fst view)
  · have progress := congrArg Prod.snd view
    simp only [CoreState.passView, State.cur_of_nextOp ready.1, Option.map_some, Option.map_eq_some_iff, TileRun.progress, Prod.mk.injEq]
      at progress
    obtain ⟨tl, cur, num, open_, pos⟩ := progress
    rw [State.cur_fly _ _ _ hc hu, cur, Option.map_some]
    exact ⟨_, rfl, by rw [← open_], by rw [← pos], num⟩
  · have rest := fly.besides.trans notes.besides
    simpa only [State.besidesCores, Prod.mk.injEq] using rest

end Sys2Proof.Machine
end

section
/-! PROOFS. Passes that wait or complete, conversions, the records of collectives, and the start and end of chains (O21 to O23). -/

namespace Sys2Proof.Machine

open Sys2Proof

/-! ### Passes that do not issue -/

theorem State.issuePass_of_held {s : State} {op c u t : Nat} {o : OpCtx} {q : PassRec} (next : s.nextOp c u t = some o)
    (rec : o.rcd.pass? = some q) (held : s.mayIssue c = false) (ev : PassEvents) : s.issuePass op c u t ev = s := by
  unfold State.issuePass
  rw [next]
  dsimp only
  rw [rec]
  dsimp only
  rw [if_pos (.inr (.inl (by rw [held]; rfl)))]

/-- Settles O21: the branches of the issue of a pass, and of the end of a unit's oldest one. -/
theorem passesSkipWaitAndComplete : Obligations.PassesSkipWaitAndComplete := by
  refine ⟨fun e he s c u t ev o q => ⟨fun ready here skipped => ?_, fun pc ready piece missing => ?_, fun next rec _ held => ?_⟩,
    fun s c u => ⟨fun none_ => ?_, fun f found => ?_⟩⟩
  · obtain ⟨enabled, injects, zero, untapped⟩ := skipped
    rw [exec_passCommands e he, State.issuePass_of_ready ready, here, enabled, injects, zero, untapped]
    rfl
  · rw [exec_passCommands e he, State.issuePass_of_ready ready, piece, missing]
    rfl
  · rw [exec_passCommands e he, State.issuePass_of_held next rec held]
    rfl
  · have absent : (s.core c).flights.find? (·.unit == u.val) = none := by
      rw [List.find?_eq_none]
      exact fun f hf => by simp [none_ f hf]
    change execPassComplete c u s = _
    unfold execPassComplete State.drainPass
    simp only [absent]
  · intro s1 s2
    change execPassComplete c u s = _
    unfold execPassComplete State.drainPass
    simp only [found]
    rfl

/-! ### Conversions and the records of collectives -/

theorem State.issueConv_of_free {s : State} {c u t : Nat} {o : OpCtx} {q : ConvRec} (next : s.nextOp c u t = some o)
    (rec : o.rcd.conv? = some q) (free : ∀ j ∈ (s.core c).convs, j.unit ≠ unitAt o.run.prog q.unit u)
    (slots : (s.core c).chainHolds u = false) :
    s.issueConv c u t =
      let v := unitAt o.run.prog q.unit u
      let x := s.readOut o q c v
      let refused := x.1.findSome? fun r => s.refusalRange true r.1 (4 * r.2.length)
      let dst := if refused.isSome then [] else x.1.flatMap fun r => ((List.range r.2.length).zip r.2).map fun p => (r.1 + 4 * p.1, p.2)
      (((x.2.2.modCore c fun y => { y with
        convs := y.convs ++ [⟨v, u, t, (o.tensor q.dstT).tier, dst, o.at_.2, refused⟩] }).taintTile c u x.2.1).advance c u t).openOp c u := by
  have idle : (s.core c).convs.any (·.unit == unitAt o.run.prog q.unit u) = false := by
    rw [List.any_eq_false]
    exact fun j hj => by simp [free j hj]
  unfold State.issueConv
  rw [next]
  dsimp only
  rw [rec]
  dsimp only
  rw [idle, slots]
  rfl

theorem exec_gmm_of_atOp {s : State} {c : Fin 48} {u : Fin 8} {t : Fin 16} {o : OpCtx} {g p sT gT k b st : Nat} {kx : Bool}
    (h : s.atOp c u t o (.gmm g p kx sT gT k b st)) :
    exec (.gmm c u t) s = .next (((s.advance c u t).launchGather o.slot o.at_.2.mg).tryEnd c u).settle := by
  obtain ⟨next, body⟩ := h
  change execGmm c u t s = _
  unfold execGmm
  simp only [next, body]
  rfl

theorem exec_mrs_of_atOp {s : State} {c : Fin 48} {u : Fin 8} {t : Fin 16} {o : OpCtx} {g p d n : Nat} {w : ConvWord}
    (h : s.atOp c u t o (.mrs g p d n w)) : exec (.mrs c u t) s = .next ((s.advance c u t).tryEnd c u).settle := by
  obtain ⟨next, body⟩ := h
  change execMrs c u t s = _
  unfold execMrs
  simp only [next, body]
  rfl

/-- Settles O22: what is written is fixed at the issue, and the end of the unit carries it out. -/
theorem conversionsAndCollectiveRecords : Obligations.ConversionsAndCollectiveRecords := by
  refine ⟨⟨fun s c u t o q next rec => ?_, fun s c u j found => ?_⟩, ⟨fun s c u t o g p sT gT k b st kx => exec_gmm_of_atOp,
    fun s c u t o g p d n w => exec_mrs_of_atOp, fun s c u t => rfl⟩⟩
  · intro v free slots x refused dst
    exact congrArg Host.Outcome.next (State.issueConv_of_free next rec free slots)
  · intro s1
    change execConvComplete c u s = _
    unfold execConvComplete
    simp only [found]
    rfl

/-! ### Chains -/

@[simp] theorem CoreState.setUnit_vec (x : CoreState) (u : Nat) (v : UnitRun) : (x.setUnit u v).vec = x.vec := by
  unfold CoreState.setUnit
  split <;> rfl

theorem State.vec_modTile (s : State) (c u d : Nat) (f : TileRun → TileRun) : ((s.modTile c u f).core d).vec = (s.core d).vec :=
  s.part_modCore CoreState.vec c d _ fun _ => CoreState.setUnit_vec ..

theorem State.vec_openOp_advance (s : State) (c u t d : Nat) : ((((s.advance c u t).openOp c u)).core d).vec = (s.core d).vec := by
  unfold State.openOp State.advance
  rw [State.vec_modTile, State.core_count64, State.vec_modTile]

/-- A chain that its thread has come to and that may issue: at once on an idle engine, queued on a busy one. -/
theorem State.issueChain_of_ready {s : State} {c u t : Nat} {o : OpCtx} {q : ChainRec} (next : s.nextOp c u t = some o)
    (rec : o.rcd.chain? = some q) (may : s.mayIssue c = true) (par : Option Nat) :
    s.issueChain c u t par =
      let op : ChainOp := ⟨t, u, o.tile.half, o.tile.num, o.at_.1, o.at_.2, (o.run.chains[q.idx]?).getD ⟨0, 0, 0, [], [], []⟩, par⟩
      let s1 := (s.advance c u t).openOp c u
      if (s.core c).vec.run = none then s1.beginChain c op
      else (s1.modCore c fun x => { x with vec := { x.vec with queue := x.vec.queue ++ [op] } }).register c t 7 0 0 false false u := by
  unfold State.issueChain
  rw [next]
  dsimp only
  rw [rec]
  dsimp only
  rw [may, s.vec_openOp_advance]
  cases (s.core c).vec.run <;> rfl

/-- Settles O23: the engine is idle or takes the chain into its queue. -/
theorem chainsIssueAndComplete : Obligations.ChainsIssueAndComplete := by
  refine ⟨fun s c u t par o q next rec may => ?_, fun s c stall r run => ⟨fun left => ?_, fun done => ?_⟩⟩
  · intro op s1
    have issue := State.issueChain_of_ready next rec may (par.map (·.val))
    refine ⟨fun idle => ?_, fun busy => ?_⟩
    · rw [if_pos idle] at issue
      exact congrArg Host.Outcome.next issue
    · rw [if_neg busy] at issue
      exact congrArg Host.Outcome.next issue
  · change execChainComplete c stall s = _
    unfold execChainComplete
    simp only [run, if_pos left]
  · intro s1 s2
    change execChainComplete c stall s = _
    unfold execChainComplete
    simp only [run, if_neg (Nat.not_lt.2 done)]
    rfl

end Sys2Proof.Machine
end

section
/-! PROOFS. WAIT and SIGNAL, dispensing, and the registers whose write is an action (O13, O14, O17, O19). -/

namespace Sys2Proof.Machine

open Sys2Proof

/-! ### WAIT and SIGNAL -/

theorem exec_phaseWait_of_atOp {s : State} {c : Fin 48} {u : Fin 8} {t : Fin 16} {o : OpCtx} {b step p m : Nat} {acq : Bool}
    (h : s.atOp c u t o (.wait b acq false step p m)) :
    exec (.phaseWait c u t) s = .next (((s.advance c u t).phaseWait c u t b step acq).tryEnd c u).settle := by
  obtain ⟨next, body⟩ := h
  change execPhaseWait c u t s = _
  unfold execPhaseWait
  simp only [next, body]
  rfl

theorem exec_creditWait_of_atOp {s : State} {c : Fin 48} {u : Fin 8} {t : Fin 16} {o : OpCtx} {b step p m : Nat} {acq : Bool}
    (h : s.atOp c u t o (.wait b acq true step p m)) :
    exec (.creditWait c u t) s = .next (((s.advance c u t).creditWait c u t b acq).tryEnd c u).settle := by
  obtain ⟨next, body⟩ := h
  change execCreditWait c u t s = _
  unfold execCreditWait
  simp only [next, body]
  rfl

theorem exec_signal_of_atOp {s : State} {c : Fin 48} {u : Fin 8} {t : Fin 16} {o : OpCtx} {b : Nat} (h : s.atOp c u t o (.signal b)) :
    exec (.signal c u t) s = .next (((s.advance c u t).signal c u t b).tryEnd c u).settle := by
  obtain ⟨next, body⟩ := h
  change execSignal c u t s = _
  unfold execSignal
  simp only [next, body]
  rfl

/-- A WAIT on a phase barrier that is not broken: the expected generation advances, and its distance to the barrier's decides (R203). -/
theorem State.phaseWait_of_unbroken {s : State} {c b : Nat} (h : ((s.core c).bar b).st ≠ .broken) (u t step : Nat) (acq : Bool) :
    s.phaseWait c u t b step acq =
      let th := (s.core c).thread t
      let e := (sget 0 th.expect b + step) % 65536
      let s1 := s.setCore c ((s.core c).setThread t { th with expect := sset 0 th.expect b e })
      let d := genDist ((s.core c).bar b).gen e
      if d < 32768 then (if acq then s1.invalidate c else s1)
      else if d = 32768 then s1.failTile c u St.barrierGenStale
      else s1.waitAt c t b e acq false u := by
  unfold State.phaseWait
  rw [if_neg h]

theorem State.creditWait_of_unbroken {s : State} {c b : Nat} (h : ((s.core c).bar b).st ≠ .broken) (u t : Nat) (acq : Bool) :
    s.creditWait c u t b acq =
      let s1 := (s.setCore c ((s.core c).setBar b ((s.core c).bar b).consume)).serve c b
      if ((s.core c).bar b).consumed < ((s.core c).bar b).arrived then (if acq then s1.invalidate c else s1)
      else s.waitAt c t b 0 acq false u := by
  unfold State.creditWait
  rw [if_neg h]

theorem State.signal_of_unbroken {s : State} {c b : Nat} (h : ((s.core c).bar b).st ≠ .broken) (u t : Nat) :
    s.signal c u t b =
      let x := s.core c
      let bar := x.bar b
      if !bar.credit then s.arrivePhase c b
      else if bar.arrived < bar.consumed + bar.cmax then (s.setCore c (x.setBar b { bar with arrived := bar.arrived + 1 })).serve c b
      else s.waitAt c t b 0 false true u := by
  unfold State.signal
  rw [if_neg h]

theorem State.arrivePhase_of_open {s : State} {c b : Nat} (h : ((s.core c).bar b).st = .open) :
    s.arrivePhase c b =
      let x := s.core c
      let bar := x.bar b
      if bar.arrived + 1 < bar.parts then s.setCore c (x.setBar b { bar with arrived := bar.arrived + 1 }) else s.releasePhase c b wmMet := by
  unfold State.arrivePhase
  rw [if_neg (by simp [h])]

/-- The distance of generations, with the expected one already reduced. -/
theorem genDist_mod (gen e : Nat) : genDist gen (e % 65536) = (gen + 65536 - e % 65536) % 65536 := by
  unfold genDist
  rw [Nat.mod_mod]

/-- Settles O13: a broken barrier fails the tile, and else the distance of generations, or the counts, decide. -/
theorem waitsComplete : Obligations.WaitsComplete := by
  refine ⟨fun s c u t o b step p m acq at_ => ?_, fun s c u t o b step p m acq at_ => ?_⟩
  · intro s1 bar th e d s2
    have distance : genDist bar.gen e = d := genDist_mod ..
    have after : ∀ y : State, s1.phaseWait c u t b step acq = y → exec (.phaseWait c u t) s = .next (y.tryEnd c u).settle := fun y h => by
      rw [exec_phaseWait_of_atOp at_, ← h]
    have waits := fun ok => State.phaseWait_of_unbroken (s := s1) (c := c) (b := b) ok u t step acq
    refine ⟨fun broken => after _ (if_pos broken), fun ok near plain => after _ ((waits ok).trans ?_),
      fun ok near acquires => after _ ((waits ok).trans ?_), fun ok half => after _ ((waits ok).trans ?_),
      fun ok far => after _ ((waits ok).trans ?_)⟩
    · exact (if_pos (distance.trans_lt near)).trans (if_neg (by simp [plain]))
    · exact (if_pos (distance.trans_lt near)).trans (if_pos acquires)
    · exact (if_neg (distance.symm ▸ Nat.not_lt.2 half.ge)).trans (if_pos (distance.trans half))
    · exact (if_neg (distance.symm ▸ Nat.not_lt.2 far.le)).trans (if_neg (distance.symm ▸ far.ne'))
  · intro s1 bar bar1 s2
    have after : ∀ y : State, s1.creditWait c u t b acq = y → exec (.creditWait c u t) s = .next (y.tryEnd c u).settle := fun y h => by
      rw [exec_creditWait_of_atOp at_, ← h]
    have waits := fun ok => State.creditWait_of_unbroken (s := s1) (c := c) (b := b) ok u t acq
    exact ⟨fun broken => after _ (if_pos broken), fun ok item => after _ ((waits ok).trans (if_pos item)),
      fun ok empty => after _ ((waits ok).trans (if_neg (Nat.not_lt.2 empty)))⟩

/-- Settles O14: an arrival that fills the barrier releases it, and an item is put where there is room. -/
theorem signalArrives : Obligations.SignalArrives := by
  intro s c u t o b at_ s1 x bar
  have after : ∀ y : State, s1.signal c u t b = y → exec (.signal c u t) s = .next (y.tryEnd c u).settle := fun y h => by
    rw [exec_signal_of_atOp at_, ← h]
  have unbroken : bar.st = .open → ((s1.core c).bar b).st ≠ .broken := fun h => by
    rw [show ((s1.core c).bar b).st = .open from h]
    exact ObjState.noConfusion
  refine ⟨fun broken => after _ ?_, fun open_ phase more => after _ ?_, fun open_ phase last => after _ ?_, fun open_ credit room => after _ ?_,
    fun open_ credit full => after _ ?_⟩
  · unfold State.signal
    rw [if_pos broken]
  · rw [State.signal_of_unbroken (unbroken open_), if_pos (by simpa using phase), State.arrivePhase_of_open open_]
    exact if_pos more
  · rw [State.signal_of_unbroken (unbroken open_), if_pos (by simpa using phase), State.arrivePhase_of_open open_]
    exact if_neg (Nat.not_lt.2 last)
  · rw [State.signal_of_unbroken (unbroken open_), if_neg (by simpa using credit)]
    exact if_pos room
  · rw [State.signal_of_unbroken (unbroken open_), if_neg (by simpa using credit)]
    exact if_neg (Nat.not_lt.2 full)

/-! ### Dispensing -/

theorem Dispense.answer_of_not_open {d : Dispense} (h : d.st ≠ .open) : d.answer = none := if_pos h

theorem Dispense.answer_reclaimed {d : Dispense} (h : d.st = .open) {j : Nat} {rest : List Nat} (r : d.reclaim = j :: rest) :
    d.answer = some (j, { d with reclaim := rest }) := by
  unfold Dispense.answer
  simp only [h, r, ne_eq, not_true_eq_false, if_false]

theorem Dispense.answer_counted {d : Dispense} (h : d.st = .open) (r : d.reclaim = []) :
    d.answer = if d.next < d.count then some (d.next, { d with next := d.next + 1 }) else none := by
  unfold Dispense.answer
  simp only [h, r, ne_eq, not_true_eq_false, if_false]

/-- An answer is a reclaimed tile or the next index below the count. -/
theorem Dispense.of_answer {d e : Dispense} {j : Nat} (h : d.answer = some (j, e)) :
    (∃ rest, d.reclaim = j :: rest ∧ e.next = d.next) ∨ (j = d.next ∧ d.next < d.count ∧ e.next = d.next + 1) := by
  by_cases open_ : d.st = .open
  · rcases r : d.reclaim with _ | ⟨i, rest⟩
    · rw [Dispense.answer_counted open_ r] at h
      split at h
      · next more => cases h; exact .inr ⟨rfl, more, rfl⟩
      · cases h
    · rw [Dispense.answer_reclaimed open_ r] at h
      cases h
      exact .inl ⟨rest, rfl, rfl⟩
  · rw [Dispense.answer_of_not_open open_] at h
    cases h

/-- Settles O17: a request with nothing that holds it up is served, and a dispense counter answers in its order. -/
theorem dispenseInOrder : Obligations.DispenseInOrder := by
  refine ⟨fun s c u waited k x r slot ctx run fenced frozen draining cancel quiesced held unfrozen unit_ stop cur => ?_,
    fun d open_ => ⟨fun j rest h => d.answer_reclaimed open_ h, fun h more => ?_, fun h done => ?_⟩,
    fun d h => d.answer_of_not_open h, fun d e j reclaimed h => ?_⟩
  · have goes : ((s.core c).fenced || x.frozen || x.draining || x.cancel || s.grp.quiesced || s.stepHeld c || (s.dsp k).st == .frozen ||
        decide (r.prog.sh.units ≤ u.val) || r.stopDispense) = false := by
      have thawed : ((s.dsp k).st == .frozen) = false := by simpa using unfrozen
      rw [fenced, frozen, draining, cancel, quiesced, held, thawed, stop, decide_eq_false (Nat.not_le.2 unit_)]
      rfl
    have start : ∀ n, ((s.core c).unit u).prefetched = some n → s.startNext c u k = s.startTile c u k n := fun n h => by
      unfold State.startNext
      simp only [h, held, cur, Option.isSome_none, Bool.or_self, Bool.false_eq_true, if_false]
    refine ⟨fun none_ => ?_, fun n some_ => ?_⟩ <;> change execDispenseRequest c u waited s = _ <;> unfold execDispenseRequest
    · simp only [slot, ctx, run, goes, cur, none_, Bool.false_eq_true, if_false]
      rfl
    · simp only [slot, ctx, run, goes, cur, some_, Bool.false_eq_true, if_false, start n some_]
      rfl
  · rw [d.answer_counted open_ h, if_pos more]
  · rw [d.answer_counted open_ h, if_neg (Nat.not_lt.2 done)]
  · rcases Dispense.of_answer h with ⟨rest, r, next⟩ | ⟨rfl, more, next⟩
    · exact ⟨reclaimed j (by rw [r]; exact List.mem_cons_self), next.ge⟩
    · exact ⟨more, by omega⟩

/-! ### Registers whose write is an action -/

theorem State.writeAs_of_mayWrite {s : State} {by_ : Agent} {p : Page} (h : s.mayWrite by_ p = true) (off : Nat) (f : State → State) :
    s.writeAs by_ p off f = f s := if_pos h

/-- The actions that do not touch barriers. -/
theorem exec_actions (s : State) (by_ : Agent) :
    (∀ c : Fin 48, s.mayWrite by_ (.core c) = true →
      exec (.coreCmdSelftest by_ c) s = .next (s.coreSelftest c)) ∧
    (∀ c : Fin 48, s.mayWrite by_ (.cbuf c) = true → exec (.cbufInvAll by_ c) s = .next (s.invalidate c)) ∧
    (∀ v : Word, s.mayWrite by_ (.pwr 0) = true → exec (.pwrCalWrite by_ v) s = .next (s.pwrCal v)) ∧
    ∀ p : Fin 8, s.mayWrite by_ (.lnk p) = true → exec (.lnkCmdRetrain by_ p) s = .next (s.retrain p) ∧
      exec (.lnkCmdDisable by_ p) s = .next (s.disable p) ∧ exec (.lnkCmdEnable by_ p) s = .next (s.enable p) :=
  ⟨fun _ h => congrArg Host.Outcome.next (State.writeAs_of_mayWrite h ..), fun _ h => congrArg Host.Outcome.next (State.writeAs_of_mayWrite h ..),
    fun _ h => congrArg Host.Outcome.next (State.writeAs_of_mayWrite h ..), fun _ h => ⟨congrArg Host.Outcome.next (State.writeAs_of_mayWrite h ..),
      congrArg Host.Outcome.next (State.writeAs_of_mayWrite h ..), congrArg Host.Outcome.next (State.writeAs_of_mayWrite h ..)⟩⟩

theorem State.henDbg_ready {s : State} {by_ : Agent} {c b : Nat} (right : s.mayWrite by_ (.hen c) = true) (agent : ∀ d t, by_ ≠ .thread d t)
    (used : ((s.core c).bar b).st ≠ .free) (f : State → State) :
    s.henDbg by_ c b f =
      let s1 := f (s.forced (.hen c) (St.islCore c) (unitCore c 0x12) b by_ (s.coreCtx c))
      match s1.coreSlot c with
      | some k => s1.modCtx k fun x => { x with forced := true }
      | none => s1 := by
  unfold State.henDbg
  rw [State.writeAs_of_mayWrite right]
  rcases by_ with n | ⟨d, t⟩ | _
  · simp only [if_neg used] <;> rfl
  · exact absurd rfl (agent d t)
  · simp only [if_neg used] <;> rfl

/-- A thread and a FREE barrier only reject the write. -/
theorem State.henDbg_unready {s : State} {by_ : Agent} {c b : Nat} (right : s.mayWrite by_ (.hen c) = true)
    (h : ¬((∀ d t, by_ ≠ .thread d t) ∧ ((s.core c).bar b).st ≠ .free)) (f : State → State) : s.henDbg by_ c b f = s.reject (.hen c) := by
  unfold State.henDbg
  rw [State.writeAs_of_mayWrite right]
  rcases by_ with n | ⟨d, t⟩ | _
  · have free : ((s.core c).bar b).st = .free := by simpa using h
    simp only [if_pos free]
  · rfl
  · have free : ((s.core c).bar b).st = .free := by simpa using h
    simp only [if_pos free]

theorem State.hengDbg_ready {s : State} {by_ : Agent} {g : Nat} (right : s.mayWrite by_ (.heng 0) = true) (agent : ∀ d t, by_ ≠ .thread d t)
    (used : (s.gbar g).st ≠ .free) (f : State → State) :
    s.hengDbg by_ g f =
      (f (s.forced (.heng 0) St.islSync unitSync g by_ (s.ctx (g / 16)))).modCtx (g / 16) fun x => { x with forced := true } := by
  unfold State.hengDbg
  rw [State.writeAs_of_mayWrite right]
  rcases by_ with n | ⟨d, t⟩ | _
  · simp only [if_neg used]
  · exact absurd rfl (agent d t)
  · simp only [if_neg used]

theorem State.coreSelftest_eq (s : State) (c : Nat) :
    s.coreSelftest c = if (s.core c).run.isSome = true ∨ (s.core c).fenced = true then s.reject (.core c)
      else s.modCore c fun y => { y with selfTest := true } := by
  unfold State.coreSelftest
  simp only [Bool.or_eq_true]

theorem State.selftestDone_of_testing {s : State} {c : Nat} (h : (s.core c).selfTest = true) (ok : Bool) :
    s.selftestDone c ok =
      let s1 := s.setCore c { s.core c with selfTest := false }
      (if ok then s1 else (s1.ror (.core c) 4 0x80).fenceUnit c 0).returnToService := by
  unfold State.selftestDone
  rw [h]
  rfl

theorem State.returnToService_of_last {s : State} (all : s.brd.selftestAll = true) (none_ : ∀ d < 48, (s.core d).selfTest = false) :
    s.returnToService.brd.selftestAll = false ∧ s.returnToService.grp.quiesced = s.grp.left := by
  have finished : (List.range 48).any (fun c => (s.core c).selfTest) = false := by
    rw [List.any_eq_false]
    exact fun c hc => by simp [none_ c (List.mem_range.1 hc)]
  unfold State.returnToService
  rw [all, finished]
  exact ⟨rfl, rfl⟩

/-- Settles O19: each action register has its own case of a register write. -/
theorem actionsOfRegisters : Obligations.ActionsOfRegisters := by
  refine ⟨fun s by_ => ?_, fun s c testing => ?_, fun s by_ c b v right => ?_, fun s by_ g right agent used => ?_⟩
  · obtain ⟨selftest, inv, cal, link⟩ := exec_actions s by_
    refine ⟨fun c right => ⟨fun idle ok => ?_, fun busy => ?_⟩, inv, cal, fun p right => ?_⟩
    · rw [selftest c right, s.coreSelftest_eq, if_neg (by simp [idle, ok])]
      rfl
    · rw [selftest c right, s.coreSelftest_eq, if_pos (by simpa only [← Option.isSome_iff_ne_none] using busy)]
      rfl
    · obtain ⟨retrain, disable, enable⟩ := link p right
      refine ⟨retrain, fun up => disable.trans ?_, fun down => disable.trans ?_, fun off => enable.trans ?_, fun on => enable.trans ?_⟩
      · unfold State.disable
        rw [if_pos up]
      · unfold State.disable
        rw [down]
        rfl
      · exact congrArg Host.Outcome.next (if_pos off)
      · exact congrArg Host.Outcome.next (if_neg on)
  · intro s1
    have done := State.selftestDone_of_testing testing
    refine ⟨congrArg settled (done true), congrArg settled (done false), fun all others => ?_⟩
    have tests : ∀ d < 48, (s1.core d).selfTest = false := fun d hd => by
      by_cases same : d = c.val
      · rw [same, State.core_setCore_same _ _ c.isLt]
      · rw [State.core_setCore_ne _ _ hd same, others d hd same]
    have board : s1.brd = s.brd ∧ s1.grp = s.grp := by
      unfold s1 State.setCore
      split <;> exact ⟨rfl, rfl⟩
    rw [← board.2]
    exact s1.returnToService_of_last (board.1.symm ▸ all) tests
  · intro ready s1 mark t
    refine ⟨fun h => ?_, fun h => ?_⟩
    · have acts := fun f : State → State => congrArg (fun y : State => settled (y.endTiles c)) (State.henDbg_ready right h.1 h.2 f)
      exact ⟨acts _, acts _, acts _, acts _⟩
    · have rejects := fun f : State → State => congrArg (fun y : State => settled (y.endTiles c)) (State.henDbg_unready right h f)
      exact ⟨rejects _, rejects _, rejects _, rejects _⟩
  · intro s1
    exact ⟨congrArg settled (State.hengDbg_ready right agent used _), congrArg settled (State.hengDbg_ready right agent used _)⟩

end Sys2Proof.Machine
end

section
/-! PROOFS. Streams, Mule transfers, the loads and stores of threads, and page faults (O28 to O30, O32, O33). -/

namespace Sys2Proof.Machine

open Sys2Proof

/-! ### Streams -/

/-- A STREAM that its thread has come to: on the context it kept, or on a free one. -/
theorem State.issueStream_of_nextOp {s : State} {c u t : Nat} {o : OpCtx} {q : StreamRec} (next : s.nextOp c u t = some o)
    (rec : o.rcd.stream? = some q) :
    s.issueStream c u t =
      let start := fun (k : Nat) (es : List BlEntry) =>
        (((s.modCore c fun y => y.setStream k (s.armed c u t o q es)).advance c u t).openOp c u).runStream c k
      match if q.persist then (s.core c).kept o else none with
      | some (k, st) => if st.running then s.register c t 2 k 0 false false u else start k st.entries
      | none =>
        match (s.core c).freeStream with
        | none => s.register c t 2 0x3F 0 false false u
        | some k => start k (s.blockList o.run.blBase q.blOff) := by
  unfold State.issueStream
  simp only [next, rec] <;> rfl

/-- Settles O28: the context is the lowest free one, or the one that the stream has kept. -/
theorem streamsStart : Obligations.StreamsStart := by
  intro s c u t o q next rec start mine
  have kept : mine = if q.persist then (s.core c).kept o else none := rfl
  have after : ∀ y : State, s.issueStream c u t = y → exec (.stream c u t) s = .next y.settle := fun y h => congrArg settled h
  have issue := State.issueStream_of_nextOp next rec
  simp only [← kept] at issue
  refine ⟨fun k none_ free => after _ ?_, fun none_ full => after _ ?_, fun k st some_ idle => after _ ?_, fun k st some_ runs => after _ ?_,
    fun es => ⟨rfl, rfl, rfl, rfl, rfl⟩⟩
  · simp only [issue, none_, free]
    rfl
  · simp only [issue, none_, full]
  · simp only [issue, some_, idle, Bool.false_eq_true, if_false]
    rfl
  · simp only [issue, some_, runs, if_true]

theorem State.ackSegment_of_found {s : State} {c k tag : Nat} {st : StreamCtx} {g : Segment} (stream : (s.core c).stream k = some st)
    (found : st.segs.find? (·.tag == tag) = some g) (status : Nat) :
    s.ackSegment c k tag status =
      if status ≠ St.ok then s.closeSegment c k g status
      else if g.got < g.n then s
      else
        let s1 := if g.dstDev = s.devIndex ∧ g.srcDev = s.devIndex then s.putWords g.dstAddr g.words else s
        let s2 := if g.dstDev = s.devIndex then s1.noteWrote st.slot g.dstAddr (4 * g.n) else s1
        s2.closeSegment c k g St.ok := by
  unfold State.ackSegment
  simp only [stream, found]

/-- A segment's tag is free. -/
def State.freeSegment (s : State) (c k : Nat) (g : Segment) : State :=
  s.modStream c k fun y => { y with segs := y.segs.filter (·.tag != g.tag) }

theorem State.closeSegment_of_ok (s : State) (c k : Nat) (g : Segment) :
    s.closeSegment c k g St.ok = (((s.freeSegment c k g).count48 (.str c) 0x20 (4 * g.n)).count48 (.str c) 0x28 1).runStream c k := rfl

theorem State.closeSegment_of_failed {status : Nat} (h : status ≠ St.ok) (s : State) (c k : Nat) (g : Segment) :
    s.closeSegment c k g status = ((s.freeSegment c k g).failStream c k status []).runStream c k := by
  unfold State.closeSegment
  simp only [if_neg h]
  rfl

/-- Settles O29: the segment that an acknowledgement closes decides by its status and by what is still away. -/
theorem segmentsCompleteOrTimeOut : Obligations.SegmentsCompleteOrTimeOut := by
  refine ⟨fun s c k tag status st g stream found => ?_, fun s c k st stream => ⟨fun g rest segs => ?_, fun p halted => ?_⟩⟩
  · intro free done
    have after : ∀ y : State, s.ackSegment c k tag status = y → exec (.segmentAcknowledged c k tag status) s = .next y.settle :=
      fun y h => congrArg settled h
    have ack := State.ackSegment_of_found stream found status
    refine ⟨fun failed => after _ ?_, fun ok open_ => after _ ?_, fun ok whole here local_ => after _ ?_, fun ok whole here remote => after _ ?_,
      fun ok whole away => after _ ?_⟩
    · rw [ack, if_pos failed]
      exact State.closeSegment_of_failed failed ..
    · rw [ack, if_neg (not_not_intro ok), if_pos open_]
    all_goals rw [ack, if_neg (not_not_intro ok), if_neg (Nat.not_lt.2 whole)]
    · simp only [if_pos (And.intro here local_), if_pos here]
      exact State.closeSegment_of_ok ..
    · simp only [if_neg (fun h : g.dstDev = s.devIndex ∧ g.srcDev = s.devIndex => remote h.2), if_pos here]
      exact State.closeSegment_of_ok ..
    · simp only [if_neg (fun h : g.dstDev = s.devIndex ∧ g.srcDev = s.devIndex => away h.1), if_neg away]
      exact State.closeSegment_of_ok ..
  · intro a
    change settled (s.streamTimedOut c k) = _
    unfold State.streamTimedOut
    simp only [stream, segs]
    rfl
  · change settled (s.faultLimit c k) = _
    unfold State.faultLimit
    simp only [stream, halted]
    rfl

/-! ### Mule transfers -/

/-- The commands that issue a Mule transfer, with their operations. -/
theorem exec_muleCommands : ∀ e ∈ [(0, Instr.copy), (1, Instr.put32), (2, Instr.add32)], ∀ (c : Fin 48) (u : Fin 8) (t : Fin 16) (s : State),
    exec (e.2 c u t) s = settled (s.issueMule e.1 c u t) := by
  simp only [List.forall_mem_cons, List.not_mem_nil, false_implies, implies_true, and_true]
  exact ⟨fun _ _ _ _ => rfl, fun _ _ _ _ => rfl, fun _ _ _ _ => rfl⟩

theorem State.coreSlot_modCore (s : State) (c d : Nat) (f : CoreState → CoreState) (h : ∀ x, (f x).run = x.run) :
    (s.modCore c f).coreSlot d = s.coreSlot d := by
  unfold State.coreSlot
  rw [s.part_modCore CoreState.run c d f h]

/-- A Mule transfer that is over: it was applied and its write is acknowledged, or it failed. -/
theorem State.endMule_of_found {s : State} {c i : Nat} {m : MuleSlot} (found : (s.core c).mule i = some m) (status : Nat) :
    s.endMule c i status =
      let st := if status = St.ok then m.failed else some status
      if st.isNone && !m.sent then s
      else
        let s1 := s.modCore c fun x => { x with mules := x.mules.filter (·.1 != i) }
        let s2 := st.elim
          (let s' := (s1.count48 (.str c) 0x48 1).count48 (.str c) 0x20 (4 * m.words.length)
           if m.dstDev = s.devIndex then s'.noteWrote ((s.coreSlot c).getD 4) m.dstAddr (4 * m.words.length) else s')
          fun f => (s1.ror (.str c) 4 8).failTile c m.unit f
        (((State.sendMules c m.dstDev (s2.core c).mules s2).signalDone c m.doneBar st).wakeFor c 3 0x3F).closeOp c m.unit := by
  unfold State.endMule
  rw [found]
  dsimp only
  rcases (if status = St.ok then m.failed else some status) with _ | f <;> rfl

/-- Settles O30: the transfer takes the lowest free slot, and its two sides decide how it is applied. -/
theorem muleTransfers : Obligations.MuleTransfers := by
  refine ⟨fun e he s c u t o q next rec op => ?_, fun s c i status m found => ?_⟩
  · intro n owner srcA dstA src dst s1 add go
    have after : ∀ y : State, s.issueMule e.1 c u t = y → exec (e.2 c u t) s = .next y.settle := fun y h => by
      rw [exec_muleCommands e he, h]
      rfl
    refine ⟨fun full => after _ ?_, fun i slot => ⟨fun b here word => after _ ?_, fun d b peer word => after _ ?_,
      fun a b from_ to_ copy => after _ ?_, fun d a b from_ to_ copy => after _ ?_, fun st fails word => after _ ?_⟩⟩
    · have none_ : (List.range 16).find? (fun i => ((s.core c).mule i).isNone) = none := by
        rw [List.find?_eq_none]
        exact fun i hi => by simp [← Option.isSome_iff_ne_none, full i (List.mem_range.1 hi)]
      unfold State.issueMule
      simp only [next, rec, op, ne_eq, not_true_eq_false, if_false, none_]
    all_goals
      unfold State.issueMule
      simp only [next, rec, op, ne_eq, not_true_eq_false, if_false, slot]
    · simp only [dst, dstA, owner, n, if_neg word] at here
      simp only [here, word, not_false_eq_true, if_true, if_false]
      rfl
    · simp only [dst, dstA, owner, n, if_neg word] at peer
      simp only [peer, word, not_false_eq_true, if_true, if_false]
      rfl
    · simp only [dst, dstA, src, srcA, owner, n, if_pos copy] at from_ to_
      simp only [from_, to_, copy, not_true_eq_false, if_true, if_false, show n = q.arg from if_pos copy]
      rfl
    · simp only [dst, dstA, src, srcA, owner, n, if_pos copy] at from_ to_
      simp only [from_, to_, copy, not_true_eq_false, if_true, if_false, show n = q.arg from if_pos copy]
      rfl
    · simp only [dst, dstA, owner, n, if_neg word] at fails
      simp only [fails, word, if_false]
      rfl
  · intro s1 after s2
    have finish : ∀ y : State, s.endMule c i status = y → exec (.muleComplete c i status) s = .next y.settle := fun y h => congrArg settled h
    have end_ := State.endMule_of_found found status
    refine ⟨fun ok fine unsent => finish _ ?_, fun ok fine sent away => finish _ ?_, fun ok fine sent here => finish _ ?_,
      fun f ok failed => finish _ ?_, fun bad => finish _ ?_⟩
    · rw [end_]
      simp only [ok, fine, unsent, if_true, Option.isNone_none, Bool.not_false, Bool.and_self]
    · rw [end_]
      simp only [ok, fine, sent, if_true, Option.isNone_none, Bool.not_true, Bool.and_false, Bool.false_eq_true, if_false, if_neg away,
        Option.elim_none]
      rfl
    · have slot : s1.coreSlot c = s.coreSlot c := s.coreSlot_modCore c c _ fun _ => rfl
      rw [end_]
      simp only [ok, fine, sent, if_true, Option.isNone_none, Bool.not_true, Bool.and_false, Bool.false_eq_true, if_false, if_pos here,
        Option.elim_none, slot]
      rfl
    · rw [end_]
      simp only [ok, failed, if_true, Option.isNone_some, Bool.false_and, Bool.false_eq_true, if_false, Option.elim_some]
      rfl
    · rw [end_]
      simp only [if_neg bad, Option.isNone_some, Bool.false_and, Bool.false_eq_true, if_false, Option.elim_some]
      rfl

/-! ### Loads and stores of threads -/

/-- A load that stays within one line is one piece. -/
theorem State.loadPieces_one {n a : Nat} (s : State) (c : Nat) (tp : Bool) (some_ : 0 < n) (within : n ≤ 16 - a % 64 / 4) :
    State.loadPieces c tp (n + 1) a n s = s.loadPiece c a n tp := by
  obtain ⟨k, rfl⟩ : ∃ k, n = k + 1 := ⟨n - 1, by omega⟩
  simp only [State.loadPieces, Nat.add_one_ne_zero, if_false, Nat.min_eq_left within, Nat.sub_self, if_true, List.append_nil]

theorem State.loadPiece_uncached {s : State} {a : Nat} (local_ : a < 2 ^ 48) (h : cacheable a = false) (c n : Nat) (tp : Bool) :
    (s.loadPiece c a n tp).1 = s.peekWords a n := by
  have here : ¬(2 ^ 48 ≤ a ∧ a / 2 ^ 48 % 64 ≠ s.devIndex) := fun x => absurd x.1 (Nat.not_le.2 local_)
  unfold State.loadPiece
  simp only [h, Bool.false_and, Bool.false_eq_true, if_false, Bool.not_false, if_true, if_neg here, Nat.mod_eq_of_lt local_]

theorem State.loadPiece_hit {s : State} {c a : Nat} {l : CacheLine} (h : cacheable a = true) (on : bitOf (s.rforce (.cbuf c) 8).toNat 0 = true)
    (hit : (s.core c).line (a / 64 * 64) = some l) (n : Nat) :
    (s.loadPiece c a n false).1 = (List.range n).map fun i => l.deliver ((a - a / 64 * 64) / 4 + i) := by
  unfold State.loadPiece
  simp only [h, on, hit, Bool.and_false, Bool.false_and, Bool.false_eq_true, if_false, Bool.and_self, Bool.not_true]

theorem State.threadStore_here {s : State} {a : Nat} (h : a < 2 ^ 48 ∨ a / 2 ^ 48 % 64 = s.devIndex) (c : Nat) (bs : List Byte)
    (miss : ((s.putBytes (unitOfAddr (a % 2 ^ 48)) (islandOfAddr (a % 2 ^ 48)) (a % 2 ^ 48) bs).core c).line (a / 64 * 64) = none) :
    s.threadStore c a bs = s.putBytes (unitOfAddr (a % 2 ^ 48)) (islandOfAddr (a % 2 ^ 48)) (a % 2 ^ 48) bs := by
  have here : ¬(2 ^ 48 ≤ a ∧ a / 2 ^ 48 % 64 ≠ s.devIndex) := fun x => h.elim (Nat.not_lt.2 x.1) x.2
  unfold State.threadStore
  simp only [if_neg here, miss]

/-- Settles O32: the address decides between a refusal, a register, memory and a peer. -/
theorem threadLoadsAndStores : Obligations.ThreadLoadsAndStores := by
  refine ⟨fun s c t a bytes tp => ?_, fun s c t a data => ?_⟩
  · intro n
    have load : exec (.threadLoad c t a bytes tp) s = .next (s.threadLoad c t a bytes tp) := rfl
    refine ⟨fun st refused => ?_, fun ok reg word => ?_, fun ok mem some_ within => ?_, fun local_ off => State.loadPiece_uncached local_ off c n tp,
      fun l _ cached noParity on hit => noParity ▸ State.loadPiece_hit cached on hit n⟩
    all_goals rw [load]; unfold State.threadLoad
    · simp only [refused]
      rfl
    · simp only [ok, reg, word, ne_eq, not_true_eq_false, if_true, if_false]
    · simp only [ok, if_neg mem, State.loadPieces_one s c tp some_ within, n]
  · have store : exec (.threadStore c t a data) s = execThreadStore c t a data s := rfl
    refine ⟨fun st refused => ?_, fun ok reg => ?_, fun ok mem here => ?_, fun ok mem global away => ?_⟩
    all_goals rw [store]; unfold execThreadStore
    · simp only [refused]
    · simp only [ok, if_pos reg]
      rfl
    · intro s1 miss
      simp only [ok, if_neg mem]
      exact congrArg Host.Outcome.next (State.threadStore_here here c data miss)
    · simp only [ok, if_neg mem]
      exact congrArg Host.Outcome.next (if_pos ⟨global, away⟩)

/-! ### Page faults -/

/-- The fault of a halted stream, while the page's entry and its fetch are as they are. -/
theorem State.serveFault_of_halted {s : State} {c k p : Nat} {st : StreamCtx} (stream : (s.core c).stream k = some st)
    (halted : st.halted = some p) (away : ¬((s.fetch p).isSome = true ∨ ¬(pteSt (s.pte p).1 = 3 ∨ pteSt (s.pte p).1 = 4))) :
    s.serveFault c k =
      let e := (s.pte p).1
      match ((s.ctx st.slot).bind fun x => s.image x.image).bind fun g => s.takeFrame g p with
      | none => s.failWaiters p
      | some frame =>
        let handle := ((s.svc.hostPages.find? fun h => h.1 == p && h.2.2 == pteOwner e).map (·.2.1)).getD 0
        let f : PageFetch := ⟨p, pteOwner e, pteSt e == 4, pteDev e, pteFrame e, handle, frame, [], false, [(c, k)]⟩
        let s1 := (s.setPte p (mkPte 5 false (pteOwner e) frame (pteDev e))).modSvc fun v => { v with fetches := v.fetches ++ [f] }
        if pteSt e == 4 then s1.askHost f else s1.askPeer f := by
  unfold State.serveFault
  simp only [stream, halted, if_neg away] <;> rfl

theorem State.serveFault_of_waiting {s : State} {c k p : Nat} {st : StreamCtx} (stream : (s.core c).stream k = some st)
    (halted : st.halted = some p) (h : (s.fetch p).isSome = true ∨ ¬(pteSt (s.pte p).1 = 3 ∨ pteSt (s.pte p).1 = 4)) : s.serveFault c k = s := by
  unfold State.serveFault
  simp only [stream, halted, if_pos h]

/-- Settles O33: the state of the page decides what a fault does, and what comes back frees the streams halted on it. -/
theorem pageFaultsAndPages : Obligations.PageFaultsAndPages := by
  refine ⟨fun s c k st p stream halted => ?_, fun s p data f fetch => ⟨fun ready => ?_, fun coming => ?_,
    fun host coming => ?_, fun other => ?_⟩, fun s by_ c k right => ⟨fun p halted => ?_, fun running => ?_⟩⟩
  · intro e frame handle f s1
    have after : ∀ y : State, s.serveFault c k = y → exec (.pageFault c k) s = .next y.settle := fun y h => congrArg settled h
    have away : s.fetch p = none → (pteSt e = 3 ∨ pteSt e = 4) → s.serveFault c k = _ := fun idle st34 =>
      State.serveFault_of_halted stream halted (fun h => h.elim (by simp [idle]) fun no => no st34)
    refine ⟨fun waits => after _ (State.serveFault_of_waiting stream halted (waits.imp_right fun h x => x.elim h.1 h.2)),
      fun idle st34 full => after _ ((away idle st34).trans ?_), fun a idle st4 got => after _ ((away idle (.inr st4)).trans ?_),
      fun a idle st3 got => after _ ((away idle (.inl st3)).trans ?_)⟩
    · simp only [frame] at full
      simp only [full]
    · simp only [frame] at got
      have host : (pteSt (s.pte p).1 == 4) = true := beq_iff_eq.2 st4
      simp only [got]
      exact if_pos host
    · simp only [frame] at got
      have peer : ¬(pteSt (s.pte p).1 == 4) = true := by simp [show pteSt (s.pte p).1 = 3 from st3]
      simp only [got]
      exact if_neg peer
  · change execPageFetchComplete p data s = _
    unfold execPageFetchComplete
    simp only [fetch, ready, if_true]
  · intro s0 g there coming' s1
    change execPageFetchComplete p data s = _
    have here : s0.pageHere p = (s1.haltedOn p).foldl (fun s e => s.strResume e.1 e.2) s1 := by
      unfold State.pageHere
      simp only [there, coming', Bool.false_eq_true, if_false]
      rfl
    unfold execPageFetchComplete
    simp only [fetch, coming, Bool.false_eq_true, if_false]
    exact congrArg settled here
  · change execKvPageRequest p s = _
    unfold execKvPageRequest
    simp only [fetch, host, coming, Bool.not_false, Bool.and_self, if_true]
    rfl
  · change execKvPageRequest p s = _
    unfold execKvPageRequest
    have no : ¬((f.host && !f.ready) = true) := by rcases other with h | h <;> simp [h]
    simp only [fetch, if_neg no]
  all_goals
    refine congrArg settled ((State.writeAs_of_mayWrite right ..).trans ?_)
    unfold State.strResume
  · rw [halted]
  · rw [running]

end Sys2Proof.Machine
end

section
/-! PROOFS. SYNC messages: when one is delivered, forwarded or acts (O39), and what the messages of barriers and routers do (O42). -/

namespace Sys2Proof.Machine

open Sys2Proof

/-! ### Delivery -/

theorem State.deliver_of_down {s : State} {p : Nat} (h : (s.port p).up = false) (tr : Trailer) (vc n : Nat) (here : State → State) :
    s.deliver p tr vc n here = s := by
  unfold State.deliver
  rw [h]
  rfl

theorem State.deliver_of_skew {s : State} {p : Nat} {tr : Trailer} (up : (s.port p).up = true) (skew : tr.seq ≠ ((s.takeTrailer p tr).port p).rxNext)
    (vc n : Nat) (here : State → State) : s.deliver p tr vc n here = (s.takeTrailer p tr).discard p := by
  unfold State.deliver
  simp only [up, Bool.not_true, Bool.false_eq_true, if_false, if_neg skew]

theorem State.deliver_of_linkTaken {s t : State} {p : Nat} {tr : Trailer} {n : Nat} (h : s.linkTaken p tr n = some t) (vc : Nat)
    (here : State → State) : s.deliver p tr vc n here = (here t).answer p vc n := by
  unfold State.linkTaken at h
  dsimp only at h
  split at h
  case isFalse => cases h
  case isTrue taken =>
    obtain ⟨up, seq⟩ := taken
    cases h
    unfold State.deliver
    simp only [up, Bool.not_true, Bool.false_eq_true, if_false, if_pos seq]

theorem State.syncIn_of_link {s : State} {m : SyncMsg} (h : m.via.val < 8) (sub : Nat) (here : State → State) :
    s.syncIn m sub here = .next (s.deliver m.via.val m.tr 0 m.flits fun s => s.takeSync m sub here).settle := by
  unfold State.syncIn
  exact if_pos h

theorem State.syncIn_of_ethDown {s : State} {m : SyncMsg} (h : ¬m.via.val < 8) (down : s.ethUp = false) (sub : Nat) (here : State → State) :
    s.syncIn m sub here = .next s := by
  unfold State.syncIn
  exact (if_neg h).trans (if_neg (Bool.eq_false_iff.1 down))

/-- A message that is taken is handled in the state that its link leaves, and over a chip link its flits are answered. -/
theorem State.syncIn_of_taken {s t : State} {m : SyncMsg} (h : s.syncTaken m = some t) (sub : Nat) (here : State → State) :
    s.syncIn m sub here = .next (State.syncOver (t.takeSync m sub here) m) := by
  unfold State.syncTaken at h
  unfold State.syncIn State.syncOver
  split at h
  · next link =>
    simp only [if_pos link]
    exact congrArg settled (State.deliver_of_linkTaken h 0 _)
  · next eth =>
    simp only [if_neg eth]
    split at h
    · next up =>
      cases h
      rw [if_pos up]
      rfl
    · cases h

/-- The state in which a delivered message is handled: the head has been heard, if it is the head's. -/
def State.heard (s : State) (m : SyncMsg) : State :=
  if s.grp.formed && decide (m.src = s.grp.head) then { s with grp := { s.grp with headSeen := s.aonClk } } else s

theorem State.heard_eq (s : State) (m : SyncMsg) :
    s.heard m = if s.grp.formed = true ∧ m.src = s.grp.head then { s with grp := { s.grp with headSeen := s.aonClk } } else s := by
  unfold State.heard
  simp only [Bool.and_eq_true, decide_eq_true_eq]

theorem State.takeSync_of_dst_ne {s : State} {m : SyncMsg} (h : m.dst ≠ s.devIndex) (sub : Nat) (here : State → State) :
    s.takeSync m sub here = ((s.heard m).syncFlits m.dst sub (m.bcast.map (·.val)) m.words).foldl
      (fun s f => s.sendFlit (some (if m.via.val < 8 then m.via.val / 2 else m.via.val - 4)) false { f with src := m.src }) (s.heard m) := by
  unfold State.takeSync
  exact if_pos h

theorem State.takeSync_of_dst_eq {s : State} {m : SyncMsg} (h : m.dst = s.devIndex) (sub : Nat) (here : State → State) :
    s.takeSync m sub here = here (m.bcast.elim (s.heard m) fun b =>
      (s.heard m).castOver (b.val + 1) ((s.heard m).castDims sub m.words) sub m.src m.words) := by
  unfold State.takeSync
  refine (if_neg (not_not_intro h)).trans ?_
  cases m.bcast <;> rfl

/-- What a message does that acts on this device. -/
theorem State.syncIn_of_syncActs {s t : State} {m : SyncMsg} {sub : Nat} (h : s.syncActs m sub = some t) (here : State → State) :
    s.syncIn m sub here = .next (State.syncOver (here t) m) := by
  unfold State.syncActs at h
  rcases taken : s.syncTaken m with _ | s1 <;> simp only [taken] at h
  · cases h
  · split at h
    · cases h
    · next here_ =>
      rw [← State.heard_eq] at h
      rw [State.syncIn_of_taken taken, State.takeSync_of_dst_eq (not_not.1 here_)]
      rcases b : m.bcast with _ | b <;> simp only [b] at h <;> cases h <;> rfl

/-- Every command that brings a SYNC message handles it under its subtype. -/
theorem exec_syncCommands : ∀ e ∈ syncCommands, ∀ m : SyncMsg, ∃ here : State → State, ∀ s, exec (e.2 m) s = s.syncIn m e.1 here := by
  simp only [syncCommands, List.forall_mem_cons, List.not_mem_nil, false_implies, implies_true, and_true]
  refine ⟨?_, ?_, ?_, ?_, ?_, ?_, ?_, ?_, ?_, ?_, ?_, ?_, ?_, ?_, ?_, ?_, ?_, ?_, ?_, ?_, ?_, ?_, ?_, ?_, ?_, ?_, ?_, ?_⟩ <;>
    exact fun m => ⟨_, fun _ => rfl⟩

/-- The command that brings a message of subtype 2 is HEARTBEAT. -/
theorem heartbeat_of_syncCommands : ∀ e ∈ syncCommands, e.1 = 2 → e.2 = Instr.heartbeat := by
  simp [syncCommands]

/-- Settles O39: each command runs `syncIn` with its subtype, so the delivery decides what happens before the message acts. -/
theorem syncMessagesArrive : Obligations.SyncMessagesArrive := by
  unfold Obligations.SyncMessagesArrive
  intro e mem s m
  obtain ⟨here, run⟩ := exec_syncCommands e mem m
  refine ⟨fun link down => ?_, fun link up skew => ?_, fun eth down => ?_, fun s1 taken away => ?_, fun s1 taken formed head here_ one beat => ?_⟩
  · rw [run, State.syncIn_of_link link, State.deliver_of_down down]
  · rw [run, State.syncIn_of_link link, State.deliver_of_skew up skew]
  · rw [run, State.syncIn_of_ethDown (by omega) down]
  · rw [run, State.syncIn_of_taken taken, State.takeSync_of_dst_ne away, State.heard_eq]
  · have acts : s.syncActs m 2 = some { s1 with grp := { s1.grp with headSeen := s1.aonClk } } := by
      unfold State.syncActs
      simp only [taken, one, if_neg (not_not_intro here_), if_pos (And.intro formed head)]
    rw [heartbeat_of_syncCommands e mem beat]
    exact State.syncIn_of_syncActs acts id

/-! ### What the messages of barriers and routers do -/

theorem State.takeGrantReq_of_free {s : State} {src tag bytes a : Nat} (live : s.tagStopped tag = false)
    (new : s.slotOf (tagPort tag) tag = none) (free : s.freeSlot (tagPort tag) (field tag 0 2) = some a) :
    s.takeGrantReq src tag bytes = s.grantSlot a (tagPort tag) src tag bytes := by
  unfold State.takeGrantReq
  simp only [live, new, free, Bool.false_eq_true, if_false]

theorem State.takeGrantReq_of_full {s : State} {src tag bytes : Nat} (live : s.tagStopped tag = false)
    (new : s.slotOf (tagPort tag) tag = none) (full : s.freeSlot (tagPort tag) (field tag 0 2) = none) :
    s.takeGrantReq src tag bytes =
      { s with links := { s.links with grants := s.links.grants ++ [⟨tagPort tag, src, tag, bytes⟩] } } := by
  unfold State.takeGrantReq
  simp only [live, new, full, Bool.false_eq_true, if_false]

theorem State.takeAbort_of_noSlot {s : State} {a : AbortNote} (h : (s.noteAbort a).opSlot a.opid = none) : s.takeAbort a = s.noteAbort a := by
  unfold State.takeAbort
  simp only [h]

theorem State.takeAbort_of_launched {s : State} {a : AbortNote} {k : Nat} (h : (s.noteAbort a).opSlot a.opid = some k)
    (new : a.opid ∉ (s.noteAbort a).links.aborted) : s.takeAbort a = (s.noteAbort a).stopOp k a.opid := by
  unfold State.takeAbort
  simp only [h, List.contains_iff_mem, if_neg new]

/-- Settles O42: each message acts in the state in which it is handled, by the operation of its subtype. -/
theorem fabricMessagesAct : Obligations.FabricMessagesAct := by
  unfold Obligations.FabricMessagesAct
  intro s m t
  have acts : ∀ {sub : Nat} {here : State → State} {t' : State}, s.syncActs m sub = some t → here t = t' →
      s.syncIn m sub here = .next (State.syncOver t' m) := fun h eq => eq ▸ State.syncIn_of_syncActs h _
  refine ⟨fun h => acts h rfl, fun h live new => ⟨fun a free => acts h (State.takeGrantReq_of_free live new free),
    fun full => acts h (State.takeGrantReq_of_full live new full)⟩, fun w h found => acts h ?_, fun h formed => ?_, fun h new => acts h ?_, fun h => acts h rfl⟩
  · unfold State.takeGrant
    simp only [found]
  · refine ⟨fun none_ => acts h ?_, fun k launched new => acts h ?_⟩
    · exact (if_pos formed).trans (State.takeAbort_of_noSlot none_)
    · exact (if_pos formed).trans (State.takeAbort_of_launched launched new)
  · simp only [List.contains_iff_mem, if_neg new]

end Sys2Proof.Machine
end

section
/-! PROOFS. Under a head: commands are followed in sequence, and a head that is lost takes every context with it (O40); steps are re-executed and
collectives abort (O43); groups form (O44). -/

namespace Sys2Proof.Machine

open Sys2Proof

/-! ### A slot without a context gets none -/

/-- Every slot of s without a context has none in t. -/
def State.NoNewCtx (s t : State) : Prop := ∀ k < 4, s.ctx k = none → t.ctx k = none

theorem State.ctx_congr {s t : State} (h : t.ctxs = s.ctxs) (k : Nat) : t.ctx k = s.ctx k := by
  unfold State.ctx
  simp only [h]

namespace State.NoNewCtx

theorem refl (s : State) : s.NoNewCtx s := fun _ _ h => h

theorem trans {s t u : State} (h : s.NoNewCtx t) (k : t.NoNewCtx u) : s.NoNewCtx u := fun j hj none_ => k j hj (h j hj none_)

theorem of_ctxs {s t : State} (h : t.ctxs = s.ctxs) : s.NoNewCtx t := fun k _ none_ => (State.ctx_congr h k).trans none_

theorem of_memOnly {s t : State} (h : s.MemOnly t) : s.NoNewCtx t := of_ctxs (by rw [h])

theorem of_sendsOnly {s t : State} (h : s.SendsOnly t) : s.NoNewCtx t := of_ctxs (by rw [h])

theorem foldl {α : Type} {g : State → α → State} (hg : ∀ t a, State.NoNewCtx t (g t a)) (l : List α) (s : State) : s.NoNewCtx (l.foldl g s) :=
  foldl_keeps (P := s.NoNewCtx) (fun t a h => h.trans (hg t a)) l (refl s)

theorem ite {s a b : State} (c : Prop) [Decidable c] (ha : s.NoNewCtx a) (hb : s.NoNewCtx b) : s.NoNewCtx (if c then a else b) := by
  split
  · exact ha
  · exact hb

theorem modCore (s : State) (c : Nat) (f : CoreState → CoreState) : s.NoNewCtx (s.modCore c f) := of_ctxs (s.setCore_ctxs ..)

theorem setCtx {s : State} {k : Nat} {v : Option Ctx} (h : k < 4 → s.ctx k = none → v = none) : s.NoNewCtx (s.setCtx k v) := by
  intro j hj none_
  by_cases hk : k < 4
  · rw [State.ctx_setCtx s k j v hk hj]
    split
    next same => exact h hk (same ▸ none_)
    · exact none_
  · unfold State.setCtx
    rw [dif_neg hk]
    exact none_

theorem modCtx (s : State) (k : Nat) (f : Ctx → Ctx) : s.NoNewCtx (s.modCtx k f) := setCtx fun _ none_ => by rw [none_]; rfl

theorem waitStatus (s : State) (c u status : Nat) (own : Option Nat) : s.NoNewCtx (s.waitStatus c u status own) := by
  have fails : ∀ st, s.NoNewCtx (s.failTile c u st) := fun st => of_ctxs (s.setCore_ctxs ..)
  unfold State.waitStatus
  refine ite _ (fails _) (ite _ (fails _) (ite _ (fails _) (ite _ ?_ (ite _ (fails _) (refl s)))))
  split
  · exact modCtx s _ _
  · exact refl s

theorem fire (s : State) (c t status : Nat) (own : Option Nat) : s.NoNewCtx (s.fire c t status own) := by
  unfold State.fire
  dsimp only
  split
  · exact refl s
  next w _ =>
    refine trans ?_ (waitStatus _ c w.unit status own)
    have posted : ∀ x, s.NoNewCtx ((s.setCore c x).count48 (.hen c) 0x20 1) := fun x => of_ctxs (s.setCore_ctxs c x)
    exact ite _ ((posted _).trans (modCore _ _ _)) (posted _)

end State.NoNewCtx

/-! ### The reset and the end of a context -/

namespace State.NoNewCtx

theorem breakBar (s : State) (c b : Nat) : s.NoNewCtx (s.breakBar c b) := by
  unfold State.breakBar
  exact ite _ (refl s) ((of_ctxs (s.setCore_ctxs ..)).trans (foldl (fun t th => fire _ _ _ _ _) _ _))

theorem breakGbar (s : State) (g : Nat) : s.NoNewCtx (s.breakGbar g) := by
  unfold State.breakGbar
  exact ite _ (refl s) ((of_ctxs (s.setGbar_ctxs ..)).trans (foldl (fun t w => fire _ _ _ _ _) _ _))

theorem breakCtx (s : State) (k : Nat) : s.NoNewCtx (s.breakCtx k) := by
  unfold State.breakCtx
  dsimp only
  refine trans ?_ (foldl (fun t c => modCore t c _) _ _)
  have broken : ∀ t : State, t.NoNewCtx ((List.range 16).foldl (fun s i => s.breakGbar (16 * k + i)) t) := foldl (fun t i => breakGbar t _) _
  refine ite _ ?_ (trans ?_ (of_ctxs (State.setDsp_ctxs ..))) <;>
    exact (foldl (fun t c => (foldl (fun u b => breakBar u c b) _ t).trans (foldl (fun u th => fire _ _ _ _ _) _ _)) _ s).trans (broken _)

theorem withdraw (s : State) (k : Nat) (broken : Bool) : s.NoNewCtx (s.withdraw k broken) := by
  unfold State.withdraw
  dsimp only
  refine (of_ctxs rfl : s.NoNewCtx { s with pwr := { s.pwr with queue := s.pwr.queue.filter (·.slot != k) } }).trans (foldl (fun t c => ?_) _ _)
  exact ite _ (foldl (fun u th => fire _ _ _ _ _) _ _) (modCore t _ _)

theorem releaseGrant (s : State) (c : Nat) : s.NoNewCtx (s.releaseGrant c) := (modCore s c _).trans (of_ctxs rfl)

theorem freeSlots (s : State) (k : Nat) : s.NoNewCtx (s.freeSlots k) := of_ctxs rfl

theorem sendAbort (s : State) (o : Nat) (accused : Option Nat) (cause : Nat) : s.NoNewCtx (s.sendAbort o accused cause) := by
  have cast : s.NoNewCtx (s.broadcast 6 (abortWords o s.devIndex accused cause)) := by
    unfold State.broadcast State.castOver
    refine foldl (fun t k => foldl (fun u f => ?_) _ _) _ _
    exact ite _ (of_sendsOnly (State.sendsOnly_sendOver ..)) (of_sendsOnly (State.sendsOnly_sendFlit ..))
  exact cast.trans (of_ctxs rfl)

theorem resetCtx (s : State) (k : Nat) : s.NoNewCtx (s.resetCtx k) := by
  unfold State.resetCtx
  split
  · exact refl s
  · dsimp only
    refine trans ?_ (modCtx _ _ _)
    refine trans ?_ (foldl (fun t c => (modCore t c _).trans (releaseGrant _ c)) _ _)
    exact (foldl (fun t o => sendAbort t _ _ _) _ s).trans ((breakCtx _ k).trans ((withdraw _ k true).trans (freeSlots _ k)))

theorem freePages (s : State) (owner : Nat) : s.NoNewCtx (s.freePages owner) := by
  have drop : ∀ (t : State) (p : Nat), t.NoNewCtx (t.setPte p 0) := fun t p => by
    refine trans ?_ (of_memOnly (State.MemOnly.putWords ..))
    exact ite _ (foldl (fun u c => ite _ (modCore u _ _) (refl u)) _ _) (refl t)
  unfold State.freePages
  exact (foldl (fun t p => ite _ (drop t p) (refl t)) _ s).trans (of_ctxs rfl)

theorem endCtx (s : State) (k : Nat) : s.NoNewCtx (s.endCtx k) := by
  unfold State.endCtx
  split
  · exact refl s
  next x _ =>
    dsimp only
    refine trans (t := State.setCtx _ k none) (trans ?_ (setCtx fun _ _ => rfl)) (of_ctxs rfl)
    refine ite _ ?_ (trans ?_ (of_ctxs (State.setDsp_ctxs ..))) <;>
      exact (freePages s x.id).trans ((foldl (fun t c => ite _ (modCore t _ _) (refl t)) _ _).trans
        (foldl (fun t i => ite _ (refl t) (of_ctxs (t.setGbar_ctxs ..))) _ _))

end State.NoNewCtx

/-- A context that ends leaves its slot empty. -/
theorem State.ctx_endCtx (s : State) {k : Nat} (hk : k < 4) : (s.endCtx k).ctx k = none := by
  unfold State.endCtx
  split
  · assumption
  · exact (State.ctx_setCtx _ k k none hk hk).trans (if_pos rfl)

theorem State.ctx_endAll (l : List Nat) : ∀ (s : State), ∀ k ∈ l, k < 4 →
    (l.foldl (fun s k => (s.resetCtx k).endCtx k) s).ctx k = none := by
  have each : ∀ (t : State) k, t.NoNewCtx ((t.resetCtx k).endCtx k) := fun t k => (State.NoNewCtx.resetCtx t k).trans (State.NoNewCtx.endCtx _ k)
  induction l with
  | nil => exact fun _ _ mem => (List.not_mem_nil mem).elim
  | cons a l ih =>
    intro s k mem hk
    rcases List.mem_cons.1 mem with rfl | mem
    · exact State.NoNewCtx.foldl each l _ k hk (State.ctx_endCtx _ hk)
    · exact ih _ k mem hk

/-! ### A head that is lost -/

theorem State.NoNewCtx.dropEgress (s : State) (gseq : Nat) : s.NoNewCtx (s.dropEgress gseq) := by
  unfold State.dropEgress State.stopEgress
  split
  · exact State.NoNewCtx.of_ctxs rfl
  · refine State.NoNewCtx.of_ctxs ?_
    unfold State.modConn State.setConn
    split <;> rfl

/-- A notice touches the registers, the service and what has been sent. -/
theorem State.notices_eq (s : State) (opcode status : Nat) (payload : List Byte) :
    s.notices opcode status payload =
      { s with regs := (s.notices opcode status payload).regs, svc := (s.notices opcode status payload).svc,
               out := (s.notices opcode status payload).out } := by
  unfold State.notices
  refine foldl_keeps (P := fun t : State => t = { s with regs := t.regs, svc := t.svc, out := t.out }) (fun t x h => ?_) _ rfl
  split
  · exact h
  · rw [h]
    rfl

theorem State.stateNotice_ctxs (s : State) (status : Nat) : (s.stateNotice status).ctxs = s.ctxs := by
  unfold State.stateNotice
  rw [State.notices_eq]

theorem State.rput_ctxs (s : State) (p : Page) (off lo width v : Nat) : (s.rput p off lo width v).ctxs = s.ctxs := rfl

theorem State.startSt_ctxs (s : State) (st detail : Nat) : (s.startSt st detail).ctxs = s.ctxs := rfl

/-- A device whose head is lost: it says so, no slot holds a context and no session is open. -/
theorem State.headGone_facts {s : State} (h : s.grp.headLost = false) :
    s.headGone.grp.headLost = true ∧ (∀ k, s.headGone.ctx k = none) ∧ s.headGone.svc.sessions = [] := by
  have ended : ∀ k < 4, ((List.range 4).foldl (fun s k => (s.resetCtx k).endCtx k) s).ctx k = none :=
    fun k hk => State.ctx_endAll _ s k (List.mem_range.2 hk) hk
  have dropped : ∀ (es : List Egress) (t : State), t.NoNewCtx (es.foldl (fun s e => s.dropEgress e.gseq) t) :=
    State.NoNewCtx.foldl fun t e => State.NoNewCtx.dropEgress t e.gseq
  unfold State.headGone
  rw [if_neg (Bool.eq_false_iff.1 h)]
  dsimp only
  refine ⟨?_, fun k => ?_, rfl⟩
  · unfold State.stateNotice
    rw [State.notices_eq]
    rfl
  · have at_ : ∀ t : State, t.ctx k = t.ctx (min k 3) := fun t => by unfold State.ctx; congr 1; omega
    have none_ := dropped ((List.range 4).foldl (fun s k => (s.resetCtx k).endCtx k) s).svc.egress _ (min k 3) (by omega) (ended (min k 3) (by omega))
    rw [at_, ← none_]
    refine State.ctx_congr ?_ _
    simp only [State.startSt_ctxs, State.rput_ctxs, State.modSvc_ctxs, State.stateNotice_ctxs]

/-! ### The head's sequence of commands -/

theorem State.takeCommand_of_next {s : State} {ws : List Word} (follows : s.follows = true)
    (next : ((ws.getD 0 0).toNat + 2 ^ 32 - s.grp.lastGseq) % 2 ^ 32 = 1) (ok : Bool) :
    s.takeCommand ws ok = State.applyHeld (s.applyWords ws ok).svc.held.length (s.applyWords ws ok) := by
  unfold State.takeCommand
  simp only [follows, next]
  rfl

theorem State.takeCommand_of_ahead {s : State} {ws : List Word} (follows : s.follows = true)
    (gap : 1 < ((ws.getD 0 0).toNat + 2 ^ 32 - s.grp.lastGseq) % 2 ^ 32)
    (ahead : ((ws.getD 0 0).toNat + 2 ^ 32 - s.grp.lastGseq) % 2 ^ 32 < 2 ^ 31) (new : ∀ e ∈ s.svc.held, e.1 ≠ (ws.getD 0 0).toNat) (ok : Bool) :
    s.takeCommand ws ok = { s with svc := { s.svc with held := s.svc.held ++ [((ws.getD 0 0).toNat, b01 ok, ws)] } } := by
  unfold State.takeCommand
  dsimp only
  generalize ((ws.getD 0 0).toNat + 2 ^ 32 - s.grp.lastGseq) % 2 ^ 32 = d at gap ahead ⊢
  have fresh : s.svc.held.any (·.1 == (ws.getD 0 0).toNat) = false := List.any_eq_false.2 fun e mem => by
    rw [beq_iff_eq]
    exact new e mem
  have zero : (d == 0) = false := beq_eq_false_iff_ne.2 (by omega)
  simp only [follows, zero, decide_eq_false (show ¬2 ^ 31 ≤ d by omega), if_neg (show ¬d = 1 by omega), fresh]
  rfl

theorem State.takeCommand_of_applied {s : State} {ws : List Word}
    (h : s.follows = false ∨ ((ws.getD 0 0).toNat + 2 ^ 32 - s.grp.lastGseq) % 2 ^ 32 = 0 ∨
      2 ^ 31 ≤ ((ws.getD 0 0).toNat + 2 ^ 32 - s.grp.lastGseq) % 2 ^ 32) (ok : Bool) : s.takeCommand ws ok = s := by
  unfold State.takeCommand
  refine if_pos ?_
  simp only [Bool.or_eq_true, Bool.not_eq_true', beq_iff_eq, decide_eq_true_eq]
  tauto

/-- Settles O40: each message acts in the state in which it is handled; a lost head ends every context and every session. -/
theorem commandsAreSequencedUnderAHead : Obligations.CommandsAreSequencedUnderAHead := by
  unfold Obligations.CommandsAreSequencedUnderAHead
  refine ⟨fun s m t => ?_, fun s formed head lost => ?_, fun s cause formed => ?_, fun s => ?_, fun s => State.headGone_facts⟩
  · have acts : ∀ {sub : Nat} {here : State → State} {t' : State}, s.syncActs m sub = some t → here t = t' →
        s.syncIn m sub here = .next (State.syncOver t' m) := fun h eq => eq ▸ State.syncIn_of_syncActs h _
    refine ⟨fun ok h => ⟨fun follows next => acts h ?_, fun follows gap ahead new => acts h ?_, fun applied => acts h ?_⟩, fun h => acts h rfl,
      fun h follows => acts h (if_pos follows), fun h head => acts h (if_pos head),
      fun ok h => ⟨fun follows good => acts h ?_, fun no => acts h ?_⟩⟩
    · exact State.takeCommand_of_next follows next ok
    · exact State.takeCommand_of_ahead follows gap ahead new ok
    · exact State.takeCommand_of_applied applied ok
    · simp only [follows, good, Bool.and_self, if_true]
    · rcases no with no | no <;> simp [no]
  · change execHeartbeatPeriod s = _
    unfold execHeartbeatPeriod
    simp only [formed, head, lost, Bool.not_false, Bool.and_self, if_true]
  · refine ⟨fun silent => ?_, fun heard => ?_⟩
    · change execHeadLost cause s = _
      unfold execHeadLost
      simp only [formed, silent, Bool.and_self, if_true]
      rfl
    · change execHeadLost cause s = _
      unfold execHeadLost
      simp only [heard, Bool.and_false, Bool.false_eq_true, if_false]
  · simp only [State.headSilent, Bool.and_eq_true, Bool.not_eq_true', decide_eq_true_eq]

/-! ### Re-execution and aborts -/

theorem State.takeReexec_of_step {s : State} {m : SyncMsg} {k : Nat} (slot : s.slotFor (m.at_ 0) = some k) (follows : s.follows = true)
    (step : bitOf (m.at_ 1) 2 = false) :
    s.takeReexec m = s.redoStep k (field (m.at_ 2) 0 10) (field (m.at_ 2) 10 18) (m.at_ 1 % 4) := by
  unfold State.takeReexec
  simp only [slot, follows, step, Bool.not_true, Bool.false_eq_true, if_false]

theorem State.takeReexec_of_restart {s : State} {m : SyncMsg} {k : Nat} (slot : s.slotFor (m.at_ 0) = some k) (follows : s.follows = true)
    (restart : bitOf (m.at_ 1) 2 = true) : s.takeReexec m = s.rewind k (m.at_ 1 % 4) := by
  unfold State.takeReexec
  simp only [slot, follows, restart, Bool.not_true, Bool.false_eq_true, if_false, if_true]

theorem State.collTimeout_of_missing {s : State} {o k d : Nat} (slot : s.opSlot o = some k) (due : (o, 0) ∈ s.links.timers)
    (live : s.opLive o = some false) (new : o ∉ s.links.aborted) (missing : s.missingStep k o = some d) :
    s.collTimeout o = (s.sendAbort o (some (s.devIndex ^^^ 2 ^ d)) 0).stopOp k o := by
  unfold State.collTimeout
  simp only [slot, live, missing, List.contains_iff_mem.2 due, Bool.eq_false_iff.2 (mt List.contains_iff_mem.1 new)]
  rfl

theorem State.collTimeout_of_notDue {s : State} {o : Nat} (h : (o, 0) ∉ s.links.timers) : s.collTimeout o = s := by
  unfold State.collTimeout
  split
  · rfl
  · exact if_pos (by rw [Bool.eq_false_iff.2 (mt List.contains_iff_mem.1 h)]; rfl)

theorem State.recordAbort_of_notDue {s : State} {o : Nat} (h : (o, 0) ∉ s.links.abortDue) : s.recordAbort o = s := by
  unfold State.recordAbort
  simp only [Bool.eq_false_iff.2 (mt List.contains_iff_mem.1 h)]

/-- Settles O43: the messages act in the state in which they are handled; the timers act when their ticks have run out, and else do nothing. -/
theorem reexecutionAndAborts : Obligations.ReexecutionAndAborts := by
  unfold Obligations.ReexecutionAndAborts
  refine ⟨fun s m t k => ?_, fun s o => ⟨fun k d slot due live new missing => ?_, fun h => congrArg settled (State.collTimeout_of_notDue h), ?_,
    fun h => congrArg Host.Outcome.next (State.recordAbort_of_notDue h)⟩⟩
  · have acts : ∀ {sub : Nat} {here : State → State} {t' : State}, s.syncActs m sub = some t → here t = t' →
        s.syncIn m sub here = .next (State.syncOver t' m) := fun h eq => eq ▸ State.syncIn_of_syncActs h _
    refine ⟨fun h slot head => acts h ?_, fun h slot follows => ⟨fun step => acts h (State.takeReexec_of_step slot follows step),
      fun restart => acts h (State.takeReexec_of_restart slot follows restart)⟩, fun h head a accuses => acts h ?_⟩
    · simp only [slot, head, if_true]
    · simp only [head, accuses, Bool.not_true, Bool.false_eq_true, if_false]
  · exact congrArg settled (State.collTimeout_of_missing slot due live new missing)
  · intro l a due least
    change Host.Outcome.next (s.recordAbort o) = _
    unfold State.recordAbort
    simp only [List.contains_iff_mem.2 due, show ((s.links.aborts.filter (·.opid == o)).map (·.accuser)).min? = some a from least]
    rfl

/-! ### Formation -/

theorem State.takeCall_of_lower {s : State} {head : Nat} (single : s.grp.formed = false) (alive : s.grp.headLost = false) (in_ : s.leftOut = false)
    (member : s.isHead = false) (first : s.grp.called = false) (shows : s.rfield .aon 4 16 16 ≠ St.headLost) :
    s.takeCall head = State.answerCall { s with grp := { s.grp with
      called := true, head := head, joinSent := false, calling := false, joins := [] } } := by
  unfold State.takeCall
  simp only [single, alive, in_, member, first, Bool.or_self, Bool.false_and, Bool.false_eq_true, if_false]
  exact congrArg State.answerCall (if_neg shows)

theorem State.takeJoin_of_accepted {s : State} {m : SyncMsg} {ok : Bool} (may : s.mayCall = true) (good : s.joinRefused m ok = none) :
    s.takeJoin m ok = State.tryForm { s with grp := { s.grp with joins := s.grp.joins.filter (·.dev != m.src) ++ [⟨m.src, true, none⟩] } } := by
  unfold State.takeJoin
  simp only [may, good, Bool.not_true, Bool.false_eq_true, if_false]
  rfl

theorem State.takeFormed_of_named {s : State} {m : SyncMsg} (may : s.mayJoin = true) (joined : s.grp.joinSent = true) (head : m.src = s.grp.head)
    (named : (m.at64 1).testBit s.devIndex = true) :
    s.takeFormed m = s.becomeMember (m.at_ 0 % 2 ^ 7) m.src (m.at64 1)
      (beNat (((m.words.drop 3).take 4).flatMap fun w => beBytes 4 w.toNat)) := by
  unfold State.takeFormed
  simp only [may, joined, named, ne_eq, head, not_true_eq_false, decide_false, Bool.not_true, Bool.or_self, Bool.false_eq_true, if_false, if_true]

theorem State.becomeMember_grp (s : State) (size head mask ip : Nat) : (s.becomeMember size head mask ip).grp = { s.grp with
    formed := true, size := size, head := head, members := mask, lastGseq := 0, headSeen := s.aonClk, headIp := ip, calling := false } := by
  unfold State.becomeMember State.toSt
  dsimp only
  split <;> rfl

/-- A head that finds a size at which every device has been accepted forms the group. -/
theorem State.tryForm_of_formSize {s : State} {n : Nat} (may : s.mayCall = true) (calling : s.grp.calling = true) (size : s.formSize = some n) :
    ∃ t mask ip, s.tryForm = State.becomeMember t n s.devIndex mask ip := by
  unfold State.tryForm
  simp only [may, calling, size, Bool.not_true, Bool.or_self, Bool.false_eq_true, if_false]
  exact ⟨_, _, _, rfl⟩

theorem State.accepted_of_formSize {s : State} {n : Nat} (size : s.formSize = some n) : ∀ d ∈ s.subCube n, s.accepted d = true := by
  unfold State.formSize at size
  have all := List.find?_some size
  exact List.all_eq_true.1 all

/-- Settles O44: each message acts in the state in which it is handled, and the head forms a group of the size that it finds. -/
theorem groupsForm : Obligations.GroupsForm := by
  unfold Obligations.GroupsForm
  refine ⟨fun s may => ?_, fun s m t ok => ?_, fun s => ⟨fun due => if_pos due, fun early => if_neg (Bool.eq_false_iff.1 early)⟩,
    fun s may member uncalled due => if_pos ?_, fun s n may calling size => ?_⟩
  · change execCallPeriod s = _
    unfold execCallPeriod
    simp only [may, Bool.not_true, Bool.false_eq_true, if_false]
    cases calling : s.grp.calling
    · rfl
    · have same : ({ s with grp := { s.grp with calling := true, firstCall := s.grp.firstCall } } : State) = s := by rw [← calling]
      simp only [if_true, same]
  · have acts : ∀ {sub : Nat} {here : State → State} {t' : State}, s.syncActs m sub = some t → here t = t' →
        s.syncIn m sub here = .next (State.syncOver t' m) := fun h eq => eq ▸ State.syncIn_of_syncActs h _
    exact ⟨fun h single alive in_ member first shows => acts h (State.takeCall_of_lower single alive in_ member first shows),
      fun h may good => acts h (State.takeJoin_of_accepted may good),
      fun h may joined head named => acts h (State.takeFormed_of_named may joined head named),
      fun h => ⟨fun status => acts h (if_neg status), fun deep => acts h (if_pos deep)⟩, fun h => acts h rfl⟩
  · simp only [may, member, uncalled, decide_eq_true due, Bool.not_false, Bool.and_self]
  · obtain ⟨t, mask, ip, formed⟩ := State.tryForm_of_formSize may calling size
    rw [formed, State.becomeMember_grp]
    exact ⟨rfl, rfl, rfl, rfl, State.accepted_of_formSize size⟩

end Sys2Proof.Machine
end

section
/-! PROOFS. Fields of registers, and the evaluation window of the power grant unit (O35). -/

namespace Sys2Proof.Machine

open Sys2Proof

/-! ### Fields of registers -/

theorem field_testBit (x lo width i : Nat) : (field x lo width).testBit i = (decide (i < width) && x.testBit (lo + i)) := by
  unfold field
  rw [Nat.testBit_mod_two_pow, Nat.testBit_div_two_pow, Nat.add_comm]

/-- A word with a field replaced has the new bits in the field and its own elsewhere. -/
theorem withField_testBit (w : Word) {lo width : Nat} (v j : Nat) (hj : j < 32) :
    (withField w lo width v).toNat.testBit j = if lo ≤ j ∧ j < lo + width then v.testBit (j - lo) else w.toNat.testBit j := by
  unfold withField
  simp only [BitVec.testBit_toNat, BitVec.getLsbD_or, BitVec.getLsbD_and, BitVec.getLsbD_not, BitVec.getLsbD_ofNat, Nat.testBit_mul_two_pow,
    Nat.testBit_two_pow_sub_one, hj, decide_true, Bool.true_and]
  by_cases low : lo ≤ j
  · by_cases high : j < lo + width
    · simp [low, high, show j - lo < width by omega]
    · simp [low, high, show ¬j - lo < width by omega]
  · simp [low]

theorem field_withField (w : Word) {lo width : Nat} (v : Nat) (h : lo + width ≤ 32) : field (withField w lo width v).toNat lo width = v % 2 ^ width := by
  refine Nat.eq_of_testBit_eq fun i => ?_
  rw [field_testBit, Nat.testBit_mod_two_pow]
  by_cases hi : i < width
  · rw [withField_testBit w v _ (by omega), if_pos (by omega), Nat.add_sub_cancel_left]
  · simp [hi]

theorem State.rfield_rput (s : State) (wf : swf 0#32 s.regs = true) (p : Page) (off : Nat) {lo width : Nat} (v : Nat) (h : lo + width ≤ 32) :
    (s.rput p off lo width v).rfield p off lo width = v % 2 ^ width := by
  unfold State.rfield State.rput
  rw [State.rget_rset s p off _ wf]
  exact field_withField _ v h

/-! ### The limit of power -/

/-- Picking the element with the smaller key, from the first to the last: one of the list, with the least key. -/
theorem foldl_pick {α β : Type} [LinearOrder β] (key : α → β) (l : List α) (a : α) :
    l.foldl (fun a b => if key b < key a then b else a) a ∈ a :: l ∧
      ∀ e ∈ a :: l, key (l.foldl (fun a b => if key b < key a then b else a) a) ≤ key e := by
  induction l generalizing a with
  | nil => simp
  | cons b l ih =>
    obtain ⟨mem, least⟩ := ih (if key b < key a then b else a)
    obtain ⟨first, rest⟩ := List.forall_mem_cons.1 least
    have chosen : key (if key b < key a then b else a) ≤ key a ∧ key (if key b < key a then b else a) ≤ key b := by
      split
      next lt => exact ⟨lt.le, le_rfl⟩
      next ge => exact ⟨le_rfl, not_lt.1 ge⟩
    simp only [List.foldl_cons, List.forall_mem_cons]
    refine ⟨?_, first.trans chosen.1, first.trans chosen.2, rest⟩
    rcases List.mem_cons.1 mem with eq | mem
    · rw [eq]
      split <;> simp
    · exact List.mem_cons_of_mem _ (List.mem_cons_of_mem _ mem)

theorem lowestTerm_le {l : List (Nat × Nat)} {e : Nat × Nat} (h : e ∈ l) : (lowestTerm l).2 ≤ e.2 :=
  (foldl_pick Prod.snd l (0, 1400)).2 e (List.mem_cons_of_mem _ h)

theorem lowestTerm_mem {l : List (Nat × Nat)} (h : (0, 1400) ∈ l) : lowestTerm l ∈ l := by
  rcases List.mem_cons.1 (foldl_pick Prod.snd l (0, 1400)).1 with eq | mem
  · exact (show lowestTerm l = _ from eq) ▸ h
  · exact mem

theorem State.chipTerm_mem (s : State) : (0, 1400) ∈ s.limitTerms := by simp [State.limitTerms]

theorem State.limit_takeLimit {s : State} (wf : s.regsWf) : s.takeLimit.limit = max (lowestTerm s.limitTerms).2 500 := by
  have top := lowestTerm_le s.chipTerm_mem
  refine (State.rfield_rput _ wf.1 (.pwr 0) 0x20 _ (by decide)).trans (Nat.mod_eq_of_lt ?_)
  dsimp only at top
  omega

/-! ### Steps of a term -/

theorem stepTerm_high (t : Option Nat) (was low : Bool) (mean : Nat) :
    stepTerm t was true low mean = (some (max (match t, was with | some t, true => t - 25 | _, _ => mean - 25) 500), true) := rfl

theorem stepTerm_low (t : Nat) (was : Bool) (mean : Nat) :
    stepTerm (some t) was false true mean = (if 1400 ≤ t + 25 then none else some (t + 25), false) := rfl

/-! ### A window -/

theorem State.window_eq (s : State) (w : Window) :
    let s3 := (s.windowEnd w).windowStart w
    s.window w = (if s3.pb ≤ s3.limit * wattUnit then
      (if (s.windowEnd w).limit < s3.limit ∧ s3.pwr.hot = false then State.restore 200 s3 else s3) else State.demote 200 s3).noteReasons := by
  unfold State.window fitsW
  simp only [Bool.and_eq_true, decide_eq_true_eq, Bool.not_eq_true']

/-- Settles O35: the window's order is that of its definition, and the limit is the lowest of its terms, kept within its bounds. -/
theorem evaluationWindows : Obligations.EvaluationWindows := by
  unfold Obligations.EvaluationWindows
  refine ⟨fun s w booted => ?_, fun s w => ⟨rfl, rfl⟩, fun s wf => ?_, fun t mean => ⟨rfl, rfl, fun h => ?_, fun h => ?_⟩⟩
  · have run : ∀ t, s.window w = t → exec (.evaluationWindow w) s = .next t := fun t eq => eq ▸ if_pos booted
    intro s2 s3
    refine ⟨fun over_ => run _ ?_, fun fits risen cool => run _ ?_, fun fits keep => run _ ?_⟩ <;> rw [State.window_eq]
    · rw [if_neg (Nat.not_le.2 over_)]
    · rw [if_pos fits, if_pos ⟨risen, cool⟩]
    · rw [if_pos fits, if_neg]
      rintro ⟨risen, cool⟩
      rcases keep with low | hot
      · exact Nat.not_lt.2 low risen
      · exact Bool.false_ne_true (cool.symm.trans hot)
  · rw [State.limit_takeLimit wf]
    have top := lowestTerm_le s.chipTerm_mem
    dsimp only at top
    refine ⟨by omega, by omega, fun e mem => ?_, ?_⟩
    · have := lowestTerm_le mem
      omega
    · by_cases low : (lowestTerm s.limitTerms).2 ≤ 500
      · exact .inl (by omega)
      · exact .inr ⟨_, lowestTerm_mem s.chipTerm_mem, by omega⟩
  · rw [stepTerm_low, if_neg (by omega)]
  · rw [stepTerm_low, if_pos h]

end Sys2Proof.Machine
end

section
/-! PROOFS. Rails, margins and temperatures (O36); IDLE, DOZE and the shifting of power (O37). -/

namespace Sys2Proof.Machine

open Sys2Proof

/-! ### Temperatures and margins -/

/-- The state in which the sensors have been read (R347). -/
def State.showTj (s : State) (tj : List Nat) : State :=
  (List.range 48).foldl (fun s c => s.rput (.core c) 0x20 0 10 (tj.getD c 0))
    ((s.rput (.pwr 0) 0x30 0 10 (tj.foldl max 0)).rput (.pwr 0) 0x30 10 7 (tj.findIdx (· == tj.foldl max 0)))

theorem State.regsOnly_showTj (s : State) (tj : List Nat) : s.RegsOnly (s.showTj tj) :=
  .foldl _ (fun _ _ h => h.rput ..) (((State.RegsOnly.refl s).rput ..).rput ..)

theorem State.pwr_showTj (s : State) (tj : List Nat) : (s.showTj tj).pwr = s.pwr := by rw [s.regsOnly_showTj tj]

/-- Every grant goes to the lowest class (R347). -/
def State.throttle (s : State) : State := ({ s with pwr := { s.pwr with hot := true } } : State).allToA0.noteReasons

theorem State.sampleTj_eq (s : State) (tj : List Nat) : s.sampleTj tj =
    if 460 ≤ tj.foldl max 0 then (s.showTj tj).trip
    else if 420 ≤ tj.foldl max 0 then
      (if (s.showTj tj).pwr.hot then s.showTj tj
        else (s.showTj tj).raise St.islAon ((s.showTj tj).newRec St.clsThermal 0 unitPwr 0 0)).throttle
    else if tj.foldl max 0 < 400 ∧ (s.showTj tj).pwr.hot then
      (State.restore 200 { s.showTj tj with pwr := { (s.showTj tj).pwr with hot := false } }).noteReasons
    else s.showTj tj := rfl

/-- The margins of the cores in service and the core of the lowest are shown (R354). -/
def State.showMargins (s : State) (m : Nat → Int) (cs : List Nat) (worst : Nat) : State :=
  (cs.foldl (fun s c => s.rput (.core c) 0x24 0 8 (m c % 256).toNat) s).rput (.pwr 0) 0x2C 8 6 worst

/-- The core of the lowest margin, the first of equals. -/
def worstMargin (m : Nat → Int) (a : Nat) (rest : List Nat) : Nat := rest.foldl (fun b c => if m c < m b then c else b) a

theorem worstMargin_mem (m : Nat → Int) (a : Nat) (rest : List Nat) : worstMargin m a rest ∈ a :: rest := (foldl_pick m rest a).1

theorem State.marginTrim_of_live {s : State} {a : Nat} {rest : List Nat} (h : s.liveCores = a :: rest) (ms : List Int) :
    let m := fun (c : Nat) => ms.getD c 0
    let s2 := s.showMargins m (a :: rest) (worstMargin m a rest)
    let t := s2.rfield (.pwr 0) 0x2C 0 8
    s.marginTrim ms =
      if m (worstMargin m a rest) < 0 then
        if t = 0 then ((a :: rest).filter fun c => m c < 0).foldl (fun s c => s.fenceUnit c 3) s2
        else (s2.rput (.pwr 0) 0x2C 0 8 (t - 5)).setRail (s2.pwr.target.getD s2.point)
      else if (∀ c ∈ a :: rest, 2 ≤ m c) ∧ t < 100 then (s2.rput (.pwr 0) 0x2C 0 8 (t + 5)).setRail (s2.pwr.target.getD s2.point)
      else s2 := by
  unfold State.marginTrim
  simp only [h, List.all_eq_true, decide_eq_true_eq]
  rfl

/-- What the trip leaves: THERMTRIP_N driven, nothing booted, no context, and every port DOWN. -/
theorem State.trip_facts (s : State) :
    s.trip.brd.thermtrip = true ∧ s.trip.brd.booted = false ∧ (∀ k, s.trip.ctx k = none) ∧ ∀ p : Fin 8, s.trip.links.ports[p].st = .down := by
  refine ⟨rfl, rfl, fun k => ?_, fun p => ?_⟩
  · exact Vector.getElem_replicate _
  · exact congrArg Port.st (Vector.getElem_replicate (a := Port.empty) p.isLt)

/-- Settles O36: the thresholds exclude each other, and the margins decide by the lowest of them. -/
theorem railsMarginsAndTemperatures : Obligations.RailsMarginsAndTemperatures := by
  unfold Obligations.RailsMarginsAndTemperatures
  refine ⟨fun s => ⟨fun p target => ?_, fun tj booted => ?_, s.trip_facts, fun c => ⟨fun here => ?_, fun n long stretches => ?_⟩,
    fun u m e bad idle due => ?_⟩, fun s ms a rest booted awake live => ?_⟩
  · change execRailSettled s = _
    unfold execRailSettled
    simp only [target]
  · intro top s1 s2
    have run : ∀ t, s.sampleTj tj = t → exec (.tjSample tj) s = .next t := fun t eq => eq ▸ if_pos booted
    have same : s2.pwr = s.pwr := s.pwr_showTj tj
    refine ⟨fun low cool => run _ ?_, fun warm low => run _ ?_, fun high low hot => run _ ?_, fun high low cool => run _ ?_,
      fun low hot => run _ ?_, fun high => run _ ?_, same⟩ <;> refine (s.sampleTj_eq tj).trans ?_
    · refine (if_neg (by omega)).trans ((if_neg (by omega)).trans (if_neg ?_))
      rintro ⟨-, hot⟩
      exact Bool.false_ne_true ((cool.symm.trans (congrArg Power.hot same).symm).trans hot)
    · exact (if_neg (by omega)).trans ((if_neg (by omega)).trans (if_neg fun h => Nat.not_lt.2 warm h.1))
    · exact (if_neg (by omega)).trans ((if_pos high).trans (congrArg State.throttle (if_pos hot)))
    · exact (if_neg (by omega)).trans ((if_pos high).trans (congrArg State.throttle (if_neg (Bool.eq_false_iff.1 cool))))
    · exact (if_neg (by omega)).trans ((if_neg (by omega)).trans (if_pos ⟨low, hot⟩))
    · exact if_pos high
  · change execDroop c s = _
    unfold execDroop
    exact if_neg (Bool.eq_false_iff.1 here)
  · change execDroopRecovery c n s = _
    unfold execDroopRecovery
    refine if_neg ?_
    rw [stretches, decide_eq_false (by omega)]
    decide
  · change execRecalibration u m e s = _
    unfold execRecalibration
    refine if_pos ?_
    rw [bad, idle, decide_eq_true due]
    decide
  · intro m worst s1 s2 t p
    have run : ∀ u, s.marginTrim ms = u → exec (.marginTrim ms) s = .next u.settle := fun u eq => by
      subst eq
      change execMarginTrim ms s = _
      unfold execMarginTrim
      refine if_pos ?_
      rw [booted, awake]
      rfl
    refine ⟨fun bad room => run _ ?_, fun bad none_ => run _ ?_, fun good room => run _ ?_, fun ok keep => run _ ?_⟩ <;>
      refine (State.marginTrim_of_live live ms).trans ?_
    · exact (if_pos bad).trans (if_neg room)
    · exact (if_pos bad).trans (if_pos none_)
    · have := good _ (worstMargin_mem m a rest)
      refine (if_neg (show ¬m (worstMargin m a rest) < 0 by omega)).trans (if_pos ⟨good, room⟩)
    · refine (if_neg (show ¬m (worstMargin m a rest) < 0 from not_lt.2 ok)).trans (if_neg ?_)
      rintro ⟨all, room⟩
      rcases keep with full | ⟨c, mem, short⟩
      · exact Nat.not_lt.2 full room
      · exact not_lt.2 (all c mem) short

/-! ### IDLE, DOZE and shifting -/

theorem State.activeSlot_of_noCtx {s : State} (h : ∀ k < 4, s.ctx k = none) : s.activeSlot = none := by
  unfold State.activeSlot
  refine List.find?_eq_none.2 fun k mem => ?_
  rw [h k (List.mem_range.1 mem)]
  decide

theorem sget_filter_of_dropped {β : Type} (d : β) (p : Nat → Bool) {k : Nat} (h : p k = false) (l : List (Nat × β)) :
    sget d (l.filter fun e => p e.1) k = d := by
  induction l with
  | nil => rfl
  | cons e l ih =>
    rw [List.filter_cons]
    split
    next kept =>
      have ne : e.1 ≠ k := fun eq => Bool.false_ne_true (h.symm.trans (eq ▸ kept))
      exact (if_neg ne).trans ih
    · exact ih

/-- Operand buffers and accumulators lie between the end of the KV space and that of the cores' memory (R148). -/
theorem coreMemory_of_regionOf {b c : Nat} (h : regionOf b = .opBuf c ∨ regionOf b = .accum c) : 0x8000000000 ≤ b ∧ b < 0x8030000000 := by
  unfold regionOf sramBase kvTableBase regBase regEnd at h
  split_ifs at h <;> simp only [or_self] at h
  omega

theorem Mem.byte_noBuffers (m : Mem) {b c : Nat} (h : regionOf b = .opBuf c ∨ regionOf b = .accum c) : m.noBuffers.byte b = 0 := by
  obtain ⟨low, high⟩ := coreMemory_of_regionOf h
  refine sget_filter_of_dropped 0#8 (fun a => decide (a < 0x8000000000) || decide (0x8030000000 ≤ a)) ?_ m.cells
  simp only [Bool.or_eq_false_iff, decide_eq_false_iff_not]
  omega

theorem State.dozeHere_of_free {s : State} (awake : s.dozing = false) (free : ∀ k < 4, s.ctx k = none) :
    let s1 := (((List.range 8).foldl (fun s p => s.wantColt p) s).rput (.pwr 0) 4 1 2 2).rput (.eth 0) 4 1 2 0
    s.dozeHere = { s1 with cores := s1.cores.map CoreState.gated, mem := s1.mem.noBuffers } := by
  have none_ : (List.range 4).any (fun k => (s.ctx k).isSome) = false := List.any_eq_false.2 fun k mem => by
    rw [free k (List.mem_range.1 mem)]
    decide
  unfold State.dozeHere
  rw [awake, none_]
  rfl

theorem State.shiftPeriod_of_formed {s : State} (formed : s.grp.formed = true) (alive : s.grp.headLost = false) : s.shiftPeriod =
    if s.isHead then ({ s with pwr := { s.pwr with slack := 0 } } : State).takeReport s.devIndex s.pwr.slack (s.rfield (.pwr 0) 0x10 16 11)
    else ({ s with pwr := { s.pwr with slack := 0 } } : State).toHead 0x10
      (words64 s.pwr.slack ++ [BitVec.ofNat 32 (s.rfield (.pwr 0) 0x10 16 11)]) := by
  unfold State.shiftPeriod
  rw [formed, alive]
  rfl

/-- Settles O37: what each event needs is a condition of its definition; the buffers that DOZE drops lie in the cores' memory. -/
theorem idleDozeAndShift : Obligations.IdleDozeAndShift := by
  unfold Obligations.IdleDozeAndShift
  refine ⟨fun s => ⟨fun booted running free due => ?_, ?_, fun awake free => ?_, fun formed alive => ?_⟩, fun s m t => ?_⟩
  · change execIdleEntry s = _
    unfold execIdleEntry
    refine if_pos ?_
    rw [booted, running, State.activeSlot_of_noCtx free, decide_eq_true due]
    decide
  · intro w head formed on free awake due
    change execDozeDelay s = _
    unfold execDozeDelay
    refine if_pos ?_
    rw [head, formed, free, awake, decide_eq_true due, show bitOf (s.rforce (.pwr 0) 8).toNat 3 = true from on]
    decide
  · have eq := State.dozeHere_of_free awake free
    exact ⟨eq, fun c b region => by rw [eq]; exact Mem.byte_noBuffers _ region⟩
  · have eq := State.shiftPeriod_of_formed formed alive
    refine ⟨fun head => ?_, fun member => ?_⟩ <;> refine congrArg Host.Outcome.next (eq.trans ?_)
    · exact if_pos head
    · exact (if_neg (Bool.eq_false_iff.1 member)).trans (if_neg (Bool.eq_false_iff.1 member))
  · have acts : ∀ {sub : Nat} {here : State → State} {t' : State}, s.syncActs m sub = some t → here t = t' →
        s.syncIn m sub here = .next (State.syncOver t' m) := fun h eq => eq ▸ State.syncIn_of_syncActs h _
    refine ⟨fun h head formed => acts h (if_pos ?_), fun h follows => acts h (if_pos follows), fun h follows => acts h (if_pos follows), fun h => acts h rfl⟩
    rw [head, formed]
    rfl

end Sys2Proof.Machine
end

section
/-! PROOFS. Error queues are drained into the log; patrol steps; refresh rates (O38). -/

namespace Sys2Proof.Machine

open Sys2Proof

/-! ### Storing a record -/

/-- Registers that come into force change the values in force. -/
theorem State.takeForce_eq (s : State) (p : Page) (sel : RegDef → Word) : s.takeForce p sel = { s with force := (s.takeForce p sel).force } := by
  unfold State.takeForce
  refine foldl_keeps (P := fun t : State => t = { s with force := t.force }) (fun t r h => ?_) _ rfl
  refine foldl_keeps (P := fun t : State => t = { s with force := t.force }) (fun t i h => ?_) _ h
  dsimp only
  split
  · exact h
  · rw [h]
    rfl

theorem State.takeRws_eq (s : State) (p : Page) : s.takeRws p = { s with force := (s.takeRws p).force } := s.takeForce_eq p _

theorem State.takeRw_eq (s : State) (p : Page) : s.takeRw p = { s with force := (s.takeRw p).force } := s.takeForce_eq p _

/-- A notice of a record counts itself, and leaves the log and the next number. -/
theorem State.errorNotice_log (s : State) (r : ErrRec) :
    (s.errorNotice r).err.log = s.err.log ∧ (s.errorNotice r).err.nextSeq = s.err.nextSeq := by
  unfold State.errorNotice
  refine iteInduction (motive := fun t : State => t.err.log = s.err.log ∧ t.err.nextSeq = s.err.nextSeq) (fun _ => ⟨rfl, rfl⟩) fun _ => ?_
  rw [State.notices_eq]
  exact ⟨rfl, rfl⟩

theorem State.storeRec_of_room {s : State} {isl : Nat} {r : ErrRec} {l : List LogSlot} (room : logRoom s.err.log r.cls = some l) :
    ∃ a e, (s.storeRec isl r).err.log = l ++ [⟨{ r with rseq := s.err.nextSeq, action := a, escal := e }, false⟩] ∧
      (s.storeRec isl r).err.nextSeq = (s.err.nextSeq + 1) % 2 ^ 48 := by
  have err : (s.takeRws .err).err = s.err := by rw [s.takeRws_eq .err]
  refine ⟨(s.takeRws .err).actionOf r, (((s.takeRws .err).cmd r.gseq).map (·.escal)).getD 0 % 256, ?_⟩
  unfold State.storeRec
  simp only [err, room]
  exact State.errorNotice_log _ _

/-! ### Room in the log -/

theorem logRoom_of_short {l : List LogSlot} (h : l.length < 1024) (cls : Nat) : logRoom l cls = some l := if_pos h

theorem logRoom_of_acked {l : List LogSlot} (full : 1024 ≤ l.length) (h : ∃ e ∈ l, e.acked = true) (cls : Nat) :
    logRoom l cls = some (l.eraseP (·.acked)) := (if_neg (by omega)).trans (if_pos (List.any_eq_true.2 h))

theorem logRoom_of_unacked {l : List LogSlot} (full : 1024 ≤ l.length) (h : ∀ e ∈ l, e.acked = false) (cls : Nat) :
    logRoom l cls = if cls ≠ St.clsCe ∧ ∃ e ∈ l, e.recd.cls = St.clsCe then some (l.eraseP (·.recd.cls == St.clsCe)) else none := by
  have none_ : l.any (·.acked) = false := List.any_eq_false.2 fun e mem => Bool.eq_false_iff.1 (h e mem)
  unfold logRoom
  simp only [show ¬l.length < 1024 by omega, none_, List.any_eq_true, beq_iff_eq, Bool.false_eq_true, if_false]

/-! ### Draining -/

theorem State.drainErr_of_entry {s : State} {isl : Nat} {r : ErrRec} {rest : List ErrRec} (h : (s.errQueue isl).entries = r :: rest) :
    let s1 := s.setErrQueue isl { s.errQueue isl with entries := rest }
    s.drainErr isl = State.fenceGo
      (((if s.grp.formed = true ∧ s.grp.headLost = false ∧ s.grp.left = false then s.accused r else none).elim (s1.storeRec isl r)
        fun a => if s.isHead then s1.mergeAccusation r a else (s1.toHead 0xB r.words).count48 .err 0x58 1)) := by
  unfold State.drainErr
  simp only [h, Bool.and_eq_true, Bool.not_eq_true', and_assoc]
  split
  next eq => rw [eq]; rfl
  next eq => rw [eq]; rfl

/-! ### Patrol steps and refresh rates -/

theorem State.patrol_one {s : State} {a : Nat} {p : Page} (aligned : a % 4 = 0) (page : scrubPage a = some p)
    (on : bitOf ((s.takeRw p).rforce p 8).toNat 0 = true) (good : s.mem.kind a ≠ .bad) :
    s.patrol a 1 = (s.takeRw p).noteWord (unitOfAddr a) (islandOfAddr a) a 1 := by
  have here : a / 4 * 4 + 4 * 0 = a := by omega
  have mem : (s.takeRw p).mem = s.mem := by rw [s.takeRw_eq p]
  unfold State.patrol
  simp only [page, List.range_one, List.foldl_cons, List.foldl_nil, here, on, mem, Bool.not_true, Bool.false_eq_true, if_false]

theorem State.rates_refreshRate (s : State) (package rate : Nat) :
    (s.refreshRate package rate).brd.rates = s.brd.rates.filter (·.1 != package) ++ [(package, rate)] := by
  unfold State.refreshRate
  dsimp only
  exact foldl_keeps (P := fun t : State => t.brd.rates = s.brd.rates.filter (·.1 != package) ++ [(package, rate)]) (fun t g h => h) (List.range 8) rfl

/-- Settles O38: an entry goes to the head or into the log as its accusation says; the log has room by its length and by what it holds. -/
theorem errorsAreDrained : Obligations.ErrorsAreDrained := by
  unfold Obligations.ErrorsAreDrained
  refine ⟨fun s i empty => ?_, fun s i r rest queue => ?_, fun s i r l room => State.storeRec_of_room room, fun l cls => ?_, fun s a n booted awake => ?_,
    fun s a p => State.patrol_one, fun s pk r => ⟨rfl, s.rates_refreshRate pk r⟩⟩
  · refine congrArg settled ?_
    unfold State.drainErr
    simp only [empty]
  · have run : ∀ t, s.drainErr i = t → exec (.errorDrain i) s = .next t.settle := fun t eq => congrArg settled eq
    have drain := State.drainErr_of_entry queue
    intro s1 told
    refine ⟨fun own => run _ ?_, fun a accuses tells head => run _ ?_, fun a accuses tells member => run _ ?_⟩ <;>
      refine drain.trans (congrArg State.fenceGo ?_)
    · rcases own with none_ | alone
      · rw [none_, ite_self]
        rfl
      · rw [if_neg alone]
        rfl
    · rw [if_pos tells, accuses]
      exact if_pos head
    · rw [if_pos tells, accuses]
      exact if_neg (Bool.eq_false_iff.1 member)
  · refine ⟨fun short => logRoom_of_short short cls, fun full acked => logRoom_of_acked full acked cls, fun full unacked ce other => ?_,
      fun full unacked none_ => ?_⟩
    · rw [logRoom_of_unacked full unacked, if_pos ⟨other, ce⟩]
    · rw [logRoom_of_unacked full unacked, if_neg]
      rintro ⟨other, e, mem, ce⟩
      rcases none_ with same | none_
      · exact other same
      · exact none_ e mem ce
  · change execPatrolScrub a n s = _
    unfold execPatrolScrub
    rw [booted, awake]
    rfl

end Sys2Proof.Machine
end

section
/-! PROOFS. Flits arrive in sequence (O45); what the flits of peers (O46) and of collectives (O47) do. -/

namespace Sys2Proof.Machine

open Sys2Proof

/-! ### Reception -/

theorem State.flitIn_of_linkTaken {s t : State} {p : Nat} {tr : Trailer} (h : s.linkTaken p tr 1 = some t) (f : Flit) :
    s.flitIn p f tr = .next ((t.route p (p / 2) f).answer p f.vc 1).settle := congrArg settled (State.deliver_of_linkTaken h f.vc _)

/-- Every command that brings a sequenced flit hands it to its port with its type. -/
theorem exec_flitCommands : ∀ e ∈ flitCommands, ∀ (p : Fin 8) (f : Flit) (tr : Trailer) (s : State),
    exec (e.2 p f tr) s = s.flitIn p { f with ftype := e.1 } tr := by
  simp only [flitCommands, List.forall_mem_cons, List.not_mem_nil, false_implies, implies_true, and_true]
  exact ⟨fun _ _ _ _ => rfl, fun _ _ _ _ => rfl, fun _ _ _ _ => rfl, fun _ _ _ _ => rfl, fun _ _ _ _ => rfl, fun _ _ _ _ => rfl,
    fun _ _ _ _ => rfl⟩

theorem flitCommands_ne_sync : ∀ e ∈ flitCommands, e.1 ≠ 7 := by simp [flitCommands]

theorem State.route_of_unpaired {f : Flit} (h : f.paired = false) (s : State) (p from_ : Nat) : s.route p from_ f = s.invalidFlit p f := by
  unfold State.route
  rw [h]
  rfl

theorem State.route_of_away {s : State} {f : Flit} (paired : f.paired = true) (away : f.dst ≠ s.devIndex) (type : f.ftype ≠ 7) (p from_ : Nat) :
    s.route p from_ f = s.sendFlit (some from_) (p % 2 == 1) f := by
  unfold State.route
  rw [paired]
  exact (if_pos away).trans (if_neg type)

/-- What a flit does that is for this device, by its type (R239). -/
def State.actHere (s : State) (f : Flit) : State :=
  match f.ftype with
  | 1 => if f.vc = 1 ∧ s.tagStopped f.aux then s else s.takeWrite f
  | 2 => s.takeRead f
  | 3 => s.takeRdata f
  | 4 => s.takeAck f
  | 5 => s.takeMule f
  | 6 => s.takeReduce f
  | 8 => s.takePieceEnd f
  | _ => s

theorem State.route_of_here {s : State} {f : Flit} (paired : f.paired = true) (here : f.dst = s.devIndex) (p from_ : Nat) :
    s.route p from_ f = s.actHere f := by
  unfold State.route
  rw [paired]
  exact if_neg (not_not_intro here)

/-! ### The link layer -/

theorem State.discardRaw_of_uncorrectable {s : State} {p : Nat} {raw : List Byte} (up : (s.port p).up = true) (bad : flitCorrect raw = none) :
    s.discardRaw p raw = s.discard p := by
  unfold State.discardRaw
  simp only [up, bad, Bool.not_true, Bool.false_eq_true, if_false]

theorem State.replayAll_of_empty {s : State} {p : Nat} (h : (s.port p).replay = []) : s.replayAll p = s := by
  unfold State.replayAll
  simp only [h, List.isEmpty_nil, Bool.or_true, if_true]

theorem State.replayAll_of_some {s : State} {p : Nat} (up : (s.port p).up = true) (h : (s.port p).replay ≠ []) :
    let again := (s.port p).replay.map fun e => { e with times := e.times + 1 }
    let s1 := ((s.modPort p fun y => { y with replay := again }).count48 (.lnk p) 0x40 again.length).emits
      (again.map fun e => .flit p (some e.seq) e.flit)
    s.replayAll p = if ∃ e ∈ (s.port p).replay, 7 ≤ e.times then s1.retrain p else s1 := by
  unfold State.replayAll
  simp only [up, List.isEmpty_eq_false_iff.2 h, Bool.not_true, Bool.or_self, Bool.false_eq_true, if_false, List.any_eq_true, List.mem_map,
    exists_exists_and_eq_and, decide_eq_true_eq, Nat.succ_le_succ_iff]

/-- Settles O45: the delivery of a flit decides by the port, the sequence and the pairing; replay decides by how often a flit has been sent. -/
theorem flitsArriveInSequence : Obligations.FlitsArriveInSequence := by
  unfold Obligations.FlitsArriveInSequence
  refine ⟨⟨fun e mem s p f tr => ?_, fun s p f tr t unpaired type type' taken => ?_⟩, fun s p up => ⟨fun tr => if_pos up, fun raw bad => ?_,
    fun empty => congrArg Host.Outcome.next (State.replayAll_of_empty empty), fun some_ => ?_, fun n => if_pos up⟩⟩
  · rw [exec_flitCommands e mem]
    intro g
    refine ⟨fun down => congrArg settled (State.deliver_of_down down ..), fun up skew => congrArg settled (State.deliver_of_skew up skew ..),
      fun t taken => ⟨fun unpaired => ?_, fun paired away => ?_⟩⟩ <;> rw [State.flitIn_of_linkTaken taken]
    · rw [State.route_of_unpaired unpaired]
    · rw [State.route_of_away paired away (flitCommands_ne_sync e mem)]
  · change execLinkFlitInvalid p f tr s = _
    unfold execLinkFlitInvalid
    rw [unpaired, beq_eq_false_iff_ne.2 type, beq_eq_false_iff_ne.2 type']
    exact congrArg Host.Outcome.next (State.deliver_of_linkTaken taken _ _)
  · have run : exec (.flitDiscard p raw) s = .next (s.discard p) := congrArg Host.Outcome.next (State.discardRaw_of_uncorrectable up bad)
    refine ⟨fun open_ => run.trans (congrArg Host.Outcome.next ?_), fun closed => run.trans (congrArg Host.Outcome.next ?_)⟩
    · exact if_pos open_
    · exact if_neg (Bool.eq_false_iff.1 closed)
  · have replay := State.replayAll_of_some up some_
    intro again s1
    refine ⟨fun few => congrArg Host.Outcome.next (replay.trans (if_neg ?_)), fun many => congrArg Host.Outcome.next (replay.trans (if_pos many))⟩
    rintro ⟨e, mem, times⟩
    exact Nat.not_lt.2 times (few e mem)

/-! ### Accesses by peers, and replies -/

/-- Data flits pair with the data channels (R239). -/
theorem Flit.paired_of_data {f : Flit} (vc : f.vc = 2 ∨ f.vc = 3) {type : Nat} (h : 1 ≤ type ∧ type ≤ 4) : ({ f with ftype := type } : Flit).paired = true := by
  obtain ⟨low, high⟩ := h
  unfold Flit.paired
  rcases vc with vc | vc <;> interval_cases type <;> simp [vc]

/-- A flit of a type that is delivered for this device does what its type says. -/
theorem State.flitIn_of_here {s t : State} {p : Nat} {tr : Trailer} {f : Flit} {type : Nat} (taken : s.linkTaken p tr 1 = some t)
    (here : f.dst = t.devIndex) (paired : ({ f with ftype := type } : Flit).paired = true) {u : State} (acts : t.actHere { f with ftype := type } = u) :
    s.flitIn p { f with ftype := type } tr = .next (u.answer p f.vc 1).settle := by
  rw [State.flitIn_of_linkTaken taken, State.route_of_here paired here, acts]

theorem State.takeWrite_of_refused {s : State} {f : Flit} {st : Nat} (h : s.refusalRange true f.addr (4 * f.words.length) = some st) :
    s.takeWrite f = if f.vc ≠ 1 ∧ f.last = true then (s.refusedHere st f.addr).sendFlit none false ((s.refusedHere st f.addr).ackOf f st)
      else s.refusedHere st f.addr := by
  unfold State.takeWrite
  simp only [h, Bool.and_eq_true, decide_eq_true_eq]

theorem State.takeWrite_of_allowed {s : State} {f : Flit} (h : s.refusalRange true f.addr (4 * f.words.length) = none) :
    let s1 := (s.putWords f.addr f.words).noteWrote (if f.vc = 1 then field f.aux 0 2 else s.activeSlot.getD 4) f.addr (4 * f.words.length)
    s.takeWrite f = if f.vc ≠ 1 ∧ f.last = true then s1.sendFlit none false (s1.ackOf f St.ok) else s1 := by
  unfold State.takeWrite
  simp only [h, Bool.and_eq_true, decide_eq_true_eq]

theorem State.takeRead_of_refused {s : State} {f : Flit} {st : Nat}
    (h : s.refusalRange false f.addr (4 * min (f.aux % 1024 + 1) 512) = some st) :
    s.takeRead f = (s.refusedHere st f.addr).sendFlit none false ((s.refusedHere st f.addr).ackOf f st) := by
  unfold State.takeRead
  simp only [h]

theorem State.takeRead_of_allowed {s : State} {f : Flit} (h : s.refusalRange false f.addr (4 * min (f.aux % 1024 + 1) 512) = none) :
    let n := min (f.aux % 1024 + 1) 512
    let to_ := (f.words.getD 0 ⟨0, false⟩).bits.toNat + 2 ^ 32 * (f.words.getD 1 ⟨0, false⟩).bits.toNat
    s.takeRead f = (s.noteWords (unitOfAddr f.addr) (islandOfAddr f.addr) f.addr n).sendFlits (bitOf f.addr 11)
      (wordFlits 3 f.vc f.src s.devIndex f.tid 0 (n + 1) to_ (s.peekWords f.addr n)) := by
  unfold State.takeRead
  simp only [h]

theorem State.takeMule_of_refused {s : State} {f : Flit} {st : Nat} (h : s.refusalRange true f.addr 4 = some st) :
    s.takeMule f = (s.refusedHere st f.addr).sendFlit none false ((s.refusedHere st f.addr).ackOf f st) := by
  unfold State.takeMule
  simp only [h]

theorem State.takeMule_of_allowed {s : State} {f : Flit} (h : s.refusalRange true f.addr 4 = none) :
    let s1 := (s.applyWord (bitOf f.aux 0) f.addr (f.words.headD ⟨0, false⟩)).noteWrote (s.activeSlot.getD 4) f.addr 4
    s.takeMule f = s1.sendFlit none false (s1.ackOf f St.ok) := by
  unfold State.takeMule
  simp only [h]

theorem State.takeRdata_of_core {s : State} {f : Flit} (h : f.tid / 256 < 48) : s.takeRdata f = s.coreData (f.tid / 256) (f.tid % 256) f := if_pos h

theorem State.takeRdata_of_gander {s : State} {f : Flit} (ge : 48 ≤ f.tid / 256) (lt : f.tid / 256 < 52) : s.takeRdata f = s.putWords f.addr f.words :=
  (if_neg (by omega)).trans (if_pos lt)

/-- Words for a stream whose destination is here are stored where they say. -/
theorem State.coreData_of_stream {s : State} {c tag k : Nat} {f : Flit} {st : StreamCtx} {g : Segment} (vc : f.vc = 2)
    (stream : (s.core c).tagged tag = some (k, st)) (seg : st.segs.find? (·.tag == tag) = some g) (here : g.dstDev = s.devIndex) :
    s.coreData c tag f = ((s.modStream c k fun y => { y with segs := y.segs.map fun h =>
      if h.tag = tag then { h with got := h.got + f.words.length } else h }).putWords f.addr f.words).taintTile c st.unit
        (badAt (g.srcAddr + 4 * g.got) f.words) := by
  unfold State.coreData
  simp only [if_pos vc, stream, seg, if_pos here]

/-- Words for a Mule transfer's COPY are held, and the transfers to its destination go on. -/
theorem State.coreData_of_mule {s : State} {c tag : Nat} {f : Flit} {m : MuleSlot} (vc : f.vc = 3) (mule : (s.core c).mule tag = some m) :
    let s1 := s.modCore c fun x => { x with mules := x.mules.map fun e =>
      if e.1 = tag then (tag, { e.2 with words := e.2.words ++ f.words, need := e.2.need - f.words.length }) else e }
    let s2 := s1.taintTile c m.unit (badAt (m.srcAddr + 4 * m.words.length) f.words)
    s.coreData c tag f = State.sendMules c m.dstDev (s2.core c).mules s2 := by
  unfold State.coreData
  simp only [vc, mule, Nat.reduceEqDiff, if_false]

theorem State.takeAck_of_stream {s : State} {f : Flit} {k : Nat} {st : StreamCtx} (core : f.tid / 256 < 48) (vc : f.vc = 2)
    (stream : (s.core (f.tid / 256)).tagged (f.tid % 256) = some (k, st)) :
    s.takeAck f = s.ackSegment (f.tid / 256) k (f.tid % 256) (f.aux % 65536) := by
  unfold State.takeAck
  simp only [if_neg (Nat.not_le.2 core), if_pos vc, stream]

theorem State.takeAck_of_mule {s : State} {f : Flit} (core : f.tid / 256 < 48) (vc : f.vc = 3) :
    s.takeAck f = s.endMule (f.tid / 256) (f.tid % 256) (f.aux % 65536) := by
  unfold State.takeAck
  simp only [if_neg (Nat.not_le.2 core), vc, Nat.reduceEqDiff, if_false, if_true]

theorem State.takeAck_of_gander {s : State} {f : Flit} (h : 48 ≤ f.tid / 256) : s.takeAck f = s := if_pos h

/-- Settles O46: a flit for this device does what its type says, and the address decides whether it is refused. -/
theorem peerAccessesAndReplies : Obligations.PeerAccessesAndReplies := by
  unfold Obligations.PeerAccessesAndReplies
  have data : ∀ {f : Flit} {s t : State} {p : Fin 8} {tr : Trailer} {type : Nat} {u : State}, s.linkTaken p tr 1 = some t → f.dst = t.devIndex →
      (f.vc = 2 ∨ f.vc = 3) → 1 ≤ type ∧ type ≤ 4 → t.actHere { f with ftype := type } = u →
      s.flitIn p { f with ftype := type } tr = .next (u.answer p f.vc 1).settle :=
    fun taken here vc type acts => State.flitIn_of_here taken here (Flit.paired_of_data vc type) acts
  have off : ∀ {f : Flit}, f.vc = 2 ∨ f.vc = 3 → f.vc ≠ 1 := fun vc => by omega
  refine ⟨fun s p f tr t taken here => ⟨fun allowed => ?_, fun st refused vc last => ?_, fun vc => ⟨fun allowed => ?_, fun st refused => ?_⟩,
    fun vc => ?_⟩, fun s p f tr t taken here vc => ⟨fun ge lt => ?_, fun k st g core vc stream seg local_ => ?_, fun m core vc mule => ?_,
    fun k st core vc stream => ?_, fun core vc => ?_, fun gander => ?_⟩⟩
  · have put := State.takeWrite_of_allowed (f := { f with ftype := 1 }) allowed
    have piece : ∀ {u : State}, f.vc = 1 → t.actHere { f with ftype := 1 } = u → exec (.write p f tr) s = .next (u.answer p f.vc 1).settle :=
      fun vc eq => State.flitIn_of_here taken here (by simp [Flit.paired, vc]) eq
    refine ⟨fun vc live => piece vc ?_, fun vc stopped => piece vc (if_pos ⟨vc, stopped⟩), fun vc open_ => data taken here vc (by decide) ?_,
      fun vc last => data taken here vc (by decide) ?_⟩
    · refine (if_neg fun h => Bool.false_ne_true (live.symm.trans h.2)).trans (put.trans ((if_neg fun h => h.1 vc).trans ?_))
      dsimp only
      rw [if_pos vc]
    · refine (if_neg fun h => off vc h.1).trans (put.trans ((if_neg fun h => Bool.false_ne_true (open_.symm.trans h.2)).trans ?_))
      dsimp only
      rw [if_neg (off vc)]
    · refine (if_neg fun h => off vc h.1).trans (put.trans ((if_pos ⟨off vc, last⟩).trans ?_))
      dsimp only
      rw [if_neg (off vc)]
  · exact data taken here vc (by decide) ((if_neg fun h => off vc h.1).trans
      ((State.takeWrite_of_refused (f := { f with ftype := 1 }) refused).trans (if_pos ⟨off vc, last⟩)))
  · exact data taken here vc (by decide) (State.takeRead_of_allowed (f := { f with ftype := 2 }) allowed)
  · exact data taken here vc (by decide) (State.takeRead_of_refused (f := { f with ftype := 2 }) refused)
  · have mule : ∀ {u : State}, t.takeMule { f with ftype := 5 } = u → exec (.mule p f tr) s = .next (u.answer p f.vc 1).settle :=
      fun eq => State.flitIn_of_here taken here (by simp [Flit.paired, vc]) eq
    exact ⟨fun allowed => mule (State.takeMule_of_allowed (f := { f with ftype := 5 }) allowed),
      fun st refused => mule (State.takeMule_of_refused (f := { f with ftype := 5 }) refused)⟩
  · exact data taken here vc (by decide) (State.takeRdata_of_gander (f := { f with ftype := 3 }) ge lt)
  · exact data taken here (.inl vc) (by decide) ((State.takeRdata_of_core (f := { f with ftype := 3 }) core).trans
      (State.coreData_of_stream (f := { f with ftype := 3 }) vc stream seg local_))
  · exact data taken here (.inr vc) (by decide) ((State.takeRdata_of_core (f := { f with ftype := 3 }) core).trans
      (State.coreData_of_mule (f := { f with ftype := 3 }) vc mule))
  · exact data taken here (.inl vc) (by decide) (State.takeAck_of_stream (f := { f with ftype := 4 }) core vc stream)
  · exact data taken here (.inr vc) (by decide) (State.takeAck_of_mule (f := { f with ftype := 4 }) core vc)
  · exact data taken here vc (by decide) (State.takeAck_of_gander (f := { f with ftype := 4 }) gander)

/-! ### Flits of collectives -/

theorem State.takeReduce_of_stopped {s : State} {f : Flit} (h : s.tagStopped f.aux = true) : s.takeReduce f = s := if_pos h

theorem State.takePieceEnd_of_stopped {s : State} {f : Flit} (h : s.tagStopped f.aux = true) : s.takePieceEnd f = s := if_pos h

/-- A slot with a flit's words added to those that it holds (R262). -/
def RedSlot.with (sl : RedSlot) (f : Flit) : RedSlot :=
  { sl with words := sl.words ++ ((List.range f.words.length).zip f.words).map fun e => (field f.addr 0 18 / 4 + e.1, e.2) }

theorem State.takeReduce_of_partial {s : State} {f : Flit} {b : Nat} {sl : RedSlot} (live : s.tagStopped f.aux = false)
    (slot : s.links.slots.find? (fun e => e.1 == tagPort f.aux * 32 + field f.addr 18 5 && e.2.tag == f.aux) = some (b, sl))
    (short : sl.own = none ∨ (sl.with f).words.length < (sl.with f).len) :
    s.takeReduce f = s.setSlot (tagPort f.aux * 32 + field f.addr 18 5) (sl.with f) := by
  unfold State.takeReduce
  rcases Option.eq_none_or_eq_some sl.own with own | ⟨own', own⟩
  · simp only [RedSlot.with, live, slot, own, Bool.false_eq_true, if_false]
  · have few := short.resolve_left (by simp [own])
    simp only [RedSlot.with] at few
    simp only [RedSlot.with, live, slot, own, few, Bool.false_eq_true, if_false, if_true]

/-- A whole segment whose own operand is held frees its slot, and the sums go on (R262, R263). -/
theorem State.takeReduce_of_whole {s : State} {f : Flit} {b : Nat} {sl : RedSlot} {own : List PWord} {x : Ctx} {r : ProgRun} {m : MrsRec}
    (live : s.tagStopped f.aux = false)
    (slot : s.links.slots.find? (fun e => e.1 == tagPort f.aux * 32 + field f.addr 18 5 && e.2.tag == f.aux) = some (b, sl))
    (held : sl.own = some own) (whole : (sl.with f).len ≤ (sl.with f).words.length)
    (ctx : s.ctx (field f.aux 0 2) = some x) (run : x.run = some r) (mrs : r.prog.mrsRec = some m) :
    let a := tagPort f.aux * 32 + field f.addr 18 5
    let s1 := (s.setSlot a (sl.with f)).clearSlot a
    s.takeReduce f = State.passOn (field f.aux 0 2) (s.tagGroup f.aux) (field f.aux 12 7) (field f.aux 19 13)
      ((dimList (sget 0 r.groupDims m.group)).filter fun e => decide (field f.aux 9 3 < e))
      ((own.zip ((List.range own.length).map fun i => sget ⟨0, false⟩ (sl.with f).words i)).map fun e => redAdd m.bf16 e.1 e.2)
      (if tagPort f.aux < 8 then s1.count48 (.lnk (tagPort f.aux)) 0x50 1 else s1) := by
  have full := Nat.not_lt.2 whole
  simp only [RedSlot.with] at full
  unfold State.takeReduce
  simp only [RedSlot.with, live, slot, held, full, ctx, run, mrs, Option.bind_some, Option.map_some, Bool.false_eq_true, if_false]

/-- An end that comes before the launch is kept for it (R265). -/
theorem State.takePieceEnd_of_early {s : State} {f : Flit} (live : s.tagStopped f.aux = false)
    (early : ((s.ctx (field f.aux 0 2)).bind (·.run)).bind (·.gather (s.tagGroup f.aux)) = none) :
    s.takePieceEnd f = { s with links := { s.links with earlyEnds := s.links.earlyEnds ++ [(f.aux, 0)] } } := by
  have none_ : (((s.ctx (field f.aux 0 2)).bind (·.run)).bind fun r => (r.gather (s.tagGroup f.aux)).map fun g => (r, g)) = none := by
    rcases run : (s.ctx (field f.aux 0 2)).bind (·.run) with _ | r
    · rfl
    · have absent : (some r).bind (·.gather (s.tagGroup f.aux)) = none := run ▸ early
      exact Option.map_eq_none_iff.2 absent
  unfold State.takePieceEnd
  simp only [live, none_, Bool.false_eq_true, if_false]

/-- An end of a piece that has been whole ends its port's share (R265). -/
theorem State.takePieceEnd_of_launched {s : State} {f : Flit} {x : Ctx} {r : ProgRun} {g : Gather} (live : s.tagStopped f.aux = false)
    (ctx : s.ctx (field f.aux 0 2) = some x) (run : x.run = some r) (gather : r.gather (s.tagGroup f.aux) = some g) (launched : g.launched = true)
    (whole : g.mask.testBit (field f.aux 12 7) = true) :
    s.takePieceEnd f = s.shareEnd (field f.aux 0 2) (s.tagGroup f.aux) (field f.aux 12 7) (field f.aux 9 3) := by
  unfold State.takePieceEnd
  simp only [live, ctx, run, gather, launched, whole, Option.bind_some, Option.map_some, Bool.not_true, Bool.and_false, Bool.false_eq_true, if_false]
  split <;> rfl

/-- Settles O47: the slot, the own operand and the launch decide what a flit of a collective does. -/
theorem collectiveFlits : Obligations.CollectiveFlits := by
  unfold Obligations.CollectiveFlits
  intro s p f tr t taken here vc over_ tag k mg a
  have reduce : ∀ {u : State}, t.takeReduce { f with ftype := 6 } = u → exec (.reduce p f tr) s = .next (over_ u) := fun eq =>
    (State.flitIn_of_here (type := 6) taken here (by simp [Flit.paired, vc]) eq).trans (by rw [vc])
  have ends : ∀ {u : State}, t.takePieceEnd { f with ftype := 8 } = u → exec (.pieceEnd p f tr) s = .next (over_ u) := fun eq =>
    (State.flitIn_of_here (type := 8) taken here (by simp [Flit.paired, vc]) eq).trans (by rw [vc])
  exact ⟨fun stopped => ⟨reduce (State.takeReduce_of_stopped stopped), ends (State.takePieceEnd_of_stopped stopped)⟩,
    fun live b sl slot => ⟨fun short => reduce (State.takeReduce_of_partial (f := { f with ftype := 6 }) live slot short),
      fun own x r m held whole ctx run mrs => reduce (State.takeReduce_of_whole (f := { f with ftype := 6 }) live slot held whole ctx run mrs)⟩,
    fun live early => ends (State.takePieceEnd_of_early (f := { f with ftype := 8 }) live early),
    fun live x r g ctx run gather launched whole =>
      ends (State.takePieceEnd_of_launched (f := { f with ftype := 8 }) live ctx run gather launched whole)⟩

end Sys2Proof.Machine
end

section
/-! PROOFS. Ports train, enter COLT and hand over, and edges go down (O48); datagrams of the Ethernet dimensions (O49). -/

namespace Sys2Proof.Machine

open Sys2Proof

/-! ### Training -/

theorem State.trained_of_full {s : State} {p : Nat} (identify : (s.port p).st = .identify) (peer : bitOf (s.rget (.lnk p) 0x14).toNat 16 = true)
    (whole : s.failedLanes p = 0) :
    let s1 := (s.rput (.lnk p) 0x18 8 6 0).modPort p fun y =>
      { y with credits := portCredits, window := 0, vc0Sent := 0, wasActive := false, tried := true }
    let s2 := ((s1.portTo p .active).rput (.lnk p) 4 9 1 0).rput (.lnk (otherPort p)) 4 9 1 0
    let s3 := ((s2.rput (.lnk p) 4 7 1 0).report (otherPort p) p).report p p
    s.trained p 63 = ((s3.gate p).moveQueues (otherPort p) p).drain p := by
  have lanes : ¬(lanesFor 0 = 0) := by decide
  unfold State.trained
  simp only [identify, peer, whole, ne_eq, not_true_eq_false, Bool.not_true, Bool.false_eq_true, or_self, if_false, Nat.reduceMod, Nat.reduceSub,
    Nat.zero_or, lanes, false_and, if_true]

theorem execTrain_of_named {s : State} {p : Fin 8} {n : Nat} (cs : List Word) (low : 1 ≤ n) (high : n ≤ 3) :
    let keep := s.modPort p fun x => { x with coefs := cs.take 6 }
    execTrain p n cs s = if (s.port p).st = .detect then .next ((keep.portTo p .equalize).emit (.link p 6 (2 :: cs.take 6)))
      else if (s.port p).st = .equalize ∧ 2 ≤ n then .next ((keep.portTo p .align).emit (.link p 6 (3 :: cs.take 6)))
      else if (s.port p).st = .align ∧ 3 ≤ n then .next (s.toIdentify p) else .next s := by
  unfold execTrain
  exact if_neg (by omega)

theorem execId_of_identify {s : State} {p : Fin 8} (h : (s.port p).st = .identify) (d : Fin 64) (q : Fin 8) (l : Fin 4) (w c : Bool) :
    let peer := fun (v : Nat) => s.rset (.lnk p) 0x14 (BitVec.ofNat 32 (put d 0 6 + put q 8 3 + put v 16 1))
    execId p d q l w c s = if d.val = s.devIndex ^^^ 2 ^ (p.val / 2) then
        (if s.failedLanes p ≠ 0 ∧ (!w) = true then .next ((peer 0).trainFailed p) else .next ((peer 1).rput (.lnk p) 4 8 1 0))
      else .next (((((peer 0).rput (.lnk p) 4 8 1 1).linkRec p St.linkNeighborMismatch p d 0).modPort p fun x =>
        { x with wasActive := false, tried := true }).portTo p .down) := by
  unfold execId
  exact if_neg (not_not_intro h)

/-- A port that does not train within TRAIN_TMO fails; one that does not train stays (R247). -/
theorem execTrainTmo_eq (s : State) (p : Fin 8) : execTrainTmo p s =
    if (s.port p).st ∈ [PortSt.detect, .equalize, .align, .identify] then .next (s.trainFailed p) else .next s := by
  unfold execTrainTmo
  cases (s.port p).st <;> rfl

/-! ### COLT -/

theorem State.port_modPort (s : State) (p j : Nat) (f : Port → Port) (hp : p < 8) (hj : j < 8) :
    (s.modPort p f).port j = if j = p then f (s.port p) else s.port j := s.port_setPort p j _ hp hj

theorem State.port_portTo (s : State) {p : Nat} (hp : p < 8) (st : PortSt) : ((s.portTo p st).port p).st = st :=
  congrArg Port.st ((s.port_modPort p p (fun x => { x with st := st }) hp hp).trans (if_pos rfl))

theorem vector_toList_getD {α : Type} {n : Nat} (v : Vector α n) {i : Nat} (h : i < n) (d : α) : v.toList.getD i d = v[i] := by
  rw [List.getD_eq_getElem _ _ (by simpa using h)]
  simp

/-- COLT is entered with an empty replay buffer and VC1, or not at all. -/
theorem State.tryColt_cases (s : State) (p : Fin 8) :
    s.tryColt p = s ∨ (s.port p).replay = [] ∧ (s.port p).queues[1] = [] ∧ ((s.tryColt p).port p).st = .colt := by
  unfold State.tryColt
  dsimp only
  split
  next ready =>
    simp only [Bool.and_eq_true, List.isEmpty_iff, vector_toList_getD _ (show 1 < 4 by decide)] at ready
    exact .inr ⟨ready.1.2, ready.2, State.port_portTo _ p.isLt _⟩
  · exact .inl rfl

/-! ### Edges -/

theorem State.edgeGone_of_up {s : State} {k : Nat} (hk : k < 4) (up : s.edgeUp k = true) :
    let s1 := (((s.emptied k).ror (.lnk (2 * k)) 4 0x200).ror (.lnk (2 * k + 1)) 4 0x200).linkRec (2 * k) St.linkEdgeDown k (s.devIndex ^^^ 2 ^ k) 0
    let s2 := (s.waitingOver k).foldl (fun s f => s.sendFlit none false f) s1
    s.edgeGone k = s2.unreachable.foldl (fun s d => s.cutOff d) s2 := by
  unfold State.edgeGone
  simp only [up, Bool.not_true, Bool.false_eq_true, if_false, if_pos hk]

/-- Settles O48: the state of a port decides what training, COLT and the handover do. -/
theorem portsTrainAndHandOver : Obligations.PortsTrainAndHandOver := by
  unfold Obligations.PortsTrainAndHandOver
  refine ⟨fun s p => ⟨fun down auto => if_pos ⟨down, auto⟩, fun n cs low high => ?_, fun d q l w c identify => ?_, fun identify peer whole => ?_,
    fun training => ?_, fun still => ?_, fun l active => ?_⟩, fun s p active => ?_, fun s p => s.tryColt_cases p, fun s p q n up => ?_, fun s k => ?_⟩
  · have train := execTrain_of_named (s := s) (p := p) cs low high
    refine ⟨fun detect => train.trans (if_pos detect), fun equalize two => train.trans ?_, fun align three => train.trans ?_⟩
    · exact (if_neg (by simp [equalize])).trans (if_pos ⟨equalize, two⟩)
    · exact (if_neg (by simp [align])).trans ((if_neg (by simp [align])).trans (if_pos ⟨align, three.ge⟩))
  · have id_ := execId_of_identify identify d q l w c
    refine ⟨fun right ok => id_.trans ((if_pos right).trans (if_neg ?_)), fun right bad narrow => id_.trans ((if_pos right).trans (if_pos ⟨bad, ?_⟩)),
      fun wrong => id_.trans (if_neg wrong)⟩
    · rintro ⟨bad, narrow⟩
      rcases ok with ok | ok
      · exact bad ok
      · simp [ok] at narrow
    · simp [narrow]
  · exact congrArg Host.Outcome.next (State.trained_of_full identify peer whole)
  · exact (execTrainTmo_eq s p).trans (if_pos training)
  · refine (execTrainTmo_eq s p).trans (if_neg fun training => ?_)
    simp only [List.mem_cons, List.not_mem_nil, or_false] at still training
    rcases still with h | h | h | h <;> simp [h] at training
  · refine congrArg Host.Outcome.next (if_pos ?_)
    rw [active]
    rfl
  · intro s1
    refine ⟨fun wanted => ⟨?_, ?_⟩, fun unwanted => ⟨?_, ?_⟩⟩
    · refine (if_neg (not_not_intro active)).trans ?_
      rw [if_pos wanted]
    · exact if_neg (by simp [active, wanted])
    · refine (if_neg (not_not_intro active)).trans ?_
      rw [if_neg (Bool.eq_false_iff.1 unwanted)]
    · exact if_pos (by simp [unwanted])
  · exact if_neg (by simp [up])
  · refine ⟨fun some_ => if_pos ?_, fun down down' up => ?_⟩
    · rcases some_ with h | h <;> simp [h]
    · refine (if_neg ?_).trans (congrArg settled (State.edgeGone_of_up k.isLt up))
      simp [down, down']

/-! ### Datagrams -/

theorem State.setEthDim_setEthDim (s : State) (i : Nat) (x y : EthDim) : (s.setEthDim i x).setEthDim i y = s.setEthDim i y := by
  unfold State.setEthDim
  split
  · simp only [Vector.set_set]
  · rfl

/-- What is left unacknowledged once `ack` has come (R257). -/
def EthDim.unackedAfter (x : EthDim) (ack : Nat) : List Datagram :=
  match x.unacked.findIdx? (·.seq == ack) with
  | some j => x.unacked.drop (j + 1)
  | none => x.unacked

/-- The credits with those of a datagram returned (R257). -/
def EthDim.creditsAfter (x : EthDim) (cr : List (Nat × Nat)) : Vector Nat 4 :=
  let top : Vector Nat 4 := #v[256, 4096, 4096, 256]
  cr.foldl (fun (v : Vector Nat 4) c => v.mapIdx fun j n => if j = c.1 then min (n + c.2) (top.toList.getD j 0) else n) x.credits

/-- A dimension that has taken a datagram's ACK and credits. -/
def EthDim.taken (x : EthDim) (ack : Nat) (cr : List (Nat × Nat)) : EthDim :=
  { x with unacked := x.unackedAfter ack, credits := x.creditsAfter cr }

theorem State.datagramIn_of_version {s : State} {i v : Nat} (h : v ≠ 1) (seq ack : Nat) (fs : List Flit) (cr : List (Nat × Nat)) :
    s.datagramIn i v seq ack fs cr = (s.count48 (.eth 0) 0x48 1).count48 (.eth 0) 0x50 1 := if_pos h

theorem State.datagramIn_of_discarded {s : State} {i seq : Nat} {fs : List Flit} (h : fs = [] ∨ seq ≠ (s.ethDim i).rxNext) (ack : Nat)
    (cr : List (Nat × Nat)) :
    s.datagramIn i 1 seq ack fs cr = ((s.count48 (.eth 0) 0x48 1).setEthDim i ((s.ethDim i).taken ack cr)).drainEth i := by
  unfold State.datagramIn
  refine (if_neg (not_not_intro rfl)).trans ?_
  rcases h with rfl | skew
  · rfl
  · exact (ite_congr rfl (fun _ => rfl) fun _ => if_pos skew).trans (ite_self _)

theorem State.datagramIn_of_sequence {s : State} {i seq : Nat} {fs : List Flit} (hi : i < 2) (some_ : fs ≠ []) (next : seq = (s.ethDim i).rxNext)
    (ack : Nat) (cr : List (Nat × Nat)) :
    let s1 := (s.count48 (.eth 0) 0x48 1).setEthDim i { (s.ethDim i).taken ack cr with rxNext := (seq + 1) % 2 ^ 32 }
    let s2 := fs.foldl (fun s f => s.route (8 + i) (4 + i) f) s1
    let back := ((List.range 4).map fun v => (v, (fs.filter (·.vc == v)).length)).filter (·.2 != 0)
    s.datagramIn i 1 seq ack fs cr = (s2.emit (.datagram (4 + i) (s2.ethDim i).txSeq seq [] back)).drainEth i := by
  unfold State.datagramIn
  refine (if_neg (not_not_intro rfl)).trans ((if_neg (by simpa using some_)).trans ((if_neg (not_not_intro next)).trans ?_))
  rw [State.setEthDim_setEthDim, State.ethDim_setEthDim _ i i _ hi hi, if_pos rfl]
  rfl

theorem State.resendEth_of_still {s : State} {i : Nat} (h : (s.ethDim i).unacked = [] ∨ (s.ethDim i).down = true) : s.resendEth i = s := by
  unfold State.resendEth
  refine if_pos ?_
  rcases h with h | h <;> simp [h]

theorem State.resendEth_of_unacked {s : State} {i : Nat} (some_ : (s.ethDim i).unacked ≠ []) (up : (s.ethDim i).down = false) :
    let again := (s.ethDim i).unacked.map fun d => { d with times := d.times + 1 }
    let s1 := ((s.setEthDim i { s.ethDim i with unacked := again }).count48 (.eth 0) 0x40 again.length).emits
      (again.map fun d => .datagram (4 + i) d.seq (((s.ethDim i).rxNext + 2 ^ 32 - 1) % 2 ^ 32) d.flits [])
    s.resendEth i = if ∃ d ∈ (s.ethDim i).unacked, 7 ≤ d.times then s1.edgeGone (4 + i) else s1 := by
  unfold State.resendEth
  simp only [up, List.isEmpty_eq_false_iff.2 some_, Bool.or_self, Bool.false_eq_true, if_false, List.any_eq_true, List.mem_map,
    exists_exists_and_eq_and, decide_eq_true_eq, Nat.succ_le_succ_iff]

/-- Settles O49: the version, the sequence and the number of sendings decide. -/
theorem datagramsAreSequenced : Obligations.DatagramsAreSequenced := by
  unfold Obligations.DatagramsAreSequenced
  intro s i x
  refine ⟨fun v seq ack fs cr wrong => congrArg settled (State.datagramIn_of_version wrong ..),
    fun seq ack fs cr => ⟨fun none_ => congrArg settled (State.datagramIn_of_discarded none_ ack _),
      fun some_ next => congrArg settled (State.datagramIn_of_sequence i.isLt some_ next ack _)⟩,
    fun still => congrArg settled (State.resendEth_of_still still), fun some_ up => ?_⟩
  have resend := State.resendEth_of_unacked some_ up
  intro again s1
  refine ⟨fun few => congrArg settled (resend.trans (if_neg ?_)), fun many => congrArg settled (resend.trans (if_pos many))⟩
  rintro ⟨d, mem, times⟩
  exact Nat.not_lt.2 times (few d mem)

end Sys2Proof.Machine
end

section
/-! PROOFS. BCP packets: the order of the checks and the classes of a message (O50), queries (O52), numbers of commands (O53), data packets and packets
in clear (O55). -/

namespace Sys2Proof.Machine

open Sys2Proof

/-! ### The checks of a packet (R284) -/

/-- What a packet with an opcode leaves. -/
def State.bcpNext (s : State) (op : Nat) (p : BcpPkt) (ok : Bool) : Host.Outcome State Fault Refusal := .next (s.bcpIn op p ok).bcpOver

theorem exec_sequencedCommands : ∀ e ∈ sequencedCommands, ∀ (s : State) (p : BcpPkt), exec (e.2.2 p) s = s.bcpNext e.1 p e.2.1 := by
  simp only [sequencedCommands, List.forall_mem_cons, List.not_mem_nil, false_implies, implies_true, and_true]
  exact ⟨fun _ _ => rfl, fun _ _ => rfl, fun _ _ => rfl, fun _ _ => rfl, fun _ _ => rfl, fun _ _ => rfl, fun _ _ => rfl, fun _ _ => rfl,
    fun _ _ => rfl, fun _ _ => rfl, fun _ _ => rfl, fun _ _ => rfl, fun _ _ => rfl, fun _ _ => rfl, fun _ _ => rfl⟩

theorem exec_queryCommands : ∀ e ∈ queryCommands, ∀ (s : State) (p : BcpPkt), exec (e.2 p) s = s.bcpNext e.1 p false := by
  simp only [queryCommands, List.forall_mem_cons, List.not_mem_nil, false_implies, implies_true, and_true]
  exact ⟨fun _ _ => rfl, fun _ _ => rfl, fun _ _ => rfl, fun _ _ => rfl, fun _ _ => rfl, fun _ _ => rfl⟩

theorem exec_bcpCommands : ∀ e ∈ bcpCommands, ∀ (s : State) (p : BcpPkt), exec (e.2.2 p) s = s.bcpNext e.1 p e.2.1 := by
  unfold bcpCommands
  refine List.forall_mem_append.2 ⟨List.forall_mem_append.2 ⟨exec_sequencedCommands, List.forall_mem_map.2 exec_queryCommands⟩, ?_⟩
  simp only [List.forall_mem_cons, List.not_mem_nil, false_implies, implies_true, and_true]
  exact ⟨fun _ _ => rfl, fun _ _ => rfl, fun _ _ => rfl⟩

/-- A packet under a session (R282): its session, its tag and its counter are checked. -/
def State.protectedIn (s : State) (op : Nat) (p : BcpPkt) (ok : Bool) : State :=
  match s.openSessions.find? (·.id == p.session) with
  | none => s.clearReply p.from_ p.session p.seq op (Reply.plain St.sessionUnknown)
  | some x =>
    match s.acceptPkt x p with
    | (true, s1) => s1.sessionIn x.id op p ok
    | (false, s1) => s1

/-- A packet that the head serves (R284, steps 6 and 7). -/
def State.servedIn (s : State) (op : Nat) (p : BcpPkt) (ok : Bool) : State :=
  if p.session = 0 ∧ (!bitOf p.flags 1) = true ∧ (op = 1 ∨ op = 2) then s.clearIn op p ok
  else if p.session = 0 ∨ (!bitOf p.flags 1) = true ∨ op = 2 then s.clearReply p.from_ p.session p.seq op (Reply.plain St.authRequired)
  else s.protectedIn op p ok

theorem State.bcpIn_of_off {s : State} (h : s.brd.booted = false ∨ s.ethUp = false) (op : Nat) (p : BcpPkt) (ok : Bool) : s.bcpIn op p ok = s := by
  unfold State.bcpIn
  refine if_pos ?_
  rcases h with h | h <;> simp [h]

/-- The checks of a packet's header and of the device, in order (R284, steps 1 to 5). -/
theorem State.bcpIn_of_on {s : State} (booted : s.brd.booted = true) (up : s.ethUp = true) (op : Nat) (p : BcpPkt) (ok : Bool) :
    let t := s.bcpSeen
    let clear := fun (r : Reply) => t.clearReply p.from_ p.session p.seq op r
    s.bcpIn op p ok = if p.magic ≠ 0x4243 then t.dropBcp
      else if p.version ≠ 1 ∨ p.flags / 32 ≠ 0 ∨ bitOf p.flags 0 = true then clear (Reply.plain St.bcpMalformed)
      else if bitOf p.flags 3 = true then t.dataIn op p
      else if t.leftOut = true then clear (Reply.plain St.notReady)
      else if t.grp.headLost = true then clear (Reply.plain St.headLost)
      else if (!t.isHead) = true then clear ⟨St.notGroupHead, 0xFF, 0, beBytes 16 t.grp.headIp⟩
      else t.servedIn op p ok := by
  unfold State.bcpIn
  exact if_neg (by simp [booted, up])

theorem State.bcpIn_of_serves {s : State} {p : BcpPkt} (h : s.bcpServes p) (op : Nat) (ok : Bool) : s.bcpIn op p ok = s.bcpSeen.servedIn op p ok := by
  obtain ⟨booted, up, magic, version, high, bit0, bit3, out, lost, head⟩ := h
  refine (State.bcpIn_of_on booted up op p ok).trans ((if_neg (not_not_intro magic)).trans ((if_neg ?_).trans ((if_neg (Bool.eq_false_iff.1 bit3)).trans
    ((if_neg (Bool.eq_false_iff.1 out)).trans ((if_neg (Bool.eq_false_iff.1 lost)).trans (if_neg ?_))))))
  · simp [version, high, bit0]
  · simp [head]

theorem State.servedIn_of_protected {p : BcpPkt} {op : Nat} (session : p.session ≠ 0) (bit1 : bitOf p.flags 1 = true) (other : op ≠ 2) (s : State)
    (ok : Bool) : s.servedIn op p ok = s.protectedIn op p ok :=
  (if_neg fun h => session h.1).trans (if_neg (by simp [session, bit1, other]))

theorem State.protectedIn_of_unknown {s : State} {p : BcpPkt} (h : s.openSessions.find? (·.id == p.session) = none) (op : Nat) (ok : Bool) :
    s.protectedIn op p ok = s.clearReply p.from_ p.session p.seq op (Reply.plain St.sessionUnknown) := by
  unfold State.protectedIn
  simp only [h]

theorem State.protectedIn_of_refused {s s1 : State} {p : BcpPkt} {x : Session} (h : s.openSessions.find? (·.id == p.session) = some x)
    (refused : s.acceptPkt x p = (false, s1)) (op : Nat) (ok : Bool) : s.protectedIn op p ok = s1 := by
  unfold State.protectedIn
  simp only [h, refused]

theorem State.protectedIn_of_accepted {s s1 : State} {p : BcpPkt} {x : Session} (h : s.openSessions.find? (·.id == p.session) = some x)
    (accepted : s.acceptPkt x p = (true, s1)) (op : Nat) (ok : Bool) : s.protectedIn op p ok = s1.sessionIn x.id op p ok := by
  unfold State.protectedIn
  simp only [h, accepted]

theorem State.acceptPkt_of_badTag {p : BcpPkt} (h : p.tagOk = false) (s : State) (x : Session) :
    s.acceptPkt x p = (false, (s.count48 (.eth 3) 0x28 1).authRecord x.id p.from_) := if_pos (by simp [h])

theorem State.acceptPkt_of_badCtr {p : BcpPkt} {x : Session} (tag : p.tagOk = true) (seen : x.ctrSeen ≠ [])
    (bad : p.pktCtr + 1023 < x.ctrHigh ∨ p.pktCtr ∈ x.ctrSeen) (s : State) : s.acceptPkt x p = (false, s.count48 (.eth 3) 0x30 1) :=
  (if_neg (by simp [tag])).trans (if_pos (by simpa [seen] using bad))

/-- A packet that makes a message whole hands it over in its session (R277). -/
theorem State.bcpIn_of_gives {s t : State} {op : Nat} {p : BcpPkt} {y : Session} {b : List Byte} (h : s.bcpGives op p t y b) (ok : Bool) :
    s.bcpIn op p ok = t.message y op p.from_ p.seq b ok := by
  obtain ⟨serves, session, bit1, other, x, s1, z, ps, found, accepted, known, small, fits, ends, whole, rfl, own⟩ := h
  rw [State.bcpIn_of_serves serves, State.servedIn_of_protected session bit1 other, State.protectedIn_of_accepted found accepted]
  unfold State.sessionIn
  simp only [known, if_neg (Nat.not_lt.2 small), if_neg (not_or.2 ⟨Nat.not_lt.2 fits, Nat.not_lt.2 ends⟩), whole, own]

/-! ### The classes of a message (R285) -/

theorem State.message_of_again {t : State} {y : Session} {op seq : Nat} {b : List Byte} {r : SeqRec} (h : y.classify seq (digestOf b) = .again r)
    (command : r.query = false) (src : Nat) (ok : Bool) :
    let t1 := t.count48 (.eth 3) 0x38 1
    t.message y op src seq b ok = r.final.elim (t1.encReply src y.id seq op false r.gseq (Reply.plain St.accepted))
      fun q => t1.encReply src y.id seq op true r.gseq q := by
  unfold State.message
  simp only [h, command, Bool.false_eq_true, if_false]
  cases r.final <;> rfl

/-- A new message: while the group is not formed or a run command cannot be taken it fails, and else it is carried out. -/
theorem State.message_of_new {t : State} {y : Session} {op seq : Nat} {b : List Byte} (h : y.classify seq (digestOf b) = .new) (src : Nat) (ok : Bool) :
    let say := fun (r : Reply) => t.encReply src y.id seq op false none r
    t.message y op src seq b ok = if t.grp.formed = false ∧ op ≠ 1 then say (Reply.plain St.notReady)
      else (if isRun op then t.notServing else none).elim
        (if isRun op = true ∧ 256 ≤ (t.classQueue (beAt b 0 1 % 4)).length then say (Reply.plain St.queueFull) else t.runNew op y.id src seq b ok)
        fun d => say ⟨St.quiesced, d, 0, []⟩ := by
  unfold State.message
  simp only [h, Bool.and_eq_true, Bool.not_eq_true', bne_iff_ne, decide_eq_true_eq]
  split
  · rfl
  · split
    next eq => rw [eq]; rfl
    next eq => rw [eq]; rfl

theorem State.message_of_taken {t : State} {y : Session} {op seq : Nat} {b : List Byte} (new : y.classify seq (digestOf b) = .new)
    (formed : t.grp.formed = true) (room : isRun op = true → t.notServing = none ∧ (t.classQueue (beAt b 0 1 % 4)).length < 256) (src : Nat)
    (ok : Bool) : t.message y op src seq b ok = t.runNew op y.id src seq b ok := by
  refine (State.message_of_new new src ok).trans ((if_neg (by simp [formed])).trans ?_)
  by_cases run : isRun op = true
  · obtain ⟨serving, few⟩ := room run
    rw [if_pos run, serving]
    exact if_neg fun h => Nat.not_lt.2 h.2 few
  · rw [if_neg run]
    exact if_neg fun h => run h.1

/-- Settles O50: the checks come in the order of their definition, and the class of a message decides what is said. -/
theorem packetsAreCheckedAndClassified : Obligations.PacketsAreCheckedAndClassified := by
  unfold Obligations.PacketsAreCheckedAndClassified
  refine ⟨fun e mem s p => ?_, fun e mem s p t y b gives => ?_⟩
  · have run : ∀ {u : State}, s.bcpIn e.1 p e.2.1 = u → exec (e.2.2 p) s = .next u.bcpOver := fun eq =>
      (exec_bcpCommands e mem s p).trans (by unfold State.bcpNext; rw [eq])
    intro t _ clear good
    refine ⟨fun off => run (State.bcpIn_of_off off ..), fun booted up => ?_, fun serves => ?_⟩
    · have on := State.bcpIn_of_on booted up e.1 p e.2.1
      have header : good → s.bcpIn e.1 p e.2.1 = _ := fun ⟨magic, version, high, bit0, bit3⟩ => on.trans ((if_neg (not_not_intro magic)).trans
        ((if_neg (by simp [version, high, bit0])).trans (if_neg (Bool.eq_false_iff.1 bit3))))
      refine ⟨fun magic => run (on.trans (if_pos magic)), fun magic bad => run (on.trans ((if_neg (not_not_intro magic)).trans (if_pos bad))),
        fun ok out => run ((header ok).trans (if_pos out)),
        fun ok in_ lost => run ((header ok).trans ((if_neg (Bool.eq_false_iff.1 in_)).trans (if_pos lost))),
        fun ok in_ alive member => run ((header ok).trans ((if_neg (Bool.eq_false_iff.1 in_)).trans ((if_neg (Bool.eq_false_iff.1 alive)).trans
          (if_pos (by rw [show s.bcpSeen.isHead = false from member]; rfl)))))⟩
    · have served := State.bcpIn_of_serves serves e.1 e.2.1
      refine ⟨fun none_ closed => run (served.trans ((if_neg ?_).trans (if_pos (.inl none_)))),
        fun session closed => run (served.trans ((if_neg fun h => session h.1).trans (if_pos (.inr (by simpa using closed))))), fun session bit1 other unknown => run ?_,
        fun x session bit1 other found => ⟨fun tag => run ?_, fun tag seen bad => run ?_⟩⟩
      · rintro ⟨-, bit1, op⟩
        rcases closed with closed | closed
        · simp [closed] at bit1
        · omega
      · rw [served, State.servedIn_of_protected session bit1 other, State.protectedIn_of_unknown unknown]
      · rw [served, State.servedIn_of_protected session bit1 other, State.protectedIn_of_refused found (State.acceptPkt_of_badTag tag _ x)]
      · rw [served, State.servedIn_of_protected session bit1 other, State.protectedIn_of_refused found (State.acceptPkt_of_badCtr tag seen bad _)]
  · have run : ∀ {u : State}, t.message y e.1 p.from_ p.seq b e.2.1 = u → exec (e.2.2 p) s = .next u.bcpOver := fun eq =>
      (exec_bcpCommands e mem s p).trans (by unfold State.bcpNext; rw [State.bcpIn_of_gives gives, eq])
    refine ⟨fun window => run ?_, fun stale => run ?_, fun conflict => run ?_, fun r again command => ?_, fun new other => ?_⟩
    · unfold State.message
      simp only [window]
      rfl
    · unfold State.message
      simp only [stale]
      rfl
    · unfold State.message
      simp only [conflict]
      rfl
    · have message := State.message_of_again (t := t) (op := e.1) again command p.from_ e.2.1
      exact ⟨fun none_ => run (message.trans (by rw [none_]; rfl)), fun q final => run (message.trans (by rw [final]; rfl))⟩
    · have message := State.message_of_new (t := t) (op := e.1) new p.from_ e.2.1
      refine ⟨fun single => run (message.trans (if_pos ⟨single, other⟩)), fun d formed runs out => run (message.trans ((if_neg ?_).trans ?_)),
        fun formed runs serving full => run (message.trans ((if_neg ?_).trans ?_))⟩
      · simp [formed]
      · rw [if_pos runs, out]
        rfl
      · simp [formed]
      · rw [if_pos runs, serving]
        exact if_pos ⟨runs, full⟩

/-! ### Queries (R295) -/

theorem queryCommands_class : ∀ e ∈ queryCommands, isQuery e.1 = true ∧ isRun e.1 = false ∧ e.1 ≠ 1 := by
  simp [queryCommands, isQuery, isRun]

theorem State.runNew_of_query {op : Nat} (query : isQuery op = true) (other : op ≠ 1) (t : State) (p : BcpPkt) (y : Session) (b : List Byte) (ok : Bool) :
    let q := (t.recorded op p y b).query op y.id b
    t.runNew op y.id p.from_ p.seq b ok = q.2.says op p y q.1 := by
  unfold State.runNew
  exact (if_neg other).trans (if_pos query)

theorem State.readReg_of_here {s : State} {i : Nat} {b : List Byte} (len : b.length = 32) (zero1 : isZero b 1 7 = true) (zero2 : isZero b 18 14 = true)
    (here : beAt b 0 1 = s.devIndex) (member : s.isMember s.devIndex = true) (some_ : 1 ≤ beAt b 16 2) (few : beAt b 16 2 ≤ 256)
    (range : regRange (beAt b 8 8) (beAt b 16 2) = true) :
    s.readReg i b = if regRights (s.levelOf i) false (beAt b 8 8) (beAt b 16 2) = true then
        (⟨St.ok, 0xFF, 0, (s.readRegs (beAt b 8 8) (beAt b 16 2)).1.flatMap fun w => beBytes 4 w.toNat⟩, (s.readRegs (beAt b 8 8) (beAt b 16 2)).2)
      else (⟨St.regAccessDenied, s.devIndex, 0, []⟩, s) := by
  unfold State.readReg
  refine (if_neg ?_).trans ((if_neg (not_not_intro here)).trans ?_)
  · simp only [len, zero1, zero2, here, member, range, ne_eq, not_true_eq_false, Bool.not_true, Bool.false_eq_true, false_or, or_false]
    omega
  · rw [here]
    cases regRights (s.levelOf i) false (beAt b 8 8) (beAt b 16 2) <;> rfl

theorem State.readReg_of_member {s : State} {b : List Byte} (i : Nat) (len : b.length = 32) (zero1 : isZero b 1 7 = true) (zero2 : isZero b 18 14 = true)
    (member : s.isMember (beAt b 0 1) = true) (away : beAt b 0 1 ≠ s.devIndex) (some_ : 1 ≤ beAt b 16 2) (few : beAt b 16 2 ≤ 256)
    (range : regRange (beAt b 8 8) (beAt b 16 2) = true) : s.readReg i b = s.askOther (beAt b 0 1) 0x12 (4 * beAt b 16 2) b := by
  unfold State.readReg
  refine (if_neg ?_).trans (if_pos away)
  simp only [len, zero1, zero2, member, range, ne_eq, not_true_eq_false, Bool.not_true, Bool.false_eq_true, false_or, or_false]
  omega

/-- A MEM_READ of this device passes the checks of its form. -/
theorem State.memRead_of_here {s : State} {b : List Byte} (i : Nat) (len : b.length = 32) (zero1 : isZero b 1 7 = true) (zero2 : isZero b 20 12 = true)
    (here : beAt b 0 1 = s.devIndex) (member : s.isMember s.devIndex = true) (words : beAt b 16 4 % 4 = 0) (aligned : beAt b 8 8 % 4 = 0)
    (few : beAt b 16 4 ≤ 0xF00000) :
    let a := beAt b 8 8
    let n := beAt b 16 4
    s.memRead i b = (s.memStatus (s.levelOf i) false a n).elim
      (⟨St.ok, 0xFF, 0, ((s.gPeek a (n / 4)).flatMap fun w => leBytes 4 w.bits.toNat) ++ poisonBits (s.gPeek a (n / 4))⟩,
        if regionOf a = .redWin then s else s.noteWords (unitGander 0) (islandOfAddr a) a (n / 4))
      fun st => (⟨st, s.devIndex, 0, []⟩, s.memRefused st a) := by
  unfold State.memRead
  refine (if_neg ?_).trans ((if_neg (not_not_intro here)).trans ?_)
  · simp only [len, zero1, zero2, here, member, words, aligned, ne_eq, not_true_eq_false, Bool.not_true, Bool.false_eq_true, false_or]
    omega
  · rw [here]
    cases s.memStatus (s.levelOf i) false (beAt b 8 8) (beAt b 16 4) <;> rfl

theorem State.errorReadAt_of_here {s : State} {b : List Byte} (len : b.length = 32) (zero1 : isZero b 1 7 = true) (zero2 : isZero b 18 14 = true)
    (here : beAt b 0 1 = s.devIndex) (member : s.isMember s.devIndex = true) (some_ : 1 ≤ beAt b 16 2) (few : beAt b 16 2 ≤ 128) :
    s.errorReadAt b = (⟨St.ok, 0xFF, 0, s.errorRead (beAt b 8 8) (beAt b 16 2)⟩, s) := by
  unfold State.errorReadAt
  refine (if_neg ?_).trans (if_neg (not_not_intro here))
  simp only [len, zero1, zero2, here, member, Bool.not_true, Bool.false_eq_true, false_or]
  omega

/-- TELEMETRY of this device alone is its block. -/
theorem State.telemetryAll_of_here {s : State} {b : List Byte} (len : b.length = 1) (here : beAt b 0 1 = s.devIndex)
    (member : s.isMember s.devIndex = true) (small : s.devIndex < 64) : s.telemetryAll b = (⟨St.ok, 0xFF, 0, s.telemetry⟩, s) := by
  have own : ((List.range 64).filter fun i => s.isMember i && (s.devIndex == 0xFF || s.devIndex == i)) = [s.devIndex] := by
    have only_ : (fun i => s.isMember i && (s.devIndex == 0xFF || s.devIndex == i)) = (· == s.devIndex) := by
      funext i
      rw [beq_eq_false_iff_ne.2 (show s.devIndex ≠ 0xFF by omega), Bool.false_or, Bool.eq_iff_iff]
      simp only [Bool.and_eq_true, beq_iff_eq]
      exact ⟨fun h => h.2.symm, fun h => ⟨h ▸ member, h.symm⟩⟩
    rw [only_, List.filter_beq, List.count_eq_one_of_mem List.nodup_range (List.mem_range.2 small)]
    rfl
  unfold State.telemetryAll
  refine (if_neg (by simp [len, here, member])).trans ?_
  simp only [here, own, List.foldl_cons, List.foldl_nil, if_true, List.nil_append]

/-- Settles O52: a new query is answered from the state in which it has been recorded. -/
theorem queriesAreAnswered : Obligations.QueriesAreAnswered := by
  unfold Obligations.QueriesAreAnswered
  refine ⟨fun e mem s p t y b gives new formed => ?_, fun s i => ⟨rfl, fun b len => ?_, fun g none_ => ?_,
    fun b len zero1 zero2 here member => ?_, fun b len zero1 zero2 here member => ?_, fun b len zero1 zero2 here member some_ few => ?_,
    fun b len here member small => ?_, fun b len zero1 zero2 member away some_ few range => ?_⟩⟩
  · obtain ⟨query, notRun, other⟩ := queryCommands_class e mem
    refine (exec_queryCommands e mem s p).trans ?_
    unfold State.bcpNext
    rw [State.bcpIn_of_gives gives, State.message_of_taken new formed fun run => absurd run (Bool.eq_false_iff.1 notRun),
      State.runNew_of_query query other]
  · exact congrArg (·, s) (if_pos len)
  · unfold State.commandStatus
    simp only [none_]
  · intro a n some_ few range
    have read := State.readReg_of_here (i := i) len zero1 zero2 here member some_ few range
    exact ⟨fun may => read.trans (if_pos may), fun no => read.trans (if_neg (Bool.eq_false_iff.1 no))⟩
  · intro a n words aligned few
    have read := State.memRead_of_here i len zero1 zero2 here member words aligned few
    refine ⟨fun st refused => read.trans (by rw [show s.memStatus (s.levelOf i) false (beAt b 8 8) (beAt b 16 4) = some st from refused]; rfl),
      fun allowed memory => ?_⟩
    dsimp only at read
    rw [show s.memStatus (s.levelOf i) false (beAt b 8 8) (beAt b 16 4) = none from allowed] at read
    exact ⟨congrArg Prod.fst read, (congrArg Prod.snd read).trans (if_neg memory)⟩
  · exact State.errorReadAt_of_here len zero1 zero2 here member some_ few
  · exact State.telemetryAll_of_here len here member small
  · exact State.readReg_of_member i len zero1 zero2 member away some_ few range

end Sys2Proof.Machine
end

section
/-! PROOFS. BCP commands get their numbers (O53); data packets and packets in clear (O55). -/

namespace Sys2Proof.Machine

open Sys2Proof

/-! ### Numbers of commands (R284, R287) -/

theorem sequencedCommands_class : ∀ e ∈ sequencedCommands, isQuery e.1 = false ∧ isSequenced e.1 = true ∧ e.1 ≠ 2 ∧ e.1 ≠ 1 := by
  simp [sequencedCommands, isQuery, isSequenced, isRun]

/-- What speaks against a new message that is no query (R284, steps 11 and 12). -/
def State.newBad (s : State) (op : Nat) (b : List Byte) : Option Reply :=
  if isSequenced op && op != 2 then s.seqBad op b else Reply.fail St.unsupportedOperation

theorem State.newBad_of_sequenced {op : Nat} (listed : isSequenced op = true) (other : op ≠ 2) (s : State) (b : List Byte) :
    s.newBad op b = s.seqBad op b := if_pos (by simp [listed, other])

theorem State.newBad_of_unlisted {op : Nat} (unlisted : isSequenced op = false) (s : State) (b : List Byte) :
    s.newBad op b = some (Reply.plain St.unsupportedOperation) := if_neg (by simp [unlisted])

/-- A new message that is no query gets its number, unless something speaks against it. -/
theorem State.runNew_of_command {op : Nat} (command : isQuery op = false) (other : op ≠ 1) (t : State) (p : BcpPkt) (y : Session) (b : List Byte)
    (ok : Bool) :
    let t1 := t.recorded op p y b
    t.runNew op y.id p.from_ p.seq b ok = (t1.newBad op b).elim (t1.sequence op y.id p.from_ p.seq b ok)
      fun q => (t1.modSession y.id fun x => { x with recs := noteFinal p.seq q x.recs }).says op p y q := by
  unfold State.runNew State.newBad State.recorded
  refine (if_neg other).trans ((if_neg (Bool.eq_false_iff.1 command)).trans ?_)
  dsimp only
  split
  next q bad => rw [bad]; rfl
  next good => rw [good]; rfl

theorem State.sequence_eq (s : State) (op session src seq : Nat) (b : List Byte) (ok : Bool) :
    let g := (s.grp.lastGseq + 1) % 2 ^ 32
    let cls := if isRun op then beAt b 0 1 % 4 else 0
    let ids := bitOf (beAt b 1 1) 0 || (op == 0x31 && (parsePrompt b false 0).text.isEmpty)
    let prompt := if op = 0x31 then some (parsePrompt b ids (s.holdOf b)) else none
    let t2 := ({ s with grp := { s.grp with lastGseq := g } } : State).rset (.eth 3) 0xC (BitVec.ofNat 32 g)
    let t3 := (t2.modSession session fun x => { x with recs := x.recs.map fun r => if r.seq = seq then { r with gseq := some g } else r }).encReply
      src session seq op false (some g) (Reply.plain St.accepted)
    s.sequence op session src seq b ok = (if op = 0x31 ∧ ids = false then t3 else t3.sendCommand g op cls session seq (digestOf b) b).applySeq
      g op cls session src seq b prompt ok := by
  unfold State.sequence
  simp only [Bool.not_eq_true']
  rfl

/-- Settles O53: a command is sequenced in the state in which it has been recorded, when nothing speaks against it. -/
theorem commandsGetNumbers : Obligations.CommandsGetNumbers := by
  unfold Obligations.CommandsGetNumbers
  intro e mem s p t y b gives new formed room t1 run
  obtain ⟨command, listed, notOpen, other⟩ := sequencedCommands_class e mem
  have next : ∀ {u : State}, t.runNew e.1 y.id p.from_ p.seq b e.2.1 = u → run = .next u.bcpOver := fun eq =>
    (exec_sequencedCommands e mem s p).trans (by
      unfold State.bcpNext
      rw [State.bcpIn_of_gives gives, State.message_of_taken new formed room, eq])
  have new_ := State.runNew_of_command command other t p y b e.2.1
  refine ⟨fun q bad => next (new_.trans ?_), fun good => next (new_.trans ?_)⟩
  · rw [State.newBad_of_sequenced listed notOpen, show (t.recorded e.1 p y b).seqBad e.1 b = some q from bad]
    rfl
  · rw [State.newBad_of_sequenced listed notOpen, show (t.recorded e.1 p y b).seqBad e.1 b = none from good]
    exact State.sequence_eq ..

/-! ### Data packets (R278) -/

/-- A data packet has the form that its bytes need. -/
def BcpPkt.fits (p : BcpPkt) (off : Nat) : Prop :=
  p.total = p.payload.length ∧ p.offset = 0 ∧ 16 ≤ p.payload.length ∧ (p.payload.drop 16).length % 1024 = 0 ∧ off % 1024 = 0

theorem State.dataIn_of_clear {p : BcpPkt} (h : p.session = 0 ∨ bitOf p.flags 1 = false) (s : State) (op : Nat) : s.dataIn op p = s.dropBcp :=
  if_pos (by simpa using h)

theorem State.dataIn_of_accepted {s s1 : State} {p : BcpPkt} {x : Session} (session : p.session ≠ 0) (bit1 : bitOf p.flags 1 = true)
    (found : s.openSessions.find? (·.id == p.session) = some x) (accepted : s.acceptPkt x p = (true, s1)) (op : Nat) :
    s.dataIn op p = s1.dataBody op p := by
  unfold State.dataIn
  refine (if_neg (by simp [session, bit1])).trans ?_
  simp only [found, accepted]

theorem State.dataBody_of_misfit {p : BcpPkt} {op : Nat} (h : ¬p.fits (if op = 0x21 then beAt p.payload 8 8 else beAt p.payload 8 4)) (s : State) :
    s.dataBody op p = s.dropBcp := by
  unfold BcpPkt.fits at h
  exact if_pos (by omega)

theorem State.dataBody_of_image {p : BcpPkt} (fits : p.fits (beAt p.payload 8 8)) (s : State) :
    s.dataBody 0x21 p = (s.imageBytes (beAt p.payload 0 4) (beAt p.payload 8 8) (p.payload.drop 16)).elim s.dropBcp
      fun s1 => s1.count48 (.eth 3) 0x48 1 := by
  unfold BcpPkt.fits at fits
  unfold State.dataBody
  refine (if_neg (by simp only [if_true]; omega)).trans ?_
  simp only [if_true]
  cases s.imageBytes (beAt p.payload 0 4) (beAt p.payload 8 8) (p.payload.drop 16) <;> rfl

theorem State.dataBody_of_page {p : BcpPkt} (fits : p.fits (beAt p.payload 8 4)) (s : State) :
    s.dataBody 0x41 p = (s.pageBytes (beAt p.payload 0 8) (beAt p.payload 8 4) (bitOf (beAt p.payload 12 1) 0) (p.payload.drop 16)).elim s.dropBcp
      fun s1 => s1.count48 (.eth 3) 0x48 1 := by
  unfold BcpPkt.fits at fits
  unfold State.dataBody
  refine (if_neg (by simp only [Nat.reduceEqDiff, if_false]; omega)).trans ?_
  simp only [Nat.reduceEqDiff, if_false, if_true, true_and, Bool.decide_eq_true]
  cases s.pageBytes (beAt p.payload 0 8) (beAt p.payload 8 4) (bitOf (beAt p.payload 12 1) 0) (p.payload.drop 16) <;> rfl

theorem State.imageBytes_of_loading {s : State} {id off : Nat} {data : List Byte} {g : Image} (image : s.image id = some g) (loading : g.st = .loading)
    (small : off + data.length ≤ g.partBytes) :
    let units := (List.range (data.length / 1024)).map (· + off / 1024)
    s.imageBytes id off data = some ((s.putBytes (unitOfAddr (g.base + off)) (islandOfAddr (g.base + off)) (g.base + off) data).modImage id
      fun x => { x with got := x.got.filter (fun u => !units.contains u) ++ units }) := by
  unfold State.imageBytes
  simp only [image]
  exact if_neg (by simp [loading, small])

theorem State.pageBytes_of_unasked {s : State} {handle : Nat} (h : s.awaited handle = []) (off : Nat) (refuse : Bool) (data : List Byte) :
    s.pageBytes handle off refuse data = none := by
  unfold State.pageBytes
  simp only [h]

theorem exec_dataCommands : ∀ e ∈ [(0x21, Instr.imageData), (0x41, Instr.kvPageData)], ∀ (s : State) (p : BcpPkt),
    exec (e.2 p) s = s.bcpNext e.1 p false := by
  simp only [List.forall_mem_cons, List.not_mem_nil, false_implies, implies_true, and_true]
  exact ⟨fun _ _ => rfl, fun _ _ => rfl⟩

theorem State.bcpIn_of_data {s : State} {p : BcpPkt} (booted : s.brd.booted = true) (up : s.ethUp = true) (magic : p.magic = 0x4243)
    (version : p.version = 1) (high : p.flags / 32 = 0) (bit0 : bitOf p.flags 0 = false) (bit3 : bitOf p.flags 3 = true) (op : Nat) (ok : Bool) :
    s.bcpIn op p ok = s.bcpSeen.dataIn op p :=
  (State.bcpIn_of_on booted up op p ok).trans ((if_neg (not_not_intro magic)).trans ((if_neg (by simp [version, high, bit0])).trans (if_pos bit3)))

/-! ### Packets in clear (R280, R403) -/

theorem State.clearIn_of_full {s : State} (h : s.attestFull = true) (p : BcpPkt) (ok : Bool) : s.clearIn 1 p ok = s.dropBcp := if_pos ⟨rfl, h⟩

theorem State.clearIn_of_attest {s : State} {p : BcpPkt} (room : s.attestFull = false) (seq : p.seq = 0) (small : p.total ≤ 0x1000000)
    (ends : p.offset + p.payload.length ≤ p.total) (whole : p.total ≤ p.payload.length) (fits : p.payload.length ≤ s.countAttest.maxLen) (ok : Bool) :
    s.clearIn 1 p ok = s.countAttest.attest p.from_ 0 0 p.payload := by
  have len : s.countAttest.maxLen = s.maxLen := rfl
  unfold State.clearIn
  refine (if_neg (by simp [room])).trans ((if_neg (Nat.not_lt.2 small)).trans ((if_neg ?_).trans ((if_neg (Nat.not_lt.2 whole)).trans (if_pos rfl))))
  omega

theorem State.clearIn_of_open {s : State} {p : BcpPkt} (seq : p.seq = 0) (small : p.total ≤ 0x1000000) (ends : p.offset + p.payload.length ≤ p.total)
    (whole : p.total ≤ p.payload.length) (fits : p.payload.length ≤ s.maxLen) (ok : Bool) :
    s.clearIn 2 p ok = if s.grp.formed = false then s.clearReply p.from_ 0 p.seq 2 (Reply.plain St.notReady) else s.openSession p.from_ p.payload ok := by
  unfold State.clearIn
  refine (if_neg (by simp)).trans ((if_neg (Nat.not_lt.2 small)).trans ((if_neg ?_).trans ((if_neg (Nat.not_lt.2 whole)).trans ((if_neg (by simp)).trans ?_))))
  · omega
  · simp only [Bool.not_eq_true']
    rfl

theorem State.servedIn_of_clear {p : BcpPkt} {op : Nat} (session : p.session = 0) (bit1 : bitOf p.flags 1 = false) (listed : op = 1 ∨ op = 2) (s : State)
    (ok : Bool) : s.servedIn op p ok = s.clearIn op p ok := if_pos ⟨session, by simp [bit1], listed⟩

/-- Settles O55: the header, the session and the form of a packet decide; a message of no opcode is answered in its session. -/
theorem dataAndClearPackets : Obligations.DataAndClearPackets := by
  unfold Obligations.DataAndClearPackets
  refine ⟨fun ⟨op, command⟩ mem s p booted up magic version high bit0 bit3 => ?_, fun s p serves session bit1 seq small ends whole => ?_,
    fun s p op t y b gives command unlisted notImage notPage new formed => ?_, fun s d i q => ⟨rfl, rfl, rfl⟩⟩
  · have run : ∀ {u : State}, s.bcpSeen.dataIn op p = u → exec (command p) s = .next u.bcpOver := fun eq =>
      (exec_dataCommands _ mem s p).trans (by
        unfold State.bcpNext
        rw [State.bcpIn_of_data booted up magic version high bit0 bit3, eq])
    refine ⟨fun closed => run (State.dataIn_of_clear closed _ _), fun x s1 session bit1' found accepted => ?_⟩
    have body : ∀ {u : State}, s1.dataBody op p = u → exec (command p) s = .next u.bcpOver := fun eq =>
      run ((State.dataIn_of_accepted session bit1' found accepted op).trans eq)
    intro data off fits
    refine ⟨fun misfit => body (State.dataBody_of_misfit misfit s1), fun g ok image found loading small => ?_, fun s2 ok page stored => ?_,
      fun ok page unasked => ?_⟩
    · obtain rfl : op = 0x21 := image
      refine body ((State.dataBody_of_image ok s1).trans ?_)
      rw [State.imageBytes_of_loading (off := beAt p.payload 8 8) found loading small]
      rfl
    · obtain rfl : op = 0x41 := page
      refine body ((State.dataBody_of_page ok s1).trans ?_)
      rw [show s1.pageBytes (beAt p.payload 0 8) (beAt p.payload 8 4) (bitOf (beAt p.payload 12 1) 0) (p.payload.drop 16) = some s2 from stored]
      rfl
    · obtain rfl : op = 0x41 := page
      refine body ((State.dataBody_of_page ok s1).trans ?_)
      rw [State.pageBytes_of_unasked unasked]
      rfl
  · have run : ∀ {op : Nat} {ok : Bool} {u : State}, op = 1 ∨ op = 2 → s.bcpSeen.clearIn op p ok = u → s.bcpNext op p ok = .next u.bcpOver :=
      fun listed eq => by
        unfold State.bcpNext
        rw [State.bcpIn_of_serves serves, State.servedIn_of_clear session bit1 listed, eq]
    intro t
    refine ⟨fun full => run (.inl rfl) (State.clearIn_of_full full p false),
      fun room fits => run (.inl rfl) (State.clearIn_of_attest room seq small ends whole fits false), fun ok fits => ?_⟩
    have open_ := State.clearIn_of_open (s := s.bcpSeen) seq small ends whole fits ok
    exact ⟨fun formed => run (.inr rfl) (open_.trans (if_neg (by simp [show s.bcpSeen.grp.formed = true from formed]))),
      fun single => run (.inr rfl) (open_.trans (if_pos single))⟩
  · have notRun : isRun op = false := by
      unfold isSequenced at unlisted
      simp only [Bool.or_eq_false_iff] at unlisted
      exact unlisted.1
    have other : op ≠ 1 := by
      rintro rfl
      simp [isQuery] at command
    change execReservedOpcode op p s = _
    unfold execReservedOpcode
    rw [if_neg (by simp [command, unlisted, notImage, notPage])]
    change s.bcpNext op p false = _
    unfold State.bcpNext
    rw [State.bcpIn_of_gives gives, State.message_of_taken new formed fun run => absurd run (Bool.eq_false_iff.1 notRun),
      State.runNew_of_command command other, State.newBad_of_unlisted unlisted]
    rfl

end Sys2Proof.Machine
end

section
/-! PROOFS. What management commands do on a device; the end of a commit; tokenized prompts (O54). -/

namespace Sys2Proof.Machine

open Sys2Proof

/-! ### Management commands on the device that they name -/

theorem State.writeReg_of_named {s : State} {b : List Byte} (named : beAt b 0 1 = s.devIndex) (i : Nat) :
    s.writeReg i b = if regRights (s.levelOf i) true (beAt b 8 8) (beAt b 16 2) = true then
        (Reply.plain St.ok, s.writeRegs (beAt b 8 8) ((wordsAt b 32 (beAt b 16 2)).map (BitVec.ofNat 32)))
      else (⟨St.regAccessDenied, s.devIndex, 0, []⟩, s) := by
  unfold State.writeReg
  refine (if_neg (not_not_intro named)).trans ?_
  cases regRights (s.levelOf i) true (beAt b 8 8) (beAt b 16 2) <;> rfl

theorem State.writeReg_of_other {s : State} {b : List Byte} (other : beAt b 0 1 ≠ s.devIndex) (i : Nat) : s.writeReg i b = (Reply.plain St.ok, s) :=
  if_pos other

theorem State.memWrite_of_named {s : State} {b : List Byte} (named : beAt b 0 1 = s.devIndex) (i : Nat) :
    let a := beAt b 8 8
    let n := beAt b 16 4
    s.memWrite i b = (s.memStatus (s.levelOf i) true a n).elim
      (Reply.plain St.ok, s.gPut a ((List.range (n / 4)).map fun j => BitVec.ofNat 32 (leAt b (32 + 4 * j) 4)))
      fun st => (⟨st, s.devIndex, 0, []⟩, s.memRefused st a) := by
  unfold State.memWrite
  refine (if_neg (not_not_intro named)).trans ?_
  cases s.memStatus (s.levelOf i) true (beAt b 8 8) (beAt b 16 4) <;> rfl

theorem State.memWrite_of_other {s : State} {b : List Byte} (other : beAt b 0 1 ≠ s.devIndex) (i : Nat) : s.memWrite i b = (Reply.plain St.ok, s) :=
  if_pos other

/-- A CANCEL by the host of a command that waits takes it off its queue (R294). -/
theorem State.cancel_of_queued {s : State} {n : Nat} {c : CmdRec} (cmd : s.cmd n = some c) (run : c.run = true)
    (recent : (s.grp.lastGseq + 2 ^ 32 - n) % 2 ^ 32 < 4096) (open_ : c.final = false) (tiles : s.tilesDoneAll c = false) (undone : c.ownDone = false)
    (queued : c.state = 0) :
    s.cancel n true = (Reply.plain St.ok, (State.dropEgress (s.modSvc fun v => { v with
      queues := v.queues.map fun q => q.filter (· != n) }) n).ownFinish n (Reply.plain St.cancelled) false) := by
  unfold State.cancel
  simp only [cmd]
  refine (if_neg ?_).trans ((if_neg (by simp [open_, tiles])).trans ((if_neg (Bool.eq_false_iff.1 undone)).trans ((if_pos queued).trans ?_)))
  · rw [run]
    exact not_or.2 ⟨by decide, Nat.not_le.2 recent⟩
  · rfl

/-- The Level 1 password opens Level 1, or the attempt counts as a failure (R409, R411). -/
theorem State.debugUnlock_of_level1 {s : State} {i : Nat} {b : List Byte} {x : Session} (named : beAt b 2 1 = s.devIndex)
    (session : s.session i = some x) (open_ : x.closing = false) (closed : s.levelOf i = 0) (level : beAt b 0 1 = 1) (ok : Bool) :
    s.debugUnlock i b ok = if s.debugLocked = false ∧ s.passwordOk (slice b 8 (beAt b 3 1)) = true
      then (Reply.plain St.ok, s.debugOpened.modSession i fun x => { x with level := 1 })
      else (⟨St.authFailed, s.devIndex, 0, []⟩, s.debugFailed) := by
  unfold State.debugUnlock
  refine (if_neg (not_not_intro named)).trans ((if_neg (by simp [session, open_])).trans ((if_neg (by omega)).trans ((if_neg (by omega)).trans ?_)))
  simp only [level, if_true, Nat.reduceEqDiff, if_false, Bool.and_eq_true, Bool.not_eq_true']

/-! ### Commits and tokenized prompts -/

theorem State.commitDone_of_image {s : State} {i : Nat} {g : Image} (image : s.image i = some g) (ok : Bool) :
    s.commitDone i ok = match s.loadFault g ok with
      | none => (s.modImage i fun x => { x with st := if x.st = .verifying then .verified else x.st, digest := s.manifestDigest x }).mgmtOwn
        g.gseq (Reply.plain St.ok)
      | some f => (s.modImage i fun x => { x with st := if x.st = .verifying then .failed else x.st, digest := s.manifestDigest x }).mgmtOwn
        g.gseq ⟨f.status, s.devIndex, f.detail, []⟩ := by
  unfold State.commitDone
  simp only [image]
  cases s.loadFault g ok <;> rfl

theorem execCommitChecksDone_of_open {s : State} {i : Nat} {g : Image} {c : CmdRec} (image : s.image i = some g) (cmd : s.cmd g.gseq = some c)
    (commit : c.opcode = 0x22) (undone : c.ownDone = false) (ok : Bool) : execCommitChecksDone i ok s = settled (s.commitDone i ok) := by
  unfold execCommitChecksDone
  simp only [image]
  exact if_pos (by simp [cmd, commit, undone])

theorem State.tokenized_of_good {s : State} {n : Nat} {c : CmdRec} {q : Prompt} {g : Image} {d : Descr} {k : TokTable} {ids : List Nat}
    (cmd : s.cmd n = some c) (prompt : c.prompt = some q) (text : q.tokens = none) (undone : c.ownDone = false) (image : s.image q.imageId = some g)
    (descr : s.descr g = some d) (table : s.tokTable g = some k) (encoded : k.encode q.text = .ok ids)
    (good : s.tokensBad g d { q with tokens := some (q.pre ++ ids ++ q.post) } = none) :
    s.tokenized n = (s.modCmd n fun x => { x with prompt := some { q with tokens := some (q.pre ++ ids ++ q.post) } }).sendCommand n 0x31 c.cls c.session
      c.seq (beNat (beBytes 48 (Config.sha384 c.payload) |>.take 8))
      (c.payload.take (128 + 16 * q.pages.length + 4 * (q.pre.length + q.post.length)) ++ ids.flatMap (beBytes 4)) := by
  unfold State.tokenized
  simp only [cmd, prompt]
  refine (if_neg (by simp [text, undone])).trans ?_
  simp only [image, descr, table, encoded, good, Option.bind_some, Option.map_some]

/-- Settles O54: each command acts by its case of `applyMgmt`; the checks of a commit move the image from VERIFYING. -/
theorem managementAndCommits : Obligations.ManagementAndCommits := by
  unfold Obligations.ManagementAndCommits
  refine ⟨fun s g i b ok => ?_, fun s i ok g c image cmd commit undone verifying => ?_, fun s n head => if_pos head,
    fun s n c q g d k ids => State.tokenized_of_good⟩
  · intro done
    have say : ∀ {r r' : Reply × State}, r = r' → (some r.1, r.2) = (some r'.1, r'.2) := fun eq => by rw [eq]
    refine ⟨fun head => ?_, fun named => ?_, fun other => ?_, rfl, fun good => ?_, fun good => ?_, fun good => ?_, fun good => ?_,
      fun c cmd run recent open_ tiles undone queued host => ?_, fun named x session open_ closed level => ?_⟩
    · exact congrArg done (if_pos head)
    · have write_ := State.writeReg_of_named named i
      have memory : ∀ {m}, s.memStatus (s.levelOf i) true (beAt b 8 8) (beAt b 16 4) = m → s.memWrite i b = _ := fun eq =>
        (State.memWrite_of_named named i).trans (congrArg (Option.elim · _ _) eq)
      intro a
      refine ⟨fun may => say (write_.trans (if_pos may)), fun no => say (write_.trans (if_neg (Bool.eq_false_iff.1 no))), fun allowed => say (memory allowed),
        fun st refused => say (memory refused), congrArg done (if_pos named)⟩
    · exact ⟨say (State.writeReg_of_other other i), say (State.memWrite_of_other other i), congrArg done (if_neg other)⟩
    · unfold State.applyMgmt
      simp only [good]
      rfl
    · unfold State.applyMgmt
      simp only [good]
    · unfold State.applyMgmt
      simp only [good]
      rfl
    · unfold State.applyMgmt
      simp only [good]
    · have byHost : (i != 0) = true := bne_iff_ne.2 host
      exact say ((congrArg (s.cancel _) byHost).trans (State.cancel_of_queued cmd run recent open_ tiles undone queued))
    · refine (say (State.debugUnlock_of_level1 named session open_ closed level ok)).trans ?_
      split <;> rfl
  · exact (execCommitChecksDone_of_open image cmd commit undone ok).trans (congrArg settled (State.commitDone_of_image image ok))

end Sys2Proof.Machine
end

section
/-! PROOFS. The starts of queued commands and of chunks, the end of a hold and the freeze of a drained context (O56). -/

namespace Sys2Proof.Machine

open Sys2Proof

/-- A command at the front of a queue whose slot is free starts with the arguments of its kind (R292). -/
theorem State.startFront_of_command {s : State} {k n : Nat} {rest : List Nat} {c : CmdRec} (queue : s.classQueue k = n :: rest) (cmd : s.cmd n = some c)
    (command : c.prompt = none) (slot : s.ctx k = none) (may : s.mayStart = true) :
    s.startFront k = (s.popQueue k 1).startCmd (if c.opcode = 0x30 then
        ⟨[c.gseq], k, beAt c.payload 4 4, beAt c.payload 8 2, payloadSegs c.payload, payloadBinds c.payload, payloadPages c.payload⟩
      else ⟨[c.gseq], k, beAt c.payload 4 4, (((s.image (beAt c.payload 4 4)).bind s.descr).map (·.scoreSchedule)).getD 0,
        [⟨beAt c.payload 12 1, 0, beAt c.payload 12 1⟩], [], []⟩) := by
  unfold State.startFront
  simp only [queue, List.head?_cons, Option.bind_some, cmd]
  exact if_neg (by simp [command, slot, may])

/-- With prompts at the front of a queue whose slot is free, the head starts a chunk once one is due, and a member as many as it is told (R317). -/
theorem State.formChunk_of_prompts {s : State} {k n : Nat} {q : Prompt} {qs : List Prompt} {g : Image} {d : Descr}
    (front : s.frontPrompts k = q :: qs) (slot : s.ctx k = none) (may : s.mayStart = true) (image : s.image q.imageId = some g) (descr : s.descr g = some d) :
    s.formChunk k n = if s.isHead = true then
        if d.chunkTarget ≤ ((q :: qs).map fun p => (p.tokens.getD []).length).sum ∨ ∃ p ∈ q :: qs, p.expired = true
        then s.startChunk k (s.foldCount g d (q :: qs) []) g d else s
      else s.startChunk k (min (max n 1) (q :: qs).length) g d := by
  unfold State.formChunk
  simp only [front]
  refine (if_neg (by simp [slot, may])).trans ?_
  simp only [image, descr, Bool.or_eq_true, decide_eq_true_eq, List.any_eq_true]
  rfl

/-- The end of a hold marks the prompt and lets its class form a chunk; a command that started, or has no prompt, has no hold. -/
theorem execMaxHold_of_command {s : State} {n : Nat} {c : CmdRec} (cmd : s.cmd n = some c) :
    execMaxHold n s = if c.prompt.isNone || c.state != 0 then .next s
      else settled ((s.modCmd n fun x => { x with prompt := x.prompt.map fun p => { p with expired := true } }).formChunk c.cls 1) := by
  unfold execMaxHold
  simp only [cmd]

theorem execContextFreeze_of_drained {s : State} {k : Fin 4} {x : Ctx} (ctx : s.ctx k = some x) (draining : x.draining = true) (thawed : x.frozen = false)
    (drained : ∀ c ∈ s.slotCores k, ∀ u < 8, ((s.core c).unit u).cur = none) : execContextFreeze k s = settled (s.freezeCtx k) := by
  have idle : ((s.slotCores k).any fun c => (List.range 8).any fun u => ((s.core c).unit u).cur.isSome) = false := by
    simp only [List.any_eq_false]
    intro c core some_
    obtain ⟨u, unit, cur⟩ := List.any_eq_true.1 some_
    simp [drained c core u (List.mem_range.1 unit)] at cur
  unfold execContextFreeze
  simp only [ctx]
  exact if_neg (by simp [draining, thawed, idle])

/-- Settles O56: a start takes the arguments of the command's kind, and a chunk starts when it is due. -/
theorem commandsAndChunksStart : Obligations.CommandsAndChunksStart := by
  unfold Obligations.CommandsAndChunksStart
  refine ⟨fun s k n rest c queue cmd command slot may => ?_, fun s k n q qs g d front slot may image descr => ?_, fun s n c cmd => ?_,
    fun s k x ctx draining thawed drained => execContextFreeze_of_drained ctx draining thawed drained⟩
  · have start := State.startFront_of_command queue cmd command slot may
    exact ⟨fun exec_ => congrArg settled (start.trans (congrArg _ (if_pos exec_))), fun score => congrArg settled (start.trans (congrArg _ (if_neg score)))⟩
  · have chunk := State.formChunk_of_prompts (n := n) front slot may image descr
    refine ⟨fun head due => congrArg settled (chunk.trans ?_), fun head notDue => congrArg settled (chunk.trans ?_),
      fun member => congrArg settled (chunk.trans (if_neg (Bool.eq_false_iff.1 member)))⟩
    · exact (if_pos head).trans (if_pos due)
    · exact (if_pos head).trans (if_neg notDue)
  · have hold := execMaxHold_of_command cmd
    refine ⟨fun prompt waits => hold.trans (if_neg ?_), fun none_ => hold.trans (if_pos ?_)⟩
    · simpa [waits] using prompt
    · simpa using none_

end Sys2Proof.Machine
end

section
/-! PROOFS. Frames, PFC and the Ethernet port (O57). -/

namespace Sys2Proof.Machine

open Sys2Proof

/-! ### One bit of a number replaced -/

/-- A number with bit `p` cleared, and then set or not, is its bits above, that bit, and its bits below. -/
theorem withBit_eq (x p : Nat) (on : Bool) :
    (x - if x.testBit p then 2 ^ p else 0) + (if on then 2 ^ p else 0) = 2 ^ p * (2 * (x / 2 ^ p / 2) + on.toNat) + x % 2 ^ p := by
  have low := Nat.div_add_mod x (2 ^ p)
  have bit : x / 2 ^ p = 2 * (x / 2 ^ p / 2) + (x.testBit p).toNat := by
    rw [Nat.toNat_testBit]
    omega
  generalize x / 2 ^ p / 2 = q at *
  rw [bit, Nat.mul_add] at low
  rw [Nat.mul_add]
  clear bit
  generalize x.testBit p = was at *
  cases was <;> cases on <;> simp at low ⊢ <;> omega

theorem withBit_testBit (x p : Nat) (on : Bool) (j : Nat) :
    ((x - if x.testBit p then 2 ^ p else 0) + if on then 2 ^ p else 0).testBit j = if j = p then on else x.testBit j := by
  rw [withBit_eq, Nat.testBit_two_pow_mul_add _ (Nat.mod_lt _ (Nat.two_pow_pos p))]
  obtain below | rfl | above := lt_trichotomy j p
  · rw [if_pos below, if_neg below.ne, Nat.testBit_mod_two_pow, decide_eq_true below, Bool.true_and]
  · rw [if_neg (lt_irrefl j), if_pos rfl, Nat.sub_self, Nat.testBit_zero]
    cases on <;> simp
  · obtain ⟨k, rfl⟩ : ∃ k, j = p + 1 + k := ⟨j - (p + 1), by omega⟩
    have half : (2 * (x / 2 ^ p / 2) + on.toNat) / 2 = x / 2 ^ p / 2 := by
      have := on.toNat_le
      omega
    rw [if_neg (by omega), if_neg (by omega), show p + 1 + k - p = k + 1 by omega, Nat.testBit_add_one, half, ← Nat.testBit_add_one,
      Nat.testBit_div_two_pow, show k + 1 + p = p + 1 + k by omega]

/-! ### Frames and PFC -/

theorem State.frameIn_of_up {s : State} (booted : s.brd.booted = true) (up : s.ethUp = true) (f : State → State) :
    s.frameIn f = f ((s.count48 (.eth 0) 0x48 1).wakeOn) :=
  if_pos (by simp [booted, up])

theorem State.frameIn_of_down {s : State} (down : s.brd.booted = false ∨ s.ethUp = false) (f : State → State) : s.frameIn f = s :=
  if_neg (by rcases down with off | off <;> simp [off])

/-- A PFC frame sets the pause of its priority as it says, if `PFC_EN` names that priority. -/
theorem State.pfcIn_of_enabled {s : State} {k : Nat} (on : Bool) (enabled : bitOf (s.rfield (.eth 0) 0xC 16 8) k = true) :
    s.pfcIn k on = ((s.count48 (.eth 0) 0x58 1).modSvc fun v => { v with
      paused := (s.svc.paused - if s.svc.paused.testBit k then 2 ^ k else 0) + if on then 2 ^ k else 0 }).portGo := by
  unfold State.pfcIn
  refine (if_neg (by simp [enabled])).trans ?_
  cases on <;> rfl

/-! ### The port -/

theorem execEthPortUp_of_ready {s : State} (addressed : s.addressed = true) (booted : s.brd.booted = true) (awake : s.brd.deep = false) (full : Bool) :
    let s1 := (s.rput (.eth 0) 4 1 2 (if full then 1 else 2)).modSvc fun v => { v with relayed := false }
    execEthPortUp full s =
      settled ({ s1 with brd := { s1.brd with steps := if s1.brd.steps.contains 9 then s1.brd.steps else s1.brd.steps ++ [9] } } : State).portGo := by
  unfold execEthPortUp
  exact if_neg (by simp [addressed, booted, awake])

theorem execEthPortUp_of_unready {s : State} (unready : s.addressed = false ∨ s.brd.booted = false ∨ s.brd.deep = true) (full : Bool) :
    execEthPortUp full s = .next s :=
  if_pos (by rcases unready with off | off | off <;> simp [off])

/-- Settles O57: each frame acts by its own case of a port that is up, and the pause bit of a priority is replaced alone. -/
theorem ethernetServices : Obligations.EthernetServices := by
  unfold Obligations.EthernetServices
  intro s
  refine ⟨fun f booted up => State.frameIn_of_up booted up f, fun f down => State.frameIn_of_down down f, fun v6 a b data => ⟨rfl, rfl⟩, fun a => ?_, rfl,
    fun k on => rfl, fun k on off => ?_, fun k on enabled => ?_, fun full addressed booted awake wf => ?_,
    fun full unready => execEthPortUp_of_unready unready full, fun down => congrArg settled (if_pos (by simp [down])), fun up => ?_⟩
  · simp [State.ownAddr]
  · exact if_pos (by simp [off])
  · refine ⟨_, State.pfcIn_of_enabled on enabled, (withBit_testBit _ k on k).trans (if_pos rfl), fun j other => (withBit_testBit _ k on j).trans (if_neg other)⟩
  · refine ⟨_, execEthPortUp_of_ready addressed booted awake full, (State.rfield_rput s wf.1 (.eth 0) 4 _ (by decide)).trans (by cases full <;> rfl),
      rfl, ?_, rfl, rfl⟩
    change 9 ∈ if s.brd.steps.contains 9 then s.brd.steps else s.brd.steps ++ [9]
    split
    next done => exact List.contains_iff_mem.1 done
    next => simp
  · intro t u by_ w
    have down : s.ethDown = if by_ = true then w.portGo else (w.svc.egress.map (·.gseq)).foldl (fun x g => x.failPrompt g St.egressPortDown 0) w :=
      if_neg (by simp [up])
    refine (congrArg settled down).trans ?_
    split <;> rfl

end Sys2Proof.Machine
end

section
/-! PROOFS. Connections for KV egress (O58). -/

namespace Sys2Proof.Machine

open Sys2Proof

/-! ### Reading and replacing a connection -/

theorem State.setConn_conns (s : State) {i : Nat} (h : i < 64) (x : Conn) : (s.setConn i x).svc.conns = s.svc.conns.set i x h := by
  unfold State.setConn
  rw [dif_pos h]
  rfl

theorem State.conn_congr {s t : State} (same : s.svc.conns = t.svc.conns) (i : Nat) : s.conn i = t.conn i := by
  unfold State.conn
  simp only [same]

theorem State.conn_of_lt (s : State) {i : Nat} (h : i < 64) : s.conn i = s.svc.conns[i] := by
  unfold State.conn
  congr 1
  omega

theorem State.conn_setConn (s : State) {i : Nat} (h : i < 64) (x : Conn) : (s.setConn i x).conn i = x := by
  rw [State.conn_of_lt _ h]
  simp only [s.setConn_conns h, Vector.getElem_set_self]

/-! ### Requests -/

theorem State.repIn_of_good {s : State} {i va key len : Nat} {p : List Byte} (requested : (s.conn i).st = .requested)
    (region : regionOfRep p = some (va, key, len)) :
    s.repIn i p = ((s.modConn i fun x => { x with st := .ready, va := va, rkey := key, len := len }).emit (.cm i 1)).connPrompts i := by
  unfold State.repIn
  simp only [region]
  exact if_neg (not_not_intro requested)

theorem State.repIn_of_bad {s : State} {i : Nat} {p : List Byte} (requested : (s.conn i).st = .requested) (region : regionOfRep p = none) :
    s.repIn i p = (s.emit (.cm i 2)).connFails i 1 := by
  unfold State.repIn
  simp only [region]
  exact if_neg (not_not_intro requested)

theorem State.reqAgain_of_requested {s : State} {i : Nat} (requested : (s.conn i).st = .requested) :
    s.reqAgain i = if (s.conn i).reqs < 3 then (s.setConn i { s.conn i with reqs := (s.conn i).reqs + 1 }).emit (.cm i 0) else s.connFails i 1 :=
  if_neg (not_not_intro requested)

/-! ### Acknowledgements and attempts -/

/-- What an acknowledgement makes of a connection; its prompts and counters are counted beside it. -/
theorem State.conn_ackUpTo {s : State} {i next : Nat} (h : i < 64) (ready : (s.conn i).st = .ready)
    (covered : (next + 2 ^ 24 - (s.conn i).acked) % 2 ^ 24 ≤ (s.conn i).inFlight) (some_ : 0 < (next + 2 ^ 24 - (s.conn i).acked) % 2 ^ 24) :
    let x := s.conn i
    (s.ackUpTo i next).conn i = { x with
      acked := next % 2 ^ 24
      unacked := x.unacked.filter fun m => !decide ((m.psn + m.packets + 2 ^ 24 - x.acked) % 2 ^ 24 ≤ (next + 2 ^ 24 - x.acked) % 2 ^ 24)
      retries := 0, rnrs := 0 } := by
  intro x
  unfold State.ackUpTo
  refine (congrArg (State.conn · i) (if_neg ?_)).trans ?_
  · simp only [ready, ne_eq, not_true_eq_false, false_or, not_or, not_lt]
    exact ⟨covered, some_.ne'⟩
  · refine Eq.trans ?_ (s.conn_setConn h _)
    refine State.conn_congr (foldl_keeps (P := fun t : State => t.svc.conns = _) (fun t m same => ?_) _ rfl) i
    refine Eq.trans ?_ same
    split <;> rfl

theorem State.retryConn_of_unacked {s : State} {i : Nat} (ready : (s.conn i).st = .ready) (unacked : (s.conn i).unacked ≠ []) :
    s.retryConn i = if field (s.conn i).ctrl.toNat 5 3 ≤ (s.conn i).retries then s.connFails i 2
      else (s.setConn i { s.conn i with retries := (s.conn i).retries + 1 }).resendConn i :=
  if_neg (by simp [ready, unacked])

/-- An RNR NAK lets the connection wait once more, counting from zero if it acknowledged anything; an access NAK fails it. -/
theorem State.nakIn_of_ready {s : State} {i : Nat} (ready : (s.conn i).st = .ready) (psn : Nat) :
    let t := (s.count48 (.eth 1) 0x38 1).ackUpTo i (psn % 2 ^ 24)
    let n := if (t.conn i).acked = (s.conn i).acked then (s.conn i).rnrs else 0
    s.nakIn i psn .access = t.connFails i 3 ∧
    s.nakIn i psn .rnr = if field (t.conn i).ctrl.toNat 8 3 ≤ n then t.connFails i 4 else t.modConn i fun y => { y with rnrs := n + 1, rnrWait := true } := by
  intro t n
  have counted : (if decide ((t.conn i).acked ≠ (s.conn i).acked) then 0 else (s.conn i).rnrs) = n := by
    simp only [decide_eq_true_eq, ne_eq, ite_not]
    rfl
  refine ⟨if_neg (not_not_intro ready), (if_neg (not_not_intro ready)).trans ?_⟩
  exact congrArg (fun m => if field (t.conn i).ctrl.toNat 8 3 ≤ m then t.connFails i 4 else t.modConn i fun y => { y with rnrs := m + 1, rnrWait := true })
    counted

/-! ### Rates -/

theorem State.cnpIn_eq (s : State) (i : Nat) :
    let t := s.count48 (.eth 1) 0x40 1
    s.cnpIn i = if (s.conn i).cnpAt = 0 ∨ (s.conn i).cnpAt + 5000 ≤ s.aonClk
      then t.setConn i { s.conn i with rate := (s.conn i).rate / 2, cnpAt := max s.aonClk 1 } else t := rfl

/-- Settles O58: each packet of a connection acts by its own case; an acknowledgement keeps the messages it does not cover. -/
theorem roceConnections : Obligations.RoceConnections := by
  unfold Obligations.RoceConnections
  intro s i x seen up
  have framed : up → ∀ {f t}, f seen = t → s.frameIn f = t := fun on f t eq => (State.frameIn_of_up on.1 on.2 f).trans eq
  refine ⟨fun p on requested same => ?_, fun requested => ?_, fun psn on => congrArg settled (framed on rfl),
    fun psn k on => congrArg settled (framed on rfl), fun psn ready => ?_, fun ready unacked => ?_, fun waits => if_pos waits,
    fun n ready covered some_ => ?_, fun on ready same clock => ?_, fun ready late => if_pos ⟨ready, late⟩⟩
  · have asked : (seen.conn i).st = .requested := (congrArg Conn.st same).trans requested
    exact ⟨fun va key len region => congrArg settled (framed on (State.repIn_of_good asked region)),
      fun region => congrArg settled (framed on (State.repIn_of_bad asked region)), congrArg settled (framed on (if_pos asked))⟩
  · have again := State.reqAgain_of_requested requested
    exact ⟨fun few => congrArg settled (again.trans (if_pos few)), fun many => congrArg settled (again.trans (if_neg (not_lt.2 many)))⟩
  · obtain ⟨access, rnr⟩ := State.nakIn_of_ready ready psn
    exact ⟨access, fun many => rnr.trans (if_pos many), fun few => rnr.trans (if_neg (not_le.2 few))⟩
  · have retry := State.retryConn_of_unacked ready unacked
    exact ⟨fun many => congrArg settled (retry.trans (if_pos many)), fun few => congrArg settled (retry.trans (if_neg (not_le.2 few)))⟩
  · intro t bounded
    have window : n < 2 ^ 24 := covered.trans_lt (Nat.mod_lt _ (by decide))
    have ahead : ((x.acked + n) % 2 ^ 24 + 2 ^ 24 - x.acked) % 2 ^ 24 = n := by omega
    have acked := State.conn_ackUpTo (s := s) (next := (x.acked + n) % 2 ^ 24) i.isLt ready (ahead.trans_le covered) (some_.trans_eq ahead.symm)
    refine ⟨(congrArg Conn.acked acked).trans (Nat.mod_mod _ _), congrArg Conn.retries acked, fun m mem => ?_⟩
    rw [show (t.conn i).unacked = _ from congrArg Conn.unacked acked]
    simp only [List.mem_filter, Bool.not_eq_true', decide_eq_false_iff_not, not_le]
    exact ⟨fun kept => ahead ▸ kept.2, fun past => ⟨mem, ahead.symm ▸ past⟩⟩
  · intro t
    have cnp := seen.cnpIn_eq i
    rw [same, clock] at cnp
    have takes : ∀ {u}, seen.cnpIn i = u → exec (.cnp i) s = .next u := fun eq => congrArg Host.Outcome.next
      (framed on ((if_pos ((congrArg Conn.st same).trans ready)).trans eq))
    exact ⟨fun free => takes (cnp.trans (if_pos free)), fun marked soon => takes (cnp.trans (if_neg (by omega)))⟩

end Sys2Proof.Machine
end

section
/-! PROOFS. What the operations of a reset and of start-up leave: the registers that they do not name, and everything else but a due alert. -/

namespace Sys2Proof.Machine

open Sys2Proof

/-! ### The register at an address is as before -/

/-- From `s` to `t` the register file keeps its canonical form and what it stores at address `a`. -/
def State.KeepsAt (a : Nat) (s t : State) : Prop :=
  swf 0#32 s.regs = true → swf 0#32 t.regs = true ∧ sget 0#32 t.regs a = sget 0#32 s.regs a

namespace State.KeepsAt

variable {a : Nat} {s t u : State}

theorem of_regs (h : t.regs = s.regs) : s.KeepsAt a t := fun wf => ⟨h ▸ wf, by rw [h]⟩

theorem refl (s : State) : s.KeepsAt a s := of_regs rfl

theorem trans (h : s.KeepsAt a t) (k : t.KeepsAt a u) : s.KeepsAt a u := fun wf =>
  let ⟨wf', eq⟩ := h wf
  let ⟨wf'', eq'⟩ := k wf'
  ⟨wf'', eq'.trans eq⟩

theorem rset (s : State) {p : Page} {off : Nat} (ne : a ≠ p.base + off) (v : Word) : s.KeepsAt a (s.rset p off v) := fun wf =>
  ⟨swf_sset _ _ wf, (sget_sset _ _ wf _).trans (if_neg ne)⟩

theorem rput (s : State) {p : Page} {off : Nat} (ne : a ≠ p.base + off) (lo width v : Nat) : s.KeepsAt a (s.rput p off lo width v) := rset s ne _

theorem ror (s : State) {p : Page} {off : Nat} (ne : a ≠ p.base + off) (mask : Nat) : s.KeepsAt a (s.ror p off mask) := rset s ne _

theorem count48 (s : State) {p : Page} {off : Nat} (low : a ≠ p.base + off) (high : a ≠ p.base + (off + 4)) (n : Nat) :
    s.KeepsAt a (s.count48 p off n) := (rset s low _).trans (rset _ high _)

theorem rget_eq {q : Page} {o : Nat} (h : s.KeepsAt (q.base + o) t) (wf : swf 0#32 s.regs = true) : t.rget q o = s.rget q o :=
  congrArg (· ^^^ q.resetVal o) (h wf).2

theorem rfield_eq {q : Page} {o lo width : Nat} (h : s.KeepsAt (q.base + o) t) (wf : swf 0#32 s.regs = true) :
    t.rfield q o lo width = s.rfield q o lo width :=
  congrArg (fun w : Word => field w.toNat lo width) (h.rget_eq wf)

theorem startSt (s : State) (status : a ≠ Page.aon.base + 4) (detail : a ≠ Page.aon.base + 0x18) (st d : Nat) : s.KeepsAt a (s.startSt st d) :=
  (rset s status _).trans (rset _ detail _)

theorem toSt (s : State) (status : a ≠ Page.aon.base + 4) (n : Nat) : s.KeepsAt a (s.toSt n) := by
  unfold State.toSt
  split
  · exact refl s
  · exact (rset s status _).trans (of_regs rfl)

theorem showRails (s : State) (status : a ≠ Page.aon.base + 4) (detail : a ≠ Page.aon.base + 0x18) : s.KeepsAt a s.showRails := by
  unfold State.showRails
  split
  · exact startSt s status detail _ _
  · exact refl s

theorem setErrQueue (s : State) (i : Nat) (q : ErrQueue) : s.KeepsAt a (s.setErrQueue i q) := by
  refine of_regs ?_
  unfold State.setErrQueue
  split <;> rfl

theorem lostRec (s : State) (outside : ∀ off, a ≠ Page.err.base + off) : s.KeepsAt a s.lostRec :=
  (count48 s (outside _) (outside _) 1).trans (rset _ (outside _) _)

/-- A record touches the registers of the error aggregator alone. -/
theorem raise (s : State) (outside : ∀ off, a ≠ Page.err.base + off) (isl : Nat) (r : ErrRec) : s.KeepsAt a (s.raise isl r) := by
  unfold State.raise
  dsimp only
  split
  · exact (setErrQueue s _ _).trans (count48 _ (outside _) (outside _) 1)
  · split
    · exact setErrQueue s _ _
    · split
      · split <;> exact (setErrQueue s _ _).trans (lostRec _ outside)
      · exact (setErrQueue s _ _).trans (lostRec _ outside)

theorem leaveOut (s : State) (status : a ≠ Page.aon.base + 4) (detail : a ≠ Page.aon.base + 0x18) (group : a ≠ Page.aon.base + 0x1C) (st d : Nat) :
    s.KeepsAt a (s.leaveOut st d) := by
  unfold State.leaveOut
  split
  · exact refl s
  · exact ((toSt s status 6).trans (startSt _ status detail _ _)).trans (rset _ group _)

end State.KeepsAt

/-- The canonical form of the register file is kept; the address serves only to name one. -/
theorem State.KeepsAt.wf {s t : State} {a : Nat} (h : s.KeepsAt a t) (wf : swf 0#32 s.regs = true) : swf 0#32 t.regs = true := (h wf).1

/-! ### Fields of the start-up status -/

/-- A field replaced leaves every other field of its register. -/
theorem State.rfield_rput_apart {s : State} (wf : swf 0#32 s.regs = true) (p : Page) (off : Nat) {lo width lo' width' : Nat} (v : Nat)
    (apart : lo' + width' ≤ lo ∨ lo + width ≤ lo') (fits : lo' + width' ≤ 32) :
    (s.rput p off lo width v).rfield p off lo' width' = s.rfield p off lo' width' := by
  unfold State.rfield State.rput
  rw [State.rget_rset s p off _ wf]
  refine Nat.eq_of_testBit_eq fun i => ?_
  rw [field_testBit, field_testBit]
  by_cases inside : i < width'
  · rw [withField_testBit _ _ _ (by omega), if_neg (by omega)]
  · simp [inside]

theorem State.rfield_toSt {s : State} (wf : swf 0#32 s.regs = true) {n : Nat} (h : n < 16) : (s.toSt n).rfield .aon 4 1 4 = n := by
  unfold State.toSt
  split
  next eq => exact eq
  next => exact (State.rfield_rput s wf .aon 4 n (by decide)).trans (Nat.mod_eq_of_lt h)

/-- The start-up status does not show in the state field. -/
theorem State.rfield_startSt {s : State} (wf : swf 0#32 s.regs = true) (st d : Nat) : (s.startSt st d).rfield .aon 4 1 4 = s.rfield .aon 4 1 4 := by
  have shown := State.rfield_rput_apart wf .aon 4 st (lo := 16) (width := 16) (lo' := 1) (width' := 4) (by decide) (by decide)
  exact ((State.KeepsAt.rset (s.rput .aon 4 16 16 st) (a := Page.aon.base + 4) (by decide) _).rfield_eq (swf_sset _ _ wf)).trans shown

theorem State.rfield_showRails {s : State} (wf : swf 0#32 s.regs = true) : s.showRails.rfield .aon 4 1 4 = s.rfield .aon 4 1 4 := by
  unfold State.showRails
  split
  · exact State.rfield_startSt wf ..
  · rfl

/-! ### Everything else -/

/-- `t` differs from `s` in stored register values and in whether an alert is due only. -/
def State.AlertOnly (s t : State) : Prop := ∃ regs alert, t = { s with regs := regs, brd := { s.brd with alertState := alert } }

theorem State.AlertOnly.refl (s : State) : s.AlertOnly s := ⟨s.regs, s.brd.alertState, rfl⟩

theorem State.AlertOnly.rset {s t : State} (h : s.AlertOnly t) (p : Page) (off : Nat) (v : Word) : s.AlertOnly (t.rset p off v) := by
  obtain ⟨regs, alert, rfl⟩ := h
  exact ⟨_, alert, rfl⟩

theorem State.AlertOnly.startSt {s t : State} (h : s.AlertOnly t) (st d : Nat) : s.AlertOnly (t.startSt st d) := (h.rset ..).rset ..

theorem State.AlertOnly.toSt {s t : State} (h : s.AlertOnly t) (n : Nat) : s.AlertOnly (t.toSt n) := by
  unfold State.toSt
  split
  · exact h
  · obtain ⟨regs, alert, rfl⟩ := h
    exact ⟨_, true, rfl⟩

theorem State.AlertOnly.showRails {s t : State} (h : s.AlertOnly t) : s.AlertOnly t.showRails := by
  unfold State.showRails
  split
  · exact h.startSt ..
  · exact h

theorem State.AlertOnly.leaveOut {s t : State} (h : s.AlertOnly t) (st d : Nat) : s.AlertOnly (t.leaveOut st d) := by
  unfold State.leaveOut
  split
  · exact h
  · exact ((h.toSt 6).startSt ..).rset ..

end Sys2Proof.Machine
end

section
/-! PROOFS. Resets, boot and start-up (O59). -/

namespace Sys2Proof.Machine

open Sys2Proof

/-! ### What a reset leaves -/

/-- `t` differs from `s` in stored register values, in canonical form if those of `s` are, and in the links only. -/
def State.LinksOnly (s t : State) : Prop :=
  ∃ regs links, (swf 0#32 s.regs = true → swf 0#32 regs = true) ∧ t = { s with regs := regs, links := links }

theorem State.LinksOnly.portTo {s t : State} (h : s.LinksOnly t) (p : Nat) (st : PortSt) : s.LinksOnly (t.portTo p st) := by
  obtain ⟨regs, links, wf, rfl⟩ := h
  unfold State.portTo State.modPort State.setPort
  split
  · exact ⟨_, _, fun w => swf_sset _ _ (swf_sset _ _ (swf_sset _ _ (wf w))), rfl⟩
  · exact ⟨_, _, fun w => swf_sset _ _ (swf_sset _ _ (swf_sset _ _ (wf w))), rfl⟩

theorem State.stopWork_facts (s : State) :
    s.stopWork.sec = s.sec ∧ s.stopWork.err = s.err ∧ s.stopWork.aonClk = s.aonClk ∧ s.stopWork.brd = s.brd ∧
      (swf 0#32 s.regs = true → swf 0#32 s.stopWork.regs = true) := by
  have ports : s.LinksOnly ((List.range 8).foldl (fun s p => s.portTo p .down) s) :=
    foldl_keeps (P := s.LinksOnly) (fun t p h => h.portTo p .down) _ ⟨s.regs, s.links, id, rfl⟩
  obtain ⟨regs, links, wf, eq⟩ := ports
  unfold State.stopWork
  rw [eq]
  exact ⟨rfl, rfl, rfl, rfl, wf⟩

/-- The state after reset with what no power-on reset clears: the waiting commands, the sent record, the free values drawn and the fuses. -/
def State.afterPower (s : State) (regs : List (Nat × Word)) (brd : Board) : State :=
  { State.reset with pending := s.pending, out := s.out, freeCtr := s.freeCtr, sec := s.sec.afterReset, regs := regs, brd := brd }

theorem State.resetPower_eq (s : State) : ∃ regs alert, swf 0#32 regs = true ∧ s.resetPower = s.afterPower regs { Board.empty with
    resetN := s.brd.resetN, brownRails := s.brd.brownRails, thermtrip := s.brd.thermtrip, alertState := alert } := by
  unfold State.resetPower State.toSt
  dsimp only
  split
  · split
    · exact ⟨[], _, rfl, rfl⟩
    · exact ⟨_, true, swf_sset _ _ rfl, rfl⟩
  · exact ⟨[], _, rfl, rfl⟩

/-- PWRGOOD rises: the state after reset, in start-up state RESET. -/
theorem execPowerOnReset_facts (s : State) :
    ∃ t, execPowerOnReset s = .next t ∧ t.sec.fuses = s.sec.fuses ∧ t.brd.pwrgood = true ∧ t.brd.resetN = false ∧ t.brd.booted = false ∧
      t.mem = Mem.empty ∧ t.err.log = [] ∧ t.aonClk = 0 ∧ t.cores = State.reset.cores ∧ t.rfield .aon 4 1 4 = 0 := by
  obtain ⟨regs, alert, wf, eq⟩ := s.resetPower_eq
  have state : ∀ z : State, swf 0#32 z.regs = true → (z.toSt 0).showRails.rfield .aon 4 1 4 = 0 := fun z wfz =>
    (State.rfield_showRails ((State.KeepsAt.toSt (a := 0) z (by decide) 0).wf wfz)).trans (State.rfield_toSt wfz (by decide))
  unfold execPowerOnReset
  rw [eq]
  refine ⟨_, rfl, ?_⟩
  dsimp only
  generalize hz : ({ s.afterPower regs _ with brd := _ } : State) = z
  have shown := state z (hz ▸ wf)
  obtain ⟨regs', alert', only⟩ := ((State.AlertOnly.refl z).toSt 0).showRails
  rw [only] at shown ⊢
  subst hz
  exact ⟨rfl, rfl, rfl, rfl, rfl, rfl, rfl, rfl, shown⟩

/-- A device reset of a device that has not tripped (R426, R427). -/
theorem State.resetFall_of_running {s : State} (good : s.brd.pwrgood = true) (running : s.brd.resetN = true) (cool : s.brd.thermtrip = false) :
    s.resetFall = State.showRails { s.resetDevice with brd := { s.resetDevice.brd with resetN := false } } := by
  unfold State.resetFall
  refine (if_neg (by simp [good, running])).trans ?_
  rw [if_neg (Bool.eq_false_iff.1 cool)]

theorem State.resetDevice_facts (s : State) :
    let t := s.resetDevice
    t.sec.fuses = s.sec.fuses ∧ t.err.log = s.err.log ∧ t.err.nextSeq = s.err.nextSeq ∧ t.aonClk = s.aonClk ∧ t.mem = Mem.empty ∧
      t.brd.booted = false ∧ (swf 0#32 s.regs = true → swf 0#32 t.regs = true ∧ t.rfield .aon 0xC 0 16 = min (s.rfield .aon 0xC 0 16 + 1) 0xFFFF) := by
  obtain ⟨sec, err, clk, -, wf⟩ := s.stopWork_facts
  unfold State.resetDevice
  -- the ports of the stopped device are not to be computed
  generalize s.stopWork = w at *
  refine ⟨congrArg (·.fuses) sec, congrArg (·.log) err, congrArg (·.nextSeq) err, clk, rfl, rfl, fun ws => ?_⟩
  have kept := swf_maskRegs keptBits (wf ws)
  refine ⟨swf_sset _ _ kept, (State.rfield_rput _ ?_ .aon 0xC _ (by decide)).trans (Nat.mod_eq_of_lt (by omega))⟩
  exact kept

theorem State.resetFall_facts {s : State} (good : s.brd.pwrgood = true) (running : s.brd.resetN = true) (cool : s.brd.thermtrip = false) :
    let t := s.resetFall
    t.sec.fuses = s.sec.fuses ∧ t.err.log = s.err.log ∧ t.err.nextSeq = s.err.nextSeq ∧ t.aonClk = s.aonClk ∧ t.mem = Mem.empty ∧
      t.brd.resetN = false ∧ t.brd.booted = false ∧ (s.regsWf → t.rfield .aon 0xC 0 16 = min (s.rfield .aon 0xC 0 16 + 1) 0xFFFF) := by
  intro t
  obtain ⟨fuses, log, seq, clk, mem, booted, counted⟩ := s.resetDevice_facts
  rw [show t = _ from State.resetFall_of_running good running cool]
  clear t
  generalize s.resetDevice = d at *
  have kept := State.KeepsAt.showRails { d with brd := { d.brd with resetN := false } } (a := Page.aon.base + 0xC) (by decide) (by decide)
  have count := fun wf : s.regsWf => (kept.rfield_eq (lo := 0) (width := 16) (counted wf.1).1).trans (counted wf.1).2
  obtain ⟨regs, alert, only⟩ := (State.AlertOnly.refl { d with brd := { d.brd with resetN := false } }).showRails
  rw [only] at count ⊢
  exact ⟨fuses, log, seq, clk, mem, rfl, booted, count⟩

/-- A rail out of range is noted; the always-on rail, and any rail after reset has ended, reset the part (R425). -/
theorem State.brownout_facts {s : State} (good : s.brd.pwrgood = true) (r : Nat) :
    let t := s.brownout r
    r ∈ t.brd.brownRails ∧ t.sec.fuses = s.sec.fuses ∧ (s.brd.resetN = true ∨ r = 6 → t.brd.booted = false ∧ t.mem = Mem.empty) ∧
      (s.brd.resetN = true → r ≠ 6 → t.err.log = s.err.log ∧ t.err.nextSeq = s.err.nextSeq ∧ t.aonClk = s.aonClk) := by
  have noted : r ∈ if s.brd.brownRails.contains r then s.brd.brownRails else s.brd.brownRails ++ [r] := by
    split
    next mem => exact List.contains_iff_mem.1 mem
    next => simp
  obtain ⟨regs, alert, -, power⟩ := s.resetPower_eq
  intro t
  have shown : ∃ z : State, z.AlertOnly t ∧ r ∈ z.brd.brownRails ∧ z.sec.fuses = s.sec.fuses ∧
      (s.brd.resetN = true ∨ r = 6 → z.brd.booted = false ∧ z.mem = Mem.empty) ∧
      (s.brd.resetN = true → r ≠ 6 → z.err.log = s.err.log ∧ z.err.nextSeq = s.err.nextSeq ∧ z.aonClk = s.aonClk) := by
    have rail : t = ite (r = 6) _ _ := if_neg (by simp [good])
    by_cases aon : r = 6
    · rw [rail.trans (if_pos aon), power]
      exact ⟨_, ((State.AlertOnly.refl _).toSt 0).showRails, noted, rfl, fun _ => ⟨rfl, rfl⟩, fun _ other => absurd aon other⟩
    · cases on : s.brd.resetN
      · rw [rail.trans ((if_neg aon).trans (if_pos (by simp [on])))]
        exact ⟨_, (State.AlertOnly.refl _).showRails, noted, rfl, fun reset => absurd reset (by simp [aon]), fun off => absurd off Bool.false_ne_true⟩
      · rw [rail.trans ((if_neg aon).trans (if_neg (by simp [on]))), power]
        exact ⟨_, (State.AlertOnly.refl _).showRails, noted, rfl, fun _ => ⟨rfl, rfl⟩, fun _ _ => ⟨rfl, rfl, rfl⟩⟩
  obtain ⟨z, ⟨regs', alert', only⟩, facts⟩ := shown
  rw [only]
  exact facts

/-! ### Leaving reset -/

theorem execResetNRise_of_low {s : State} (good : s.brd.pwrgood = true) (low : s.brd.resetN = false) (pins : Pins) (f : Flash) :
    execResetNRise pins f s = .next (({ s with brd := { s.brd with resetN := true } } : State).leaveReset pins f) :=
  if_neg (by simp [good, low])

/-- The last rail back in its range lets the part leave reset, if RESET_N is high (R425). -/
theorem State.railBack_of_last {s : State} {r : Nat} (rails : s.brd.brownRails = [r]) (good : s.brd.pwrgood = true) (running : s.brd.resetN = true)
    (pins : Pins) (f : Flash) :
    s.railBack r pins f = (({ s with brd := { s.brd with brownRails := [] } } : State).startSt 0 0).leaveReset pins f := by
  have none_ : s.brd.brownRails.filter (· != r) = [] := by simp [rails]
  unfold State.railBack
  refine (if_neg (by simp [rails])).trans ?_
  rw [none_]
  refine (if_neg (by decide)).trans (if_pos ?_)
  exact Bool.and_eq_true_iff.2 ⟨good, running⟩

theorem State.leaveReset_of_ready {s : State} {pins : Pins} (mission : pins.testMode = false) (cool : s.brd.thermtrip = false)
    (rails : s.brd.brownRails = []) (f : Flash) :
    s.leaveReset pins f = State.boot { s.rset .aon 8 (BitVec.ofNat 32 (put pins.index 0 6 + put (b01 pins.head) 6 1 + put pins.bootSrc 8 2)) with
      devIndex := pins.index } pins f := by
  refine if_neg ?_
  change ¬(pins.testMode || s.brd.thermtrip || !s.brd.brownRails.isEmpty) = true
  simp [mission, cool, rails]

/-- A part in service boots slot A, else slot B, else it halts (R394, R395). -/
theorem State.boot_of_service {s : State} {pins : Pins}
    (life : ((s.toSt 1).startSt 0 0).sec.fuses.lifecycle = 1 ∨ ((s.toSt 1).startSt 0 0).sec.fuses.lifecycle = 2)
    (flash : pins.bootSrc ≠ 2) (strap : pins.bootSrc ≠ 3) (f : Flash) :
    let t := (s.toSt 1).startSt 0 0
    s.boot pins f = if t.slotBoots f f.slotA then t.bootFrom pins f f.slotA false
      else if (t.bootRec 0).slotBoots f f.slotB then (t.bootRec 0).bootFrom pins f f.slotB true
      else ((t.bootRec 0).bootRec 1).halt St.imageSignatureInvalid 1 :=
  (if_neg (by omega)).trans ((if_neg flash).trans (if_neg strap))

/-! ### Training of the memory -/

/-- A number written as a sum of bits has those bits. -/
theorem sum_bits_testBit (p : Nat → Bool) (n : Nat) :
    ((List.range n).map fun c => b01 (p c) * 2 ^ c).sum < 2 ^ n ∧ ∀ c < n, ((List.range n).map fun c => b01 (p c) * 2 ^ c).sum.testBit c = p c := by
  induction n with
  | zero => exact ⟨Nat.one_pos, fun c h => absurd h (Nat.not_lt_zero c)⟩
  | succ n ih =>
    obtain ⟨small, bits⟩ := ih
    simp only [List.range_succ, List.map_append, List.sum_append, List.map_cons, List.map_nil, List.sum_cons, List.sum_nil, Nat.add_zero]
    generalize ((List.range n).map fun c => b01 (p c) * 2 ^ c).sum = x at *
    rw [Nat.add_comm, Nat.mul_comm]
    refine ⟨?_, fun c h => ?_⟩
    · rw [Nat.pow_succ]
      cases p n <;> simp [b01] <;> omega
    · rw [Nat.testBit_two_pow_mul_add _ small]
      split
      next below => exact bits c below
      next above =>
        obtain rfl : c = n := by omega
        cases p c <;> simp [b01]

/-- The channels of a group that came up (R163), one bit each. -/
def chUp (failed : List Nat) (g : Nat) : Nat := ((List.range 10).map fun c => b01 (!failed.contains (10 * g + c)) * 2 ^ c).sum

/-- The state in which every group shows its channels. -/
def State.showChUp (s : State) (failed : List Nat) (n : Nat) : State := (List.range n).foldl (fun s g => s.rput (.mem g) 4 2 10 (chUp failed g)) s

theorem State.showChUp_succ (s : State) (failed : List Nat) (n : Nat) :
    s.showChUp failed (n + 1) = (s.showChUp failed n).rput (.mem n) 4 2 10 (chUp failed n) := by
  unfold State.showChUp
  rw [List.range_succ, List.foldl_append]
  rfl

theorem State.showChUp_only (s : State) (failed : List Nat) (n : Nat) : s.RegsOnly (s.showChUp failed n) :=
  .foldl _ (fun _ _ h => h.rput ..) (.refl s)

/-- Each group shows its own channels, whatever the groups after it show. -/
theorem State.bitOf_showChUp {s : State} (wf : swf 0#32 s.regs = true) (failed : List Nat) (n : Nat) :
    swf 0#32 (s.showChUp failed n).regs = true ∧
      ∀ g < n, ∀ c < 10, bitOf ((s.showChUp failed n).rget (.mem g) 4).toNat (2 + c) = !failed.contains (10 * g + c) := by
  induction n with
  | zero => exact ⟨wf, fun g h => absurd h (Nat.not_lt_zero g)⟩
  | succ n ih =>
    obtain ⟨wf', shown⟩ := ih
    rw [s.showChUp_succ failed n]
    refine ⟨swf_sset _ _ wf', fun g h c hc => ?_⟩
    by_cases last : g = n
    · subst last
      unfold State.rput bitOf
      rw [State.rget_rset _ _ _ _ wf', withField_testBit _ _ _ (by omega), if_pos (by omega), Nat.add_sub_cancel_left]
      exact (sum_bits_testBit (fun c => !failed.contains (10 * g + c)) 10).2 c hc
    · have apart : (Page.mem g).base + 4 ≠ (Page.mem n).base + 4 := by
        rw [Page.base_eq_number, Page.base_eq_number]
        dsimp only [Page.number]
        omega
      rw [(State.KeepsAt.rput _ apart _ _ _).rget_eq wf']
      exact shown g (by omega) c hc

theorem State.mem_stepDone (s : State) (n : Nat) : n ∈ (s.stepDone n).brd.steps := by
  unfold State.stepDone
  split
  next done => exact List.contains_iff_mem.1 done
  next => simp

theorem State.stepDone_mono (s : State) (n : Nat) {k : Nat} (h : k ∈ s.brd.steps) : k ∈ (s.stepDone n).brd.steps := by
  unfold State.stepDone
  split
  · exact h
  · exact List.mem_append_left _ h

/-- A step that is noted changes the list of steps alone. -/
theorem State.stepDone_eq (s : State) (n : Nat) : s.stepDone n = { s with brd := { s.brd with steps := (s.stepDone n).brd.steps } } := by
  unfold State.stepDone
  split <;> rfl

/-- A device that stays out of every group shows it. -/
theorem State.leftOut_leaveOut {s : State} (wf : swf 0#32 s.regs = true) (st d : Nat) : (s.leaveOut st d).leftOut = true := by
  unfold State.leaveOut
  split
  next out => exact out
  next =>
    have wf' : swf 0#32 ((s.toSt 6).startSt st d).regs = true :=
      ((State.KeepsAt.toSt (a := 0) s (by decide) 6).trans (State.KeepsAt.startSt _ (by decide) (by decide) st d)).wf wf
    unfold State.leftOut State.ror bitOf
    rw [State.rget_rset _ _ _ _ wf', BitVec.testBit_toNat, BitVec.getLsbD_or]
    simp

/-- A record is queued, coalesced or lost: nothing but the error state and registers changes. -/
theorem State.raise_eq (s : State) (isl : Nat) (r : ErrRec) :
    s.raise isl r = { s with err := (s.raise isl r).err, regs := (s.raise isl r).regs } := by
  obtain ⟨q, only⟩ := s.raise_frame isl r
  unfold State.RegsOnly at only
  rw [only]
  unfold State.setErrQueue
  split <;> rfl

/-- The record of a channel that failed keeps the device out (R386). -/
def State.channelOut (s : State) (c : Nat) : State :=
  let r := s.serviceRec St.islAon (unitMem (c / 10) (c % 10)) St.memChannelFailed 8 0 7
  { (r.ror .err 4 16).leaveOut St.memChannelFailed 0 with grp := { r.grp with left := true } }

theorem State.memTrained_of_first {s : State} (booted : s.brd.booted = true) (first : 8 ∉ s.brd.steps) (failed : List Nat) :
    s.memTrained failed = (((match failed with
      | [] => s.showChUp failed 8
      | c :: _ => (s.showChUp failed 8).channelOut c).stepDone 8).stepDone 10) := by
  unfold State.memTrained
  refine (if_neg (by simp [booted, first])).trans ?_
  cases failed <;> rfl

theorem State.channelOut_keepsAt (s : State) {a : Nat} (outside : ∀ off, a ≠ Page.err.base + off) (status : a ≠ Page.aon.base + 4)
    (detail : a ≠ Page.aon.base + 0x18) (group : a ≠ Page.aon.base + 0x1C) (c : Nat) : s.KeepsAt a (s.channelOut c) :=
  (((State.KeepsAt.raise s outside _ _).trans (State.KeepsAt.ror _ (outside _) _)).trans
    (State.KeepsAt.leaveOut _ status detail group _ _)).trans (State.KeepsAt.of_regs rfl)

theorem State.leftOut_channelOut {s : State} (wf : swf 0#32 s.regs = true) (c : Nat) : (s.channelOut c).leftOut = true := by
  have above : ∀ off, 0 ≠ Page.err.base + off := fun off eq => absurd (Nat.le_of_add_right_le eq.ge) (by decide)
  refine State.leftOut_leaveOut (s := (s.serviceRec _ _ _ _ _ _).ror .err 4 16) ?_ St.memChannelFailed 0
  exact ((State.KeepsAt.raise s above _ _).trans (State.KeepsAt.ror _ (above _) _)).wf wf

/-- Training of the memory shows the channels that came up; a failed one leaves the device out (R163, R431). -/
theorem State.memTrained_facts {s : State} (booted : s.brd.booted = true) (first : 8 ∉ s.brd.steps) (failed : List Nat) :
    let t := s.memTrained failed
    8 ∈ t.brd.steps ∧ 10 ∈ t.brd.steps ∧
      (s.regsWf → ∀ g < 8, ∀ c < 10, bitOf (t.rget (.mem g) 4).toNat (2 + c) = !failed.contains (10 * g + c)) ∧
      (t.grp.left = true ↔ s.grp.left = true ∨ failed ≠ []) ∧ (failed ≠ [] → s.regsWf → t.leftOut = true) := by
  have last : ∀ u : State, 8 ∈ ((u.stepDone 8).stepDone 10).brd.steps ∧ 10 ∈ ((u.stepDone 8).stepDone 10).brd.steps ∧
      ((u.stepDone 8).stepDone 10).regs = u.regs ∧ ((u.stepDone 8).stepDone 10).grp = u.grp := fun u => by
    refine ⟨State.stepDone_mono _ _ (u.mem_stepDone 8), State.mem_stepDone _ 10, ?_, ?_⟩ <;> rw [State.stepDone_eq, State.stepDone_eq]
  rw [s.memTrained_of_first booted first failed]
  have grp : (s.showChUp failed 8).grp = s.grp := by rw [s.showChUp_only failed 8]
  cases failed with
  | nil =>
    obtain ⟨eight, ten, regs, grp'⟩ := last (s.showChUp [] 8)
    refine ⟨eight, ten, fun wf g hg c hc => ?_, ?_, fun some_ => absurd rfl some_⟩
    · obtain ⟨wf', shown⟩ := State.bitOf_showChUp wf.1 [] 8
      rw [(State.KeepsAt.of_regs regs).rget_eq wf']
      exact shown g hg c hc
    · simp only [grp', grp, ne_eq, not_true_eq_false, or_false]
  | cons d rest =>
    obtain ⟨eight, ten, regs, grp'⟩ := last ((s.showChUp (d :: rest) 8).channelOut d)
    refine ⟨eight, ten, fun wf g hg c hc => ?_, ?_, fun _ wf => ?_⟩
    · obtain ⟨wf', shown⟩ := State.bitOf_showChUp wf.1 (d :: rest) 8
      have number := (Page.mem g).base_eq_number
      have err := Page.err.base_eq_number
      have aon := Page.aon.base_eq_number
      dsimp only [Page.number] at number err aon
      have kept := (s.showChUp (d :: rest) 8).channelOut_keepsAt (a := (Page.mem g).base + 4) (fun off => by omega) (by omega) (by omega) (by omega) d
      rw [(kept.trans (.of_regs regs)).rget_eq wf']
      exact shown g hg c hc
    · simp only [grp', ne_eq, reduceCtorEq, not_false_eq_true, or_true, iff_true]
      rfl
    · exact (congrArg (fun r => bitOf (sget 0#32 r (Page.aon.base + 0x1C) ^^^ Page.aon.resetVal 0x1C).toNat 17) regs).trans
        (State.leftOut_channelOut (State.bitOf_showChUp wf.1 (d :: rest) 8).1 d)

/-! ### The lower tree -/

/-- The minimum SVN may rise; nothing else changes. -/
theorem State.burnSvn_eq (s : State) :
    s.burnSvn = { s with sec := { s.sec with fuses := { s.sec.fuses with minSvn := s.burnSvn.sec.fuses.minSvn } } } := by
  unfold State.burnSvn
  split <;> rfl

/-- A generated tree that the device waits for is in use from its first leaf, and the top leaf that signed it is spent (R400, R401). -/
theorem State.treeMade_facts {s : State} {dead : Nat} (regen : s.sec.regen = true) (room : s.sec.fuses.topUsed + dead < 1024)
    (awaited : s.sec.exhaustedGen = false) :
    ∃ t : State, s.treeMade dead = t.attestGo ∧ t.sec.tree = some (s.sec.fuses.topUsed + dead + 1) ∧ t.sec.leaf = 0 ∧ t.sec.regen = false ∧
      t.sec.fuses.topUsed = s.sec.fuses.topUsed + dead + 1 ∧ 11 ∈ t.brd.steps := by
  have used : min 1024 (s.sec.fuses.topUsed + dead + 1) = s.sec.fuses.topUsed + dead + 1 := by omega
  have step : 11 ∈ if s.brd.steps.contains 11 then s.brd.steps else s.brd.steps ++ [11] := by
    split
    next done => exact List.contains_iff_mem.1 done
    next => simp
  have eq : s.treeMade dead = _ := if_neg (by simp [regen])
  dsimp only at eq
  rw [used, if_neg (not_le.2 room), awaited, if_neg Bool.false_ne_true] at eq
  refine ⟨_, eq, ?_⟩
  rw [State.burnSvn_eq]
  exact ⟨rfl, rfl, rfl, rfl, step⟩

theorem State.startRegen_of_low {s : State} (leaves : 31744 ≤ s.sec.leaf) (none_ : s.sec.nextTree = false) (idle : s.sec.regen = false)
    (open_ : s.sec.periodOpen = true) (top : s.sec.fuses.topUsed < 1024) (tree : s.sec.tree ≠ none) :
    s.startRegen = { s with sec := { s.sec with regen := true, exhaustedGen := true, periodOpen := false } } :=
  if_pos (by simp [leaves, none_, idle, open_, top, Option.isSome_iff_ne_none.2 tree])

theorem State.startRegen_of_enough {s : State} (enough : s.sec.leaf < 31744 ∨ s.sec.nextTree = true ∨ s.sec.regen = true) : s.startRegen = s :=
  if_neg (by rcases enough with leaves | next | busy <;> simp [*])

/-! ### The end of start-up -/

theorem State.startUpDone_of_unready {s : State} (unready : s.brd.booted = false ∨ 12 ∈ s.brd.steps ∨ 8 ∉ s.brd.steps ∨ 11 ∉ s.brd.steps)
    (cs gs : List Nat) : s.startUpDone cs gs = s :=
  if_pos (by rcases unready with off | done | memory | tree <;> simp [*])

/-- The last steps of start-up, with every unit good: self-tests, and the time from which a CALL is waited for. -/
def State.lastSteps (s : State) : State :=
  let s5 := (((s.stepDone 5).stepDone 6).stepDone 7).stepDone 12
  { s5 with brd := { s5.brd with calledAt := s5.aonClk } }

theorem State.lastSteps_facts {s : State} (first : 12 ∉ s.brd.steps) :
    let t := s.lastSteps
    t.grp = s.grp ∧ t.brd.steps = (((s.stepDone 5).stepDone 6).stepDone 7).brd.steps ++ [12] ∧ t.brd.calledAt = s.aonClk ∧ t.mem = s.mem ∧
      t.cores = s.cores ∧ t.regs = s.regs := by
  have other : ∀ (u : State) (n : Nat), 12 ≠ n → 12 ∉ u.brd.steps → 12 ∉ (u.stepDone n).brd.steps := fun u n ne absent => by
    unfold State.stepDone
    split
    · exact absent
    · simpa [absent] using ne
  have absent : 12 ∉ (((s.stepDone 5).stepDone 6).stepDone 7).brd.steps :=
    other _ 7 (by decide) (other _ 6 (by decide) (other _ 5 (by decide) first))
  have eq : ((s.stepDone 5).stepDone 6).stepDone 7 = { s with brd := { s.brd with steps := (((s.stepDone 5).stepDone 6).stepDone 7).brd.steps } } := by
    rw [State.stepDone_eq, State.stepDone_eq, State.stepDone_eq]
  unfold State.lastSteps
  generalize ((s.stepDone 5).stepDone 6).stepDone 7 = u at *
  have last : u.stepDone 12 = { u with brd := { u.brd with steps := u.brd.steps ++ [12] } } := if_neg (by simpa using absent)
  rw [last, eq]
  exact ⟨rfl, rfl, rfl, rfl, rfl, rfl⟩

theorem State.startUpDone_of_good {s : State} (booted : s.brd.booted = true) (first : 12 ∉ s.brd.steps) (tried : ∀ q < 8, (s.port q).tried = true)
    (memory : 8 ∈ s.brd.steps) (tree : 11 ∈ s.brd.steps) (in_ : s.leftOut = false) (member : s.grp.left = false) (ganders : s.brd.gandersLost = 0)
    (cores : 24 ≤ s.liveCores.length) : s.startUpDone [] [] = (s.lastSteps.toSt 4).answerCall := by
  obtain ⟨grp, -, -, -, -, regs⟩ := State.lastSteps_facts first
  have out : s.lastSteps.leftOut = s.leftOut := congrArg (fun r => bitOf (sget 0#32 r (Page.aon.base + 0x1C) ^^^ Page.aon.resetVal 0x1C).toNat 17) regs
  have serves : ¬(s.lastSteps.leftOut || s.lastSteps.grp.left) = true := by simp [out, in_, grp, member]
  have lost : ((List.range 4).filter s.brd.gandersLost.testBit).length = 0 := by rw [ganders]; rfl
  unfold State.startUpDone
  refine (if_neg (by simpa [booted, first, memory, tree] using tried)).trans ?_
  simp only [List.foldl_nil, lost, Nat.reduceLeDiff, if_false, not_lt.2 cores]
  exact if_neg serves

/-- Settles O59: each reset keeps what it names, and each step of start-up changes what it names. -/
theorem resetsAndStartUp : Obligations.ResetsAndStartUp := by
  unfold Obligations.ResetsAndStartUp
  refine ⟨fun s => ⟨execPowerOnReset_facts s, ?_, fun good running cool => ?_, fun r good => ?_, fun pins f good low => execResetNRise_of_low good low pins f,
    fun r pins f rails good running => congrArg Host.Outcome.next (State.railBack_of_last rails good running pins f),
    fun pins f mission cool rails => State.leaveReset_of_ready mission cool rails f, fun pins f => ?_⟩,
    fun s => ⟨fun failed booted first => ?_, fun failed done => ?_, fun dead regen room awaited => ?_, fun dead idle => ?_, ⟨?_, fun enough => ?_⟩,
      fun booted first tried memory tree in_ member ganders => ?_, fun unready cs gs => congrArg Host.Outcome.next (State.startUpDone_of_unready unready _ _)⟩⟩
  · obtain ⟨regs, alert, -, power⟩ := s.resetPower_eq
    refine ⟨_, rfl, ?_⟩
    rw [power]
    exact ⟨rfl, rfl, rfl, rfl, rfl⟩
  · exact ⟨_, rfl, State.resetFall_facts good running cool⟩
  · obtain ⟨noted, fuses, reset, kept⟩ := State.brownout_facts good r
    exact ⟨_, rfl, noted, fuses, fun on => reset (on.imp_right (congrArg Fin.val)), fun on other => kept on fun eq => other (Fin.ext eq)⟩
  · intro t life flash strap
    have boot := State.boot_of_service life flash strap f
    exact ⟨fun a => boot.trans (if_pos a), fun a b => boot.trans ((if_neg (Bool.eq_false_iff.1 a)).trans (if_pos b)),
      fun a b => boot.trans ((if_neg (Bool.eq_false_iff.1 a)).trans (if_neg (Bool.eq_false_iff.1 b)))⟩
  · obtain ⟨eight, ten, shown, left, out⟩ := State.memTrained_facts booted first (failed.map (·.val))
    refine ⟨_, rfl, eight, ten, shown, left.trans (or_congr_right (not_congr List.map_eq_nil_iff)), fun some_ => out fun eq => some_ (List.map_eq_nil_iff.1 eq)⟩
  · exact congrArg Host.Outcome.next (if_pos (by rcases done with off | eight <;> simp [*]))
  · obtain ⟨t, eq, facts⟩ := State.treeMade_facts regen room awaited
    exact ⟨t, congrArg Host.Outcome.next eq, facts⟩
  · exact congrArg Host.Outcome.next (if_pos (by simp [idle]))
  · exact fun leaves none_ idle top tree => congrArg Host.Outcome.next (State.startRegen_of_low leaves none_ idle rfl top tree)
  · exact congrArg Host.Outcome.next (State.startRegen_of_enough (s := { s with sec := { s.sec with periodOpen := true } }) enough)
  · obtain ⟨grp, steps, called, mem, cores, -⟩ := State.lastSteps_facts first
    exact ⟨s.lastSteps, _, rfl, ⟨grp, steps, called, mem, cores⟩, State.startUpDone_of_good booted first tried memory tree in_ member ganders⟩

end Sys2Proof.Machine
end

section
/-! PROOFS. The SMBus port and the boundary-scan port (O60). -/

namespace Sys2Proof.Machine

open Sys2Proof

/-! ### The SMBus port -/

theorem State.smbusOn_iff (s : State) : s.smbusOn = true ↔ 6 ∉ s.brd.brownRails ∧ 7 ∉ s.brd.brownRails := by
  simp [State.smbusOn]

theorem State.smbus_of_on {s : State} (on : s.smbusOn = true) (f : State → State) : s.smbus f = .next (f s) := if_pos on

theorem State.alerts_iff (s : State) :
    s.alerts = true ↔ s.rfield .aon 4 16 16 ≠ 0 ∨ 400 ≤ s.rfield (.pwr 0) 0x30 0 10 ∨ s.brd.alertState = true := by
  simp [State.alerts, or_assoc]

theorem execAlertResponse_of_on {s : State} (on : s.smbusOn = true) : execAlertResponse s = .next (
    if s.rfield .aon 4 16 16 ≠ 0 ∨ 400 ≤ s.rfield (.pwr 0) 0x30 0 10 ∨ s.brd.alertState = true then
      ({ s with brd := { s.brd with alertState := false } } : State).emit (.smbus [BitVec.ofNat 8 (2 * (0x40 + s.devIndex % 16))])
    else s.emit .smbusNack) := by
  simp only [← s.alerts_iff]
  exact State.smbus_of_on on _

/-- A write is ignored with a wrong PEC, not acknowledged when it does not fit, and carried out else. -/
theorem State.smbusWrite_of_on {s : State} (on : s.smbusOn = true) (d want : Byte) (f : State → State) :
    s.smbusWrite d want false f = .next s ∧
    (d ≠ want ∨ s.brd.thermtrip = true ∨ (s.brd.deep = false ∧ 12 ∉ s.brd.steps) → s.smbusWrite d want true f = .next (s.emit .smbusNack)) ∧
    (s.brd.thermtrip = false → s.brd.deep = true ∨ 12 ∈ s.brd.steps → s.smbusWrite want want true f = .next (f s)) := by
  refine ⟨State.smbus_of_on on _, fun bad => (State.smbus_of_on on _).trans (congrArg Host.Outcome.next ((if_neg Bool.false_ne_true).trans (if_pos ?_))),
    fun cool ready => (State.smbus_of_on on _).trans (congrArg Host.Outcome.next ((if_neg Bool.false_ne_true).trans (if_neg ?_)))⟩
  · simpa only [List.contains_iff_mem, not_or, Bool.not_eq_true] using bad
  · simp only [cool, List.contains_iff_mem, ready, ne_eq, not_true_eq_false, Bool.false_eq_true, or_self, not_false_eq_true]

/-! ### The boundary-scan port -/

theorem State.railsIn_of_good {s : State} (good : s.brd.pwrgood = true) (rails : s.brd.brownRails = []) : s.railsIn = true := by
  simp [State.railsIn, good, rails]

theorem State.railsIn_of_bad {s : State} (bad : s.brd.pwrgood = false ∨ s.brd.brownRails ≠ []) : s.railsIn = false := by
  rcases bad with off | rails <;> simp [State.railsIn, *]

/-- A register access captures the data of the last read between bits that are open, and is made with the port's rights (R30, R438). -/
theorem execRegAccess_of_page {s : State} {a : Nat} {p : Page} {off : Nat} (local_ : a < 2 ^ 48) (page : Page.ofAddr a = some (p, off)) (w : Word) :
    let n := s.nextFree % 2 ^ 48 + s.sec.tapRead.toNat * 2 ^ 48 + (s.nextFree / 2 ^ 48) % 2 * 2 ^ 80
    let t := ((s.tapTo .regAccess .normal).emit (.tap 81 n)).drawFree
    n / 2 ^ 48 % 2 ^ 32 = s.sec.tapRead.toNat ∧
    execRegAccess a w true s = settled ((t.tapSays (if t.mayWrite .tap p = true then St.ok else St.regAccessDenied)).regWrite .tap a 4 w) ∧
    (let r := (t.tapSays (if t.mayRead .tap p = true then St.ok else St.regAccessDenied)).regRead .tap a
     execRegAccess a w false s = .next { r.2 with sec := { r.2.sec with tapRead := r.1 } }) := by
  intro n t
  have captured : n / 2 ^ 48 % 2 ^ 32 = s.sec.tapRead.toNat := by
    have := s.sec.tapRead.isLt
    omega
  refine ⟨captured, ?_, ?_⟩
  · unfold execRegAccess
    dsimp only
    rw [Nat.mod_eq_of_lt local_, page]
    rfl
  · unfold execRegAccess
    dsimp only
    rw [Nat.mod_eq_of_lt local_, page]
    rfl

/-- An owner slot that may be programmed takes its digests; the other slots stay. -/
theorem execOtpOwner_of_free {s : State} {k : Fin 4} (may : s.mayFuse = true) (free : (s.sec.fuses.owners[k]).programmed = false) (e h : Nat) :
    ∃ t, execOtpOwner (k.val + 1) e h s = .next t ∧
      t.sec.fuses.owners[k] = { s.sec.fuses.owners[k] with programmed := true, ecdsa := e % 2 ^ 384, hss := h % 2 ^ 384 } ∧
      (∀ j : Fin 4, j ≠ k → t.sec.fuses.owners[j] = s.sec.fuses.owners[j]) ∧ t.sec.tapStatus = St.ok ∧ t.mem = s.mem ∧ t.regs = s.regs := by
  refine ⟨_, (if_neg (by omega)).trans (if_neg ?_), ?_, fun j other => ?_, rfl, rfl, rfl⟩
  · simpa [may] using free
  · exact (Vector.getElem_mapIdx k.isLt).trans (if_pos rfl)
  · exact (Vector.getElem_mapIdx j.isLt).trans (if_neg fun eq => other (Fin.ext (Nat.succ.inj eq)))

theorem execOtpOwner_of_bad {s : State} {k : Fin 4} (bad : s.mayFuse = false ∨ (s.sec.fuses.owners[k]).programmed = true) (e h : Nat) :
    execOtpOwner (k.val + 1) e h s = .next ((s.tapTo .otpOwner .normal).tapSays St.authFailed) := by
  refine (if_neg (by omega)).trans (if_pos ?_)
  simpa using bad

/-- Settles O60: each command of a port acts by its own case, and a port without its supplies does nothing. -/
theorem boardPorts : Obligations.BoardPorts := by
  unfold Obligations.BoardPorts
  refine ⟨fun s => ?_, fun s => ?_⟩
  · intro reads writes
    refine ⟨fun six seven => ?_, fun out => ?_⟩
    · have on : s.smbusOn = true := s.smbusOn_iff.2 ⟨six, seven⟩
      refine ⟨?_, fun pins f => ?_⟩
      · simp only [reads, List.forall_mem_cons]
        exact ⟨if_pos on, if_pos on, if_pos on, if_pos on, if_pos on, if_pos on, if_pos on, execAlertResponse_of_on on,
          List.forall_mem_nil _⟩
      · simp only [writes, List.forall_mem_cons]
        exact ⟨fun d => State.smbusWrite_of_on on d 0xD5 fun s => if s.brd.deep then s else s.enterDeep,
          fun d => State.smbusWrite_of_on on d 0xE5 State.exitDeep, fun d => State.smbusWrite_of_on on d 0x5A fun s => s.resetDevice.leaveReset pins f,
          List.forall_mem_nil _⟩
    · have off : ¬s.smbusOn = true := fun on => by
        obtain ⟨six, seven⟩ := s.smbusOn_iff.1 on
        exact out.elim six seven
      refine ⟨?_, fun pins f => ?_⟩
      · simp only [reads, List.forall_mem_cons]
        exact ⟨if_neg off, if_neg off, if_neg off, if_neg off, if_neg off, if_neg off, if_neg off, if_neg off,
          List.forall_mem_nil _⟩
      · simp only [writes, List.forall_mem_cons]
        exact ⟨fun d ok => if_neg off, fun d ok => if_neg off, fun d ok => if_neg off, List.forall_mem_nil _⟩
  · intro free board
    refine ⟨rfl, rfl, rfl, fun b => rfl, fun good rails => ?_, fun bad => ?_, fun a w p off local_ page => ?_, fun n pw => ?_, rfl, fun r ok => ?_,
      fun k e h may slot => execOtpOwner_of_free may slot e h, fun k e h bad => execOtpOwner_of_bad bad e h, fun d may => ?_, fun d no => ?_⟩
    · have drives : ¬(!s.railsIn) = true := by simp [State.railsIn_of_good good rails]
      exact ⟨fun b => if_neg drives, if_neg drives, if_neg drives⟩
    · have still : (!s.railsIn) = true := by simp [State.railsIn_of_bad bad]
      exact ⟨fun b => if_pos still, if_pos still, if_pos still⟩
    · obtain ⟨captured, write_, read⟩ := execRegAccess_of_page (s := s) local_ page w
      exact ⟨_, _, captured, rfl, write_, read⟩
    · intro t
      refine ⟨fun opened => if_pos opened, fun closed => (if_neg (by omega)).trans (congrArg Host.Outcome.next ?_)⟩
      unfold State.tapLevelTo
      simp only [Bool.and_eq_true, Bool.not_eq_true', decide_eq_true_eq, and_assoc]
      rfl
    · intro t u
      refine ⟨fun opened => if_pos opened, fun closed free_ valid signer good => (if_neg (by omega)).trans (congrArg Host.Outcome.next ?_),
        fun closed bad => (if_neg (by omega)).trans (congrArg Host.Outcome.next ?_)⟩
      · exact if_pos (by simp [t] at *; simp [*])
      · exact if_neg (by rcases bad with bad | bad | bad | bad <;> simp [t] at * <;> simp [*])
    · refine ⟨_, if_neg (by simp [may]), rfl, rfl, rfl, rfl⟩
    · exact if_pos (by simp [no])

end Sys2Proof.Machine
end
